-- ==== Sys2Proof/Word.lean ====
section
/-! DEFINITION. The word types of the Holquel V8 (R3, R4, R82): plain abbreviations over BitVec and the
one key-value list type that sparse state is held in. -/
namespace Sys2Proof

/-- A byte of memory. -/
abbrev Byte := BitVec 8
/-- A lane register, an instruction word. -/
abbrev B32 := BitVec 32
/-- A group register, a virtual address. -/
abbrev B64 := BitVec 64
/-- A mask over the 32 lanes of a gang: bit l is lane l (R9). -/
abbrev Lanes := BitVec 32
/-- Sparse data by a natural-number key, keys rising. What an unlisted key reads as is said by its reader. -/
abbrev SMap (α : Type) := List (Nat × α)
/-- Frames by physical address: an unlisted byte reads zero (log 4). -/
abbrev Memory := SMap Byte

end Sys2Proof
end

