-- ==== Sys2Proof/Syntax.lean ====
section
/-! DEFINITION. The syntax: one constructor for every row of the opcode table, 197 instruction words and 109 events,
and the plain data that events carry. A word's operands are its encoding's fields (R82); an event's operands name the
unit that acts, or the data that comes from outside. -/
namespace Sys2Proof

/-- A guard (R83): predicate number and negate bit. `p = 7, n = 0` is unguarded. -/
structure Guard where
  p : BitVec 3
  n : BitVec 1
  deriving DecidableEq, Repr

/-- The kinds of access that Translate (R63) and the page table (R210) tell apart. `xload` and `xstore` are an
executor's data accesses (XA applies). -/
inductive AccKind where
  | fetch | load | store | atomic | xload | xstore | xatomic
  deriving DecidableEq, Repr

/-- What WORKGROUP_PLACE offers resources to (R60, R376). -/
inductive PlaceItem where
  /-- The next unplaced cluster of launch `l`. -/
  | fresh (l : Nat)
  /-- A discarded cluster `n` of launch `l` (R371). -/
  | again (l n : Nat)
  /-- The saved image `k` (R375). -/
  | saved (k : Nat)
  deriving DecidableEq, Repr

/-- A fabric flit: the header's fields (R327) and its payload. -/
structure Flit where
  type : BitVec 6
  src : BitVec 9
  dst : BitVec 9
  stream : BitVec 4
  sctx : BitVec 10
  len : BitVec 6
  gen : BitVec 2
  kg : BitVec 1
  psn : BitVec 1
  count : BitVec 32
  addr : BitVec 48
  payload : List (BitVec 8)
  deriving DecidableEq, Repr

/-- Where a control message arrives (R329, R330): the port, and the key bank that its flit names. -/
structure Via where
  port : Nat
  kg : BitVec 1
  deriving DecidableEq, Repr

/-- What the Penumbra exchange brings (R393): the local engine's own search for face `k` of binding `b`; the control
message of a peer's engine, with the socket whose engine it asks, the asker's own socket, face and coordinates and what its
digest covers; a peer's reply naming its binding (or none), and the digest check (R31); or the delivery of a round's close
at the receiving package, every write of the round being performed there (R279, log 42). -/
inductive ExchangeMsg where
  | search (b k : Nat)
  | inbound (via : Via) (peer sctx stream sock asker face : Nat) (coord : List Nat) (shared : List (BitVec 64))
  | reply (via : Via) (b k : Nat) (number : Option Nat) (agree : Bool)
  | delivered (b k round : Nat)
  deriving DecidableEq, Repr

/-- The registers of the physical function's space whose writes have no row of their own (R5). -/
inductive PfReg where
  | ctxcmd | strcmd | lgcmd | diesvc | troot | peerid
  | trcmd (slot : BitVec 4) | trpte (slot : BitVec 4) | trarg (slot : BitVec 4)
  | profctl (grp : Nat) | hmask (grp : Nat) (b : Nat) | region (grp : Nat) (n : Nat)
  | export_ (n : Nat) | hdmw (port n : Nat)
  | lease (ten : Nat) | fabcfg (ten : Nat) | sfq (ten : Nat) | drain (ten : Nat) | peers (ten : Nat) (j : Nat)
  | win (ctx w : Nat) | fqbase (ctx : Nat) | csa (ctx : Nat)
  deriving DecidableEq, Repr

/-- The fields of a STRCMD write (R334) below OP. -/
structure StreamCmd where
  ctx : BitVec 10
  stream : BitVec 4
  peer : BitVec 9
  rctx : BitVec 10
  ftmo : BitVec 20
  rsv : BitVec 8
  deriving DecidableEq, Repr

/-- The COLLAPSE control message (R219): where it arrives, the requester's peer id and tag, the page, and the requester's
export. -/
structure CollapseMsg where
  via : Via
  peer : BitVec 9
  tag : BitVec 32
  ia : Nat
  size : BitVec 2
  home : BitVec 8
  exp : BitVec 8
  off : Nat
  ten : BitVec 10
  deriving DecidableEq, Repr

/-- The twin's reply to a COLLAPSE message (R219): where it arrives, and whether the collapse is agreed to. -/
structure CollapseAck where
  via : Via
  ok : Bool
  deriving DecidableEq, Repr

/-- A firmware image (R387): its bytes, signature and public-key hash, version and security version. -/
structure FwImage where
  bytes : List (BitVec 8)
  sig : Nat
  keyHash : Nat
  version : BitVec 32
  secver : Nat
  deriving DecidableEq, Repr

/-- What a host or pool port's partner offers at training (R348); `flit` is the largest flit it uses, in bytes: 0 for none. -/
structure LinkOffer where
  cxl : Option (BitVec 16)
  gts : Nat
  lanes : Nat
  flit : Nat
  deriving DecidableEq, Repr

/-- A link-layer flit (R329): an acknowledgement of a count mod 2^16, or a replay request from a count. -/
inductive LnkKind where
  | ack | replay
  deriving DecidableEq, Repr
structure LnkMsg where
  kind : LnkKind
  kg : BitVec 1
  n : BitVec 16
  deriving DecidableEq, Repr

/-- The kinds of external snoop (R354). -/
inductive SnoopKind where
  | data | inv
  deriving DecidableEq, Repr

/-- Who asks a translation home for a translation (R211): the agent that will hold it, and the tenant whose table it is. -/
structure Asker where
  holder : Nat
  ten : Nat
  deriving DecidableEq, Repr

/-- Every instruction and event of the opcode table. -/
inductive Instr where
  /-- NOP (R143): Does nothing. -/
  | nop
  /-- BRA (R144): Moves the fragment whole to the branch target. -/
  | bra (f : BitVec 20)
  /-- BRQ (R144): Branches when the group predicate, possibly inverted, holds; otherwise continues at the next clause. -/
  | brq (p : BitVec 3) (n : BitVec 1) (f : BitVec 20)
  /-- BRX (R144): Branches to the address held in a g register. -/
  | brx (g : Guard) (a : BitVec 6)
  /-- CALL (R144): Writes the next clause address into a link register and branches. -/
  | callG (l : BitVec 3) (f : BitVec 20)
  /-- RET (R144): Returns to the address held in a g register. -/
  | retG (g : Guard) (a : BitVec 6)
  /-- EXIT (R115): Stops every fragment of the gang, which then ends once its flags are clear. -/
  | exitG (g : Guard)
  /-- TRAP (R145): Takes fault TRAP as a precise-parked fault carrying the immediate. -/
  | trapG (g : Guard) (i : BitVec 12)
  /-- JOINAT (R109): Pushes a join entry on each slice and sets the fragment's pending reconvergence address. -/
  | joinat (f : BitVec 20)
  /-- JOIN (R111): Pops divergence entries or waits at the reconvergence address and fuses the fragments waiting there. -/
  | joinG (g : Guard)
  /-- REGANG (R112): Rendezvous of all live fragments of the gang, which fuse when all wait at one address. -/
  | regang (g : Guard)
  /-- GFUSE_RCV (R116): Enters FUSEWAIT as receiver of a gang fusion. -/
  | gfuseRcv (g : Guard) (d a b : BitVec 6)
  /-- GFUSE_DON (R116): Enters FUSEWAIT as donor of a gang fusion. -/
  | gfuseDon (g : Guard) (d a b : BitVec 6)
  /-- YIELD (R247): Gives up issue slots, waits on a byte-count barrier and resumes at a given clause. -/
  | yieldG (g : Guard) (x y z : BitVec 6)
  /-- PAUSE (R104): Starts an issue-priority penalty of n cycles for the fragment. -/
  | pauseG (n : BitVec 18)
  /-- IDEMEND (R146): Ends the workgroup's idempotent region. -/
  | idemend
  /-- GADD (R147): 64-bit group add. -/
  | gadd (g : Guard) (d a b : BitVec 6)
  /-- GSUB (R147): 64-bit group subtract. -/
  | gsub (g : Guard) (d a b : BitVec 6)
  /-- GMUL (R147): 64-bit group multiply, low half. -/
  | gmul (g : Guard) (d a b : BitVec 6)
  /-- GMULH (R147): High 64 bits of the signed or unsigned product. -/
  | gmulh (g : Guard) (s : BitVec 1) (d a b : BitVec 6)
  /-- GMIN (R147): Signed or unsigned minimum of two g registers. -/
  | gmin (g : Guard) (s : BitVec 1) (d a b : BitVec 6)
  /-- GMAX (R147): Signed or unsigned maximum of two g registers. -/
  | gmax (g : Guard) (s : BitVec 1) (d a b : BitVec 6)
  /-- GMOV (R147): Copies a g register. -/
  | gmov (g : Guard) (d a : BitVec 6)
  /-- GAND (R147): Bitwise AND of g registers. -/
  | gand (g : Guard) (d a b : BitVec 6)
  /-- GOR (R147): Bitwise OR of g registers. -/
  | gor (g : Guard) (d a b : BitVec 6)
  /-- GXOR (R147): Bitwise XOR of g registers. -/
  | gxor (g : Guard) (d a b : BitVec 6)
  /-- GSHL (R147): Shift left by a register count. -/
  | gshl (g : Guard) (d a b : BitVec 6)
  /-- GSHR (R147): Logical shift right by a register count. -/
  | gshr (g : Guard) (d a b : BitVec 6)
  /-- GSAR (R147): Arithmetic shift right by a register count. -/
  | gsar (g : Guard) (d a b : BitVec 6)
  /-- GADDI (R148): Adds a sign-extended immediate to a g register. -/
  | gaddi (g : Guard) (d : BitVec 6) (i : BitVec 12)
  /-- GANDI (R148): ANDs a sign-extended immediate into a g register. -/
  | gandi (g : Guard) (d : BitVec 6) (i : BitVec 12)
  /-- GORI (R148): ORs a sign-extended immediate into a g register. -/
  | gori (g : Guard) (d : BitVec 6) (i : BitVec 12)
  /-- GXORI (R148): XORs a sign-extended immediate into a g register. -/
  | gxori (g : Guard) (d : BitVec 6) (i : BitVec 12)
  /-- GSHLI (R148): Shifts a g register left by an immediate. -/
  | gshli (g : Guard) (d : BitVec 6) (i : BitVec 12)
  /-- GSHRI (R148): Shifts a g register right logically by an immediate. -/
  | gshri (g : Guard) (d : BitVec 6) (i : BitVec 12)
  /-- GSARI (R148): Shifts a g register right arithmetically by an immediate. -/
  | gsari (g : Guard) (d : BitVec 6) (i : BitVec 12)
  /-- GMOVI (R149): Sets a g register to a sign-extended 18-bit immediate. -/
  | gmovi (d : BitVec 6) (i : BitVec 18)
  /-- GMOVHI (R149): Shifts a g register left 18 bits and appends an immediate. -/
  | gmovhi (d : BitVec 6) (i : BitVec 18)
  /-- GCMP (R150): Compares two g registers and writes a group predicate. -/
  | gcmp (g : Guard) (t : BitVec 2) (c q : BitVec 3) (a b : BitVec 6)
  /-- QLOP (R151): Combines two group predicates. -/
  | qlop (g : Guard) (m : BitVec 2) (d a b : BitVec 3)
  /-- GSR (R152): Reads a group special register. -/
  | gsr (g : Guard) (d s : BitVec 6)
  /-- GSW (R152): Writes a group special register. -/
  | gsw (g : Guard) (s a : BitVec 6)
  /-- GFROMV (R154): Copies one lane's register into a g register. -/
  | gfromv (g : Guard) (t : BitVec 2) (d a b : BitVec 6)
  /-- GREDUCE (R155): Reduces a lane register over the fragment's active lanes in a fixed order. -/
  | greduce (g : Guard) (o : BitVec 2) (d a : BitVec 6) (t : BitVec 4)
  /-- GLDK (R156): Uniform load made once by the fragment into a g register. -/
  | gldk (g : Guard) (m : BitVec 2) (d a c : BitVec 6)
  /-- GSTK (R156): Uniform store made once by the fragment from a g register. -/
  | gstk (g : Guard) (m : BitVec 2) (d a c : BitVec 6)
  /-- TCOPY (R243): Reads and checks a copy template and starts an asynchronous copy. -/
  | tcopy (g : Guard) (x y z : BitVec 6)
  /-- TCOPYG (R243): Starts an asynchronous copy whose rows are gathered by lane indices. -/
  | tcopyg (g : Guard) (x y z : BitVec 6)
  /-- BARINIT (R246): Initialises a byte-count barrier with its expected arrivals. -/
  | barinit (g : Guard) (x y : BitVec 6)
  /-- BAREXP (R246): Adds expected bytes to a barrier. -/
  | barexp (g : Guard) (x y : BitVec 6)
  /-- BAREXP_ARV (R246): Adds expected bytes and one arrival to a barrier in one act. -/
  | barexpArv (g : Guard) (x y : BitVec 6)
  /-- BARARV (R246): Counts one arrival on a barrier with release and returns the old phase. -/
  | bararv (g : Guard) (x z : BitVec 6)
  /-- BARWAIT (R247): Blocks until the barrier's phase differs from the given one or its error bit is set. -/
  | barwait (g : Guard) (x y : BitVec 6)
  /-- BARTRY (R246): Tests a barrier's phase once and writes a group predicate. -/
  | bartry (g : Guard) (x y : BitVec 6) (z : BitVec 3)
  /-- MMA (R263): Multiplies two tiles into an accumulator under a format-block record. -/
  | mma (g : Guard) (m : BitVec 2) (x : BitVec 6) (k : BitVec 2) (a b : BitVec 4)
  /-- MMAG (R264): Gathers A rows into the operand latch and then multiplies into an accumulator. -/
  | mmag (g : Guard) (m : BitVec 2) (x : BitVec 6) (k : BitVec 2) (b : BitVec 4) (z : BitVec 5)
  /-- MLDT (R266): Loads a tile from global memory or scratchpad. -/
  | mldt (g : Guard) (m : BitVec 2) (x : BitVec 6) (t : BitVec 4) (z : BitVec 6)
  /-- MSTT (R266): Stores a tile to global memory or scratchpad from a store latch. -/
  | mstt (g : Guard) (m : BitVec 2) (x : BitVec 6) (t : BitVec 4) (z : BitVec 6)
  /-- MZA (R267): Clears an accumulator. -/
  | mza (g : Guard) (k : BitVec 2)
  /-- MRDA_TILE (R268): Converts an accumulator out into one or two tiles. -/
  | mrdaTile (g : Guard) (m : BitVec 2) (x : BitVec 6) (k : BitVec 2) (t : BitVec 4)
  /-- MRDA_SCRATCH (R268): Converts an accumulator out into scratchpad rows. -/
  | mrdaScratch (g : Guard) (m : BitVec 2) (x : BitVec 6) (k : BitVec 2) (z : BitVec 6)
  /-- GBIND (R273): Binds the gang to a grid partition with the workgroup's gangs as participants and commits step 0. -/
  | gbind (g : Guard) (x : BitVec 6)
  /-- GBIND_N (R273): Binds the gang to a grid partition with an explicit participant count. -/
  | gbindN (g : Guard) (x y : BitVec 6)
  /-- GBIND_UN (R273): Unbinds the gang from its grid binding. -/
  | gbindUn (g : Guard)
  /-- GSTEP (R275): Releases and counts the gang's arrival for a grid step, blocking until it is committed. -/
  | gstep (g : Guard) (x : BitVec 6)
  /-- GWAIT (R282): Waits until every region of the named faces holds an acceptable step tag. -/
  | gwait (g : Guard) (x y : BitVec 6)
  /-- GWAIT_TRY (R282): Tests once whether the named faces hold an acceptable tag. -/
  | gwaitTry (g : Guard) (x y : BitVec 6) (z : BitVec 3)
  /-- BXRUN (R289): Checks operands, waits for a run slot and starts a near-bank executor run. -/
  | bxrun (g : Guard) (s : BitVec 2) (x y : BitVec 6) (z : BitVec 5)
  /-- BXWAIT (R290): Blocks until the named run slots are not running and writes their states. -/
  | bxwait (g : Guard) (x y : BitVec 6)
  /-- BXWAIT_TRY (R290): Writes run slot states and whether the named slots are idle, without waiting. -/
  | bxwaitTry (g : Guard) (x y : BitVec 6) (z : BitVec 3)
  /-- RREL (R343): Releases at FAB scope and closes the pair's counted batch with a REL flit. -/
  | rrel (g : Guard) (x y z : BitVec 6)
  /-- RFENCE (R344): Blocks until the fragment's remote instructions have completed. -/
  | rfence (g : Guard)
  /-- RFENCE_CNT (R344): Waits as RFENCE, then returns the pair's batch number and write count. -/
  | rfenceCnt (g : Guard) (d a : BitVec 6)
  /-- LAUNCH (R157): Releases at DEV scope, reads and checks a launch header and queues the launch. -/
  | launchG (g : Guard) (x y : BitVec 6)
  /-- SIGNAL (R158): Releases at a scope, then adds to a 64-bit counter as a far atomic. -/
  | signalG (g : Guard) (s : BitVec 2) (x y : BitVec 6)
  /-- WAITGE (R159): Blocks until a counter reaches a target, ending with an acquire. -/
  | waitge (g : Guard) (s : BitVec 2) (x y : BitVec 6)
  /-- FENCE (R160): Orders the fragment's memory accesses as a release, acquire or both at a scope. -/
  | fenceG (g : Guard) (k : BitVec 2) (s : BitVec 4)
  /-- FRESOLVE (R162): Replays, skips or terminates the parked fragments of a named gang. -/
  | fresolve (g : Guard) (x y z : BitVec 6)
  /-- RSRESET (R163): Resets one fabric stream toward one peer through acknowledged control messages. -/
  | rsreset (g : Guard) (x y z : BitVec 6)
  /-- CTXSAVE (R164): Pre-empts or saves every workgroup of a target context. -/
  | ctxsave (g : Guard) (x y z : BitVec 6)
  /-- CTXLOAD (R164): Loads a context's windows and optionally resumes its dispatch. -/
  | ctxload (g : Guard) (x y z : BitVec 6)
  /-- IADD (R167): 32-bit lane add, wrapping or saturating. -/
  | iadd (g : Guard) (m : BitVec 2) (d a b : BitVec 6)
  /-- ISUB (R167): 32-bit lane subtract, wrapping or saturating. -/
  | isub (g : Guard) (m : BitVec 2) (d a b : BitVec 6)
  /-- IMUL (R167): 32-bit lane multiply, low half. -/
  | imul (g : Guard) (d a b : BitVec 6)
  /-- IMULH (R167): High 32 bits of a signed or unsigned product. -/
  | imulh (g : Guard) (s : BitVec 1) (d a b : BitVec 6)
  /-- IMAD (R173): Destructive integer multiply-add, narrow or wide. -/
  | imad (g : Guard) (m : BitVec 2) (d a b : BitVec 6)
  /-- IMIN (R167): Lane minimum by type. -/
  | imin (g : Guard) (m : BitVec 2) (d a b : BitVec 6)
  /-- IMAX (R167): Lane maximum by type. -/
  | imax (g : Guard) (m : BitVec 2) (d a b : BitVec 6)
  /-- IABS (R167): Lane magnitude, optionally saturating. -/
  | iabs (g : Guard) (m : BitVec 2) (d a : BitVec 6)
  /-- AND (R167): Lane bitwise AND. -/
  | andL (g : Guard) (w : BitVec 1) (d a b : BitVec 6)
  /-- OR (R167): Lane bitwise OR. -/
  | orL (g : Guard) (w : BitVec 1) (d a b : BitVec 6)
  /-- XOR (R167): Lane bitwise XOR. -/
  | xorL (g : Guard) (w : BitVec 1) (d a b : BitVec 6)
  /-- NOT (R167): Lane bitwise NOT. -/
  | notL (g : Guard) (w : BitVec 1) (d a : BitVec 6)
  /-- SHL (R167): Lane shift left by a register count. -/
  | shl (g : Guard) (w : BitVec 1) (d a b : BitVec 6)
  /-- SHR (R167): Lane logical shift right by a register count. -/
  | shr (g : Guard) (w : BitVec 1) (d a b : BitVec 6)
  /-- SAR (R167): Lane arithmetic shift right by a register count. -/
  | sar (g : Guard) (w : BitVec 1) (d a b : BitVec 6)
  /-- MOV (R167): Copies a lane register or pair. -/
  | mov (g : Guard) (w : BitVec 1) (d a : BitVec 6)
  /-- BFE (R169): Extracts a bit field, zero- or sign-extended. -/
  | bfe (g : Guard) (s : BitVec 1) (d a b : BitVec 6)
  /-- BFI (R169): Inserts a bit field into the destination. -/
  | bfi (g : Guard) (d a b : BitVec 6)
  /-- POPC (R167): Counts one bits. -/
  | popc (g : Guard) (w : BitVec 1) (d a : BitVec 6)
  /-- CLZ (R167): Counts leading zero bits. -/
  | clz (g : Guard) (w : BitVec 1) (d a : BitVec 6)
  /-- BREV (R167): Reverses bit order. -/
  | brev (g : Guard) (w : BitVec 1) (d a : BitVec 6)
  /-- SEL (R170): Selects between two registers by a lane predicate, unguarded. -/
  | sel (p : BitVec 3) (n w : BitVec 1) (d a b : BitVec 6)
  /-- ISETP (R168): Compares integers and writes a lane predicate. -/
  | isetp (g : Guard) (t : BitVec 2) (c q : BitVec 3) (a b : BitVec 6)
  /-- IADD64 (R167): 64-bit pair add, wrapping or saturating. -/
  | iadd64 (g : Guard) (m : BitVec 2) (d a b : BitVec 6)
  /-- ISUB64 (R167): 64-bit pair subtract, wrapping or saturating. -/
  | isub64 (g : Guard) (m : BitVec 2) (d a b : BitVec 6)
  /-- IADDI (R171): Adds a sign-extended immediate. -/
  | iaddi (g : Guard) (d : BitVec 6) (i : BitVec 12)
  /-- IMULI (R171): Multiplies by a sign-extended immediate. -/
  | imuli (g : Guard) (d : BitVec 6) (i : BitVec 12)
  /-- ANDI (R171): ANDs a sign-extended immediate. -/
  | andi (g : Guard) (d : BitVec 6) (i : BitVec 12)
  /-- ORI (R171): ORs a sign-extended immediate. -/
  | ori (g : Guard) (d : BitVec 6) (i : BitVec 12)
  /-- XORI (R171): XORs a sign-extended immediate. -/
  | xori (g : Guard) (d : BitVec 6) (i : BitVec 12)
  /-- SHLI (R171): Shifts left by an immediate. -/
  | shli (g : Guard) (d : BitVec 6) (i : BitVec 12)
  /-- SHRI (R171): Shifts right logically by an immediate. -/
  | shri (g : Guard) (d : BitVec 6) (i : BitVec 12)
  /-- SARI (R171): Shifts right arithmetically by an immediate. -/
  | sari (g : Guard) (d : BitVec 6) (i : BitVec 12)
  /-- MOVI (R172): Sets a lane register to a sign-extended 18-bit immediate. -/
  | movi (d : BitVec 6) (i : BitVec 18)
  /-- MOVHI (R172): Shifts a lane register left 18 bits and appends an immediate. -/
  | movhi (d : BitVec 6) (i : BitVec 18)
  /-- PLOP (R174): Combines two lane predicates. -/
  | plop (g : Guard) (m : BitVec 2) (d a b : BitVec 3)
  /-- PMOV_TOV (R175): Moves the lane predicates into a register. -/
  | pmovTov (g : Guard) (d : BitVec 6)
  /-- PMOV_FROMV (R175): Sets lane predicates p0 to p6 from a register. -/
  | pmovFromv (g : Guard) (a : BitVec 6)
  /-- PMOV_FROMQ (R175): Copies a group predicate into a lane predicate. -/
  | pmovFromq (g : Guard) (d a : BitVec 3)
  /-- FADD_F32 (R177): f32 add with the instruction's rounding. -/
  | faddF32 (g : Guard) (m : BitVec 2) (d a b : BitVec 6)
  /-- FSUB_F32 (R177): f32 subtract. -/
  | fsubF32 (g : Guard) (m : BitVec 2) (d a b : BitVec 6)
  /-- FMUL_F32 (R177): f32 multiply. -/
  | fmulF32 (g : Guard) (m : BitVec 2) (d a b : BitVec 6)
  /-- FFMA_F32 (R177): Destructive f32 fused multiply-add. -/
  | ffmaF32 (g : Guard) (m : BitVec 2) (d a b : BitVec 6)
  /-- FMIN_F32 (R179): f32 minimumNumber. -/
  | fminF32 (g : Guard) (f : BitVec 1) (d a b : BitVec 6)
  /-- FMAX_F32 (R179): f32 maximumNumber. -/
  | fmaxF32 (g : Guard) (f : BitVec 1) (d a b : BitVec 6)
  /-- FDIV_F32 (R178): Issues a correctly rounded f32 division that completes later. -/
  | fdivF32 (g : Guard) (m : BitVec 2) (d a b : BitVec 6)
  /-- FSQRT_F32 (R178): Issues a correctly rounded f32 square root that completes later. -/
  | fsqrtF32 (g : Guard) (m : BitVec 2) (d a : BitVec 6) (f : BitVec 1)
  /-- FRCPA_F32 (R180): 12-bit f32 reciprocal approximation. -/
  | frcpaF32 (g : Guard) (f : BitVec 1) (d a : BitVec 6)
  /-- FRSQA_F32 (R180): 12-bit f32 reciprocal square root approximation. -/
  | frsqaF32 (g : Guard) (f : BitVec 1) (d a : BitVec 6)
  /-- FSETP_F32 (R181): Compares f32 values and writes a lane predicate. -/
  | fsetpF32 (g : Guard) (f : BitVec 1) (c q : BitVec 3) (a b : BitVec 6)
  /-- FCLASS_F32 (R182): Classifies an f32 value. -/
  | fclassF32 (g : Guard) (f : BitVec 1) (d a : BitVec 6)
  /-- FADD_F64 (R177): f64 add. -/
  | faddF64 (g : Guard) (m : BitVec 2) (d a b : BitVec 6)
  /-- FSUB_F64 (R177): f64 subtract. -/
  | fsubF64 (g : Guard) (m : BitVec 2) (d a b : BitVec 6)
  /-- FMUL_F64 (R177): f64 multiply. -/
  | fmulF64 (g : Guard) (m : BitVec 2) (d a b : BitVec 6)
  /-- FFMA_F64 (R177): Destructive f64 fused multiply-add. -/
  | ffmaF64 (g : Guard) (m : BitVec 2) (d a b : BitVec 6)
  /-- FMIN_F64 (R179): f64 minimumNumber. -/
  | fminF64 (g : Guard) (d a b : BitVec 6)
  /-- FMAX_F64 (R179): f64 maximumNumber. -/
  | fmaxF64 (g : Guard) (d a b : BitVec 6)
  /-- FDIV_F64 (R178): Issues a correctly rounded f64 division that completes later. -/
  | fdivF64 (g : Guard) (m : BitVec 2) (d a b : BitVec 6)
  /-- FSQRT_F64 (R178): Issues a correctly rounded f64 square root that completes later. -/
  | fsqrtF64 (g : Guard) (m : BitVec 2) (d a : BitVec 6)
  /-- FRCPA_F64 (R180): 12-bit f64 reciprocal approximation. -/
  | frcpaF64 (g : Guard) (d a : BitVec 6)
  /-- FRSQA_F64 (R180): 12-bit f64 reciprocal square root approximation. -/
  | frsqaF64 (g : Guard) (d a : BitVec 6)
  /-- FSETP_F64 (R181): Compares f64 values and writes a lane predicate. -/
  | fsetpF64 (g : Guard) (c q : BitVec 3) (a b : BitVec 6)
  /-- FCLASS_F64 (R182): Classifies an f64 value. -/
  | fclassF64 (g : Guard) (d a : BitVec 6)
  /-- CVT (R185): Converts between float and integer formats without saturation. -/
  | cvt (g : Guard) (m : BitVec 2) (d a b : BitVec 6)
  /-- CVTBLK (R186): Converts blocks of lanes to HX4 by the basic procedure. -/
  | cvtblk (g : Guard) (l : BitVec 1) (d a : BitVec 6) (s : BitVec 2)
  /-- CVTBLK_X (R186): Converts blocks of lanes to HX4 with a header given in a g register. -/
  | cvtblkX (g : Guard) (l : BitVec 1) (d a b : BitVec 6)
  /-- CVTSAT (R185): Converts between formats with saturation. -/
  | cvtsat (g : Guard) (m : BitVec 2) (d a b : BitVec 6)
  /-- FADD_F16X2 (R183): Packed f16 add. -/
  | faddF16x2 (g : Guard) (m : BitVec 2) (d a b : BitVec 6)
  /-- FMUL_F16X2 (R183): Packed f16 multiply. -/
  | fmulF16x2 (g : Guard) (m : BitVec 2) (d a b : BitVec 6)
  /-- FFMA_F16X2 (R183): Packed f16 fused multiply-add. -/
  | ffmaF16x2 (g : Guard) (m : BitVec 2) (d a b : BitVec 6)
  /-- FMIN_F16X2 (R183): Packed f16 minimumNumber. -/
  | fminF16x2 (g : Guard) (f : BitVec 1) (d a b : BitVec 6)
  /-- FMAX_F16X2 (R183): Packed f16 maximumNumber. -/
  | fmaxF16x2 (g : Guard) (f : BitVec 1) (d a b : BitVec 6)
  /-- FSETP_F16X2 (R183): Compares packed f16 elements and writes a lane predicate. -/
  | fsetpF16x2 (g : Guard) (m : BitVec 2) (c q : BitVec 3) (a b : BitVec 6)
  /-- FADD_BF16X2 (R183): Packed bf16 add. -/
  | faddBf16x2 (g : Guard) (m : BitVec 2) (d a b : BitVec 6)
  /-- FMUL_BF16X2 (R183): Packed bf16 multiply. -/
  | fmulBf16x2 (g : Guard) (m : BitVec 2) (d a b : BitVec 6)
  /-- FFMA_BF16X2 (R183): Packed bf16 fused multiply-add. -/
  | ffmaBf16x2 (g : Guard) (m : BitVec 2) (d a b : BitVec 6)
  /-- FMIN_BF16X2 (R183): Packed bf16 minimumNumber. -/
  | fminBf16x2 (g : Guard) (d a b : BitVec 6)
  /-- FMAX_BF16X2 (R183): Packed bf16 maximumNumber. -/
  | fmaxBf16x2 (g : Guard) (d a b : BitVec 6)
  /-- FSETP_BF16X2 (R183): Compares packed bf16 elements and writes a lane predicate. -/
  | fsetpBf16x2 (g : Guard) (m : BitVec 2) (c q : BitVec 3) (a b : BitVec 6)
  /-- VOTE (R187): Combines a lane predicate over participating lanes into a group predicate (any, all, uni). -/
  | vote (g : Guard) (m : BitVec 2) (d a : BitVec 3)
  /-- VOTE_BALLOT (R187): Writes a ballot of a lane predicate into a g register. -/
  | voteBallot (g : Guard) (d : BitVec 6) (a : BitVec 3)
  /-- SHFL (R188): Reads a register from another participating lane. -/
  | shfl (g : Guard) (m : BitVec 2) (d a b : BitVec 6)
  /-- VFROMG (R189): Broadcasts a g register into each participating lane. -/
  | vfromg (g : Guard) (m : BitVec 2) (d a : BitVec 6)
  /-- LSR (R189): Reads a lane special register. -/
  | lsr (g : Guard) (d s : BitVec 6)
  /-- DBR (R110): Sends lanes whose predicate holds to the target, splitting slices and fragments. -/
  | dbr (p : BitVec 3) (n : BitVec 1) (f : BitVec 20)
  /-- EXITL (R114): Ends the lanes whose guard holds. -/
  | exitl (g : Guard)
  /-- LDG (R227): Global load of 4, 8 or 16 bytes. -/
  | ldg (g : Guard) (m : BitVec 2) (d a c : BitVec 6)
  /-- LDGH (R227): Global halfword load, zero- or sign-extended. -/
  | ldgh (g : Guard) (s : BitVec 1) (d a c : BitVec 6)
  /-- LDGB (R227): Global byte load, zero- or sign-extended. -/
  | ldgb (g : Guard) (s : BitVec 1) (d a c : BitVec 6)
  /-- STG (R227): Global store of 4, 8 or 16 bytes. -/
  | stg (g : Guard) (m : BitVec 2) (d a c : BitVec 6)
  /-- STGH (R227): Global halfword store. -/
  | stgh (g : Guard) (d a c : BitVec 6)
  /-- STGB (R227): Global byte store. -/
  | stgb (g : Guard) (d a c : BitVec 6)
  /-- LDA (R229): Load with acquire at a scope, at the frame for memory-side scopes. -/
  | lda (g : Guard) (w : BitVec 1) (d a : BitVec 6) (s : BitVec 4)
  /-- STL (R229): Store with release at a scope, at the frame for memory-side scopes. -/
  | stl (g : Guard) (w : BitVec 1) (d a : BitVec 6) (s : BitVec 4)
  /-- LDS (R228): Scratchpad load of 4, 8 or 16 bytes. -/
  | lds (g : Guard) (m : BitVec 2) (d a c : BitVec 6)
  /-- LDSH (R228): Scratchpad halfword load. -/
  | ldsh (g : Guard) (s : BitVec 1) (d a c : BitVec 6)
  /-- LDSB (R228): Scratchpad byte load. -/
  | ldsb (g : Guard) (s : BitVec 1) (d a c : BitVec 6)
  /-- STS (R228): Scratchpad store of 4, 8 or 16 bytes. -/
  | sts (g : Guard) (m : BitVec 2) (d a c : BitVec 6)
  /-- STSH (R228): Scratchpad halfword store. -/
  | stsh (g : Guard) (d a c : BitVec 6)
  /-- STSB (R228): Scratchpad byte store. -/
  | stsb (g : Guard) (d a c : BitVec 6)
  /-- GLD (R237): Grid load that checks ghost elements against a step tag. -/
  | gld (g : Guard) (m : BitVec 2) (d a c : BitVec 6)
  /-- CCTL (R232): Cache control operation or access-hint setting. -/
  | cctl (g : Guard) (a c : BitVec 6)
  /-- ATOM_ADD (R233): Atomic integer add, returning or not. -/
  | atomAdd (g : Guard) (r : BitVec 1) (d a : BitVec 6) (w f : BitVec 1) (s : BitVec 4)
  /-- ATOM_FADD (R233): Atomic floating add. -/
  | atomFadd (g : Guard) (x r : BitVec 1) (d a : BitVec 6) (w f : BitVec 1) (s : BitVec 4)
  /-- ATOM_MIN (R233): Atomic minimum. -/
  | atomMin (g : Guard) (u r : BitVec 1) (d a : BitVec 6) (w f : BitVec 1) (s : BitVec 4)
  /-- ATOM_MAX (R233): Atomic maximum. -/
  | atomMax (g : Guard) (u r : BitVec 1) (d a : BitVec 6) (w f : BitVec 1) (s : BitVec 4)
  /-- ATOM_BIT (R233): Atomic AND, OR or XOR, returning. -/
  | atomBit (g : Guard) (m : BitVec 2) (d a : BitVec 6) (w f : BitVec 1) (s : BitVec 4)
  /-- ATOM_EXCH (R233): Atomic exchange. -/
  | atomExch (g : Guard) (d a : BitVec 6) (w f : BitVec 1) (s : BitVec 4)
  /-- CAS (R235): Atomic compare and swap. -/
  | cas (g : Guard) (d a : BitVec 6) (w f : BitVec 1) (s : BitVec 4)
  /-- ATOMSC (R236): Atomic in the package-wide .sc order, taking a Beacon ticket per lane. -/
  | atomsc (g : Guard) (m : BitVec 2) (d a : BitVec 6) (w : BitVec 1) (s : BitVec 4)
  /-- RLD (R341): Remote load from a peer named in a g register. -/
  | rld (g : Guard) (m : BitVec 2) (d a c : BitVec 6)
  /-- RST (R341): Counted remote store to a peer named in a g register. -/
  | rst (g : Guard) (m : BitVec 2) (d a c : BitVec 6)
  /-- RATOM (R341): Counted remote atomic to a peer named in a g register. -/
  | ratom (g : Guard) (m : BitVec 2) (d a c : BitVec 6)
  /-- RLDV (R342): Remote load with a per-lane peer, issued in peer groups. -/
  | rldv (g : Guard) (m : BitVec 2) (d a c : BitVec 6)
  /-- RSTV (R342): Counted remote store with a per-lane peer. -/
  | rstv (g : Guard) (m : BitVec 2) (d a c : BitVec 6)
  /-- RATOMV (R342): Counted remote atomic with a per-lane peer. -/
  | ratomv (g : Guard) (m : BitVec 2) (d a c : BitVec 6)
  /-- CLAUSE_FETCH (R75): Fetches, translates and checks a whole clause at a header address. -/
  | clauseFetch (gid e : Nat)
  /-- CLAUSE_START (R79): A clause starts once every flag its WAIT selects is clear. -/
  | clauseStart (gid e : Nat)
  /-- PAUSE_PENALTY_END (R104): A fragment's PAUSE penalty of n cycles expires. -/
  | pausePenaltyEnd (gid e : Nat)
  /-- FRAGMENT_URGENT (R103): A ready fragment's bypass count reaches 32 and it becomes urgent. -/
  | fragmentUrgent (gid e : Nat)
  /-- MEMORY_ACCESS_COMPLETE (R225): A long-latency memory operation returns, writing destinations, decrementing its flag or parking on faults. -/
  | memoryAccessComplete (op : Nat)
  /-- FDIV_FSQRT_COMPLETE (R178): An FDIV or FSQRT completes, writing its result and ORing its flags. -/
  | fdivFsqrtComplete (op : Nat)
  /-- MMAG_LATCH_COMPLETE (R264): All 32 gathered rows are in the operand latch and the product proceeds. -/
  | mmagLatchComplete (op : Nat)
  /-- MATRIX_INSTR_COMPLETE (R262): A matrix instruction completes, writing its results and ORing flags. -/
  | matrixInstrComplete (op : Nat)
  /-- GANG_END (R115): An ended gang's flags clear and its resources are released. -/
  | gangEnd (gid : Nat)
  /-- GFUSE_COMPLETE (R116): Both gangs' GFUSE conditions hold and the live lanes move. -/
  | gfuseComplete (rcv don : Nat)
  /-- LAUNCH_ELIGIBLE (R48): The dispatcher finds a queued launch's wait counters satisfied and marks it eligible. -/
  | launchEligible (l : Nat)
  /-- LAUNCH_COUNTER_RETRY (R49): The 10 µs retry of a wait-counter read that met PAGE_NOT_PRESENT expires. -/
  | launchCounterRetry (l : Nat)
  /-- WORKGROUP_PLACE (R60): The dispatcher places a workgroup or cluster, or restores a saved one, when cores have room. -/
  | workgroupPlace (w : PlaceItem) (cores : List Nat)
  /-- LANTERN_PLACE (R384): A pending Lantern gang is placed once a core has room. -/
  | lanternPlace (k core : Nat)
  /-- LAUNCH_COMPLETE (R51): A launch's last workgroup has exited; release, signals and interrupt follow. -/
  | launchComplete (l : Nat)
  /-- COMPLETION_SIGNAL_RETRY (R51): The 10 µs retry of a completion signal add that met a parking fault expires. -/
  | completionSignalRetry (l : Nat)
  /-- SIGNAL_ADD_RETRY (R158): The 10 µs retry of a SIGNAL's counter add that met a parking fault expires. -/
  | signalAddRetry (k : Nat)
  /-- WAITGE_SATISFIED (R159): A WAITGE read finds the counter at or above the target, or poisoned. -/
  | waitgeSatisfied (gid e : Nat)
  /-- COPY_CHUNK_PERFORMED (R242): A copy chunk's writes are performed and its bytes counted on the barrier. -/
  | copyChunkPerformed (c j : Nat)
  /-- COPY_CHUNK_FAULT (R249): A copy chunk meets a fault; the copy parks or is abandoned and ERR is set. -/
  | copyChunkFault (c j : Nat)
  /-- GLD_STALL_TIMEOUT (R238): Stale GLD lanes remain after TMO and take STALE_HALO. -/
  | gldStallTimeout (gid e : Nat)
  /-- GWAIT_STALL_TIMEOUT (R282): A stalled GWAIT reaches TMO and takes STALE_HALO. -/
  | gwaitStallTimeout (gid e : Nat)
  /-- STEP_COMMIT (R275): P arrivals for a step are counted and the step is committed, starting a round at multiples of D. -/
  | stepCommit (b : Nat)
  /-- FACE_STRIP_READ (R279): An outbound face's interior strip has been read. -/
  | faceStripRead (b k : Nat)
  /-- FACE_SEND_DONE (R279): An outbound face's writes are performed and its close delivered. -/
  | faceSendDone (b k : Nat)
  /-- GHOST_REGION_FILLED (R277): A ghost region is fully written and its step tag is raised. -/
  | ghostRegionFilled (b k reg : Nat)
  /-- PENUMBRA_EXCHANGE (R393): A Penumbra control message finds the receiving binding and compares digests. -/
  | penumbraExchange (x : ExchangeMsg)
  /-- PENUMBRA_FAULT_RETRY (R284): The 10 µs retry of an engine access that met a parking fault expires. -/
  | penumbraFaultRetry (b k : Nat)
  /-- BINDING_ENDED (R273): An ending binding's started sends complete and it ends. -/
  | bindingEnded (b : Nat)
  /-- EXECUTOR_RUN_START (R289): A free executor context takes a pending run after the PCH release. -/
  | executorRunStart (r : Nat)
  /-- EXECUTOR_CLAUSE_FETCH (R287): An executor context fetches and checks a clause through its window snapshot. -/
  | executorClauseFetch (r : Nat)
  /-- EXECUTOR_REFRESH_RETRY (R293): An executor's refresh wait hint expires and it reissues the access. -/
  | executorRefreshRetry (r : Nat)
  /-- EXECUTOR_RELEASE_ACKED (R294): All back-invalidation acknowledgements of an executor release arrive and the releasing write is performed. -/
  | executorReleaseAcked (r : Nat)
  /-- BANK_REFRESH (R203): The base die refreshes a bank by itself. -/
  | bankRefresh (bank dur : Nat)
  /-- REFRESH_RETRY_REISSUE (R203): A requester's refresh wait hint expires and it reissues the request. -/
  | refreshRetryReissue (op : Nat)
  /-- TRANSLATION_REQUEST (R207): A translation home walks the page table or refuses an expired lease. -/
  | translationRequest (who : Asker) (ia : Nat) (kind : AccKind) (expiry : Option Nat)
  /-- CTX_CREATE (R39): CTXCMD CREATE brings a context into existence. -/
  | ctxCreate (priv : BitVec 1) (ctx ten : BitVec 10) (rsv : BitVec 40)
  /-- CTX_DESTROY (R39): CTXCMD DESTROY tears down a context. -/
  | ctxDestroy (priv : BitVec 1) (ctx ten : BitVec 10) (rsv : BitVec 40)
  /-- TENCORE_WRITE (R40): A write to TENCOREj is checked and accepted or refused. -/
  | tencoreWrite (ten : Nat) (j : BitVec 3) (v : BitVec 64)
  /-- TENCFG_WRITE (R40): A write to TENCFG STRICT is checked and accepted or refused. -/
  | tencfgWrite (ten : Nat) (v : BitVec 32)
  /-- REGISTER_WRITE (R5): A write to a register with no row of its own. -/
  | registerWrite (r : PfReg) (v : BitVec 192)
  /-- FQCTL_WRITE (R365): A write to FQCTL enables, arms or clears the fault queue. -/
  | fqctlWrite (ctx : Nat) (v : BitVec 32)
  /-- FQHEAD_WRITE (R366): A write to FQHEAD frees room and writes pending records. -/
  | fqheadWrite (ctx : Nat) (v : BitVec 32)
  /-- PROFCTL_COMMIT (R202): Commits the staged hash masks into a profile or refuses. -/
  | profctlCommit (grp : Nat) (prof : BitVec 3)
  /-- UNMAP (R214): TRCMD UNMAP invalidates a leaf, waits leases and invalidates lines. -/
  | unmapPage (slot : BitVec 4) (w : BitVec 60)
  /-- UPDATE (R214): TRCMD UPDATE writes a new leaf entry. -/
  | updatePage (slot : BitVec 4) (w : BitVec 60)
  /-- MIGRATE (R216): TRCMD MIGRATE blocks a page and begins moving it. -/
  | migratePage (slot : BitVec 4) (w : BitVec 60)
  /-- SPLIT (R214): TRCMD SPLIT replaces a large leaf by a table. -/
  | splitPage (slot : BitVec 4) (w : BitVec 60)
  /-- COLLAPSE (R219): TRCMD COLLAPSE checks the mirror leaf and messages the twin. -/
  | collapsePage (slot : BitVec 4) (w : BitVec 60)
  /-- SCRUB (R215): TRCMD SCRUB starts zeroing a frame. -/
  | scrubFrame (slot : BitVec 4) (w : BitVec 60)
  /-- LEASE_WAIT_END (R211): Package time passes a command's latest lease expiry plus 2 ns. -/
  | leaseWaitEnd (slot : BitVec 4)
  /-- MIGRATE_COPY_DONE (R216): A migration's copy ends; the entry switches and queued requests replay. -/
  | migrateCopyDone (slot : BitVec 4)
  /-- SCRUB_DONE (R215): A scrub finishes zeroing its frame. -/
  | scrubDone (slot : BitVec 4)
  /-- COLLAPSE_REQUEST_RECEIVE (R219): The twin receives a COLLAPSE control message and rewrites its leaf as remote. -/
  | collapseRequestReceive (m : CollapseMsg)
  /-- COLLAPSE_REPLY_RECEIVE (R219): The owning agent receives the twin's reply and finishes the collapse. -/
  | collapseReplyReceive (slot : BitVec 4) (r : CollapseAck)
  /-- COLLAPSE_TIMEOUT (R219): No twin reply within the requester timeout; the command is refused. -/
  | collapseTimeout (slot : BitVec 4)
  /-- OPEN_SEND (R334): STRCMD opens a send entry. -/
  | openSend (c : StreamCmd)
  /-- OPEN_RECEIVE (R334): STRCMD opens an arrival entry. -/
  | openReceive (c : StreamCmd)
  /-- CLOSE_SEND (R334): STRCMD frees a send entry at once. -/
  | closeSend (c : StreamCmd)
  /-- CLOSE_RECEIVE (R334): STRCMD closes an arrival entry after its withheld flags resolve. -/
  | closeReceive (c : StreamCmd)
  /-- LGCMD_START (R384): LGCMD GO reads a header and starts a Lantern gang or refuses. -/
  | lgcmdStart (ctx : BitVec 10) (b50 : BitVec 1) (hdr : BitVec 50)
  /-- DIE_TAKE_OUT (R385): DIESVC takes a die out of service as a die loss. -/
  | dieTakeOut (sock : BitVec 5)
  /-- DIE_RETURN (R385): DIESVC resets a die and returns it to service. -/
  | dieReturn (sock : BitVec 5)
  /-- GET_CAP (R391): Basermyo returns DEVCAP. -/
  | getCap
  /-- GET_SENSORS (R391): Basermyo returns sensor, island and power readings. -/
  | getSensors
  /-- SET_CAP (R390): Basermyo sets the package power cap. -/
  | setCap (watts : Nat)
  /-- GET_ERRORS (R391): Basermyo returns error and link counters. -/
  | getErrors
  /-- DIE_SERVICE (R391): Basermyo performs a DIESVC operation. -/
  | dieService (op : BitVec 1) (sock : BitVec 5)
  /-- FW_UPDATE (R391): Basermyo writes the idle firmware slot. -/
  | fwUpdate (image : FwImage)
  /-- BASERMYO_UNKNOWN_COMMAND (R391): An unassigned or virtual-function Basermyo command is answered with an error. -/
  | basermyoUnknownCommand (fn : Nat) (code : BitVec 8)
  /-- COLD_RESET (R387): Package cold reset runs the boot ROM and brings up the device. -/
  | coldReset
  /-- SPDM_REQUEST (R388): An SPDM 1.3 request is answered with signed measurements. -/
  | spdmRequest (port nonce : Nat)
  /-- LINK_REKEY (R330): A link rekey loads the new key into the idle bank. -/
  | linkRekey (port key : Nat)
  /-- OLD_KEY_ERASE (R330): 4,096 flits under the new key arrive and the old bank is erased. -/
  | oldKeyErase (port : Nat)
  /-- IBCEL_LINK_TRAIN (R331): An Ibcel port trains and negotiates its version. -/
  | ibcelLinkTrain (port : Nat) (versions : List (BitVec 16))
  /-- HOST_LINK_TRAIN (R348): A host or pool port trains and negotiates its protocol. -/
  | hostLinkTrain (port : Nat) (offer : LinkOffer)
  /-- PLANE_FAILURE (R326): A link fails and its plane leaves the live-plane set. -/
  | planeFailure (plane : Nat)
  /-- FLIT_CHECK_FAILURE (R329): A flit fails its CRC or tag and is dropped for replay. -/
  | flitCheckFailure (port : Nat)
  /-- LNK (R329): A link-layer flit acknowledges or requests replay. -/
  | lnkFlit (port : Nat) (m : LnkMsg)
  /-- FLIT_BAD_TYPE (R328): A flit of unknown type is dropped and counted. -/
  | flitBadType (port : Nat) (f : Flit)
  /-- WR (R335): A counted write flit arrives at an arrival entry. -/
  | wrFlit (port : Nat) (f : Flit)
  /-- GWR (R394): A grid strip write flit arrives. -/
  | gwrFlit (port : Nat) (f : Flit)
  /-- WRITE_COUNTED (R335): A counted write is performed or discarded and added to its batch slot. -/
  | writeCounted (k : Nat)
  /-- RD (R333): A remote read request arrives and is translated and served. -/
  | rdFlit (port : Nat) (f : Flit)
  /-- RDR (R341): A read response arrives and writes the lane. -/
  | rdrFlit (port : Nat) (f : Flit)
  /-- ATOM (R341): A remote atomic flit arrives and is performed and counted. -/
  | atomFlit (port : Nat) (f : Flit)
  /-- ATOMR (R341): An atomic response arrives and writes the old value. -/
  | atomrFlit (port : Nat) (f : Flit)
  /-- REL (R337): A release flag flit arrives and is held or applied. -/
  | relFlit (port : Nat) (f : Flit)
  /-- GREL (R394): A grid strip close or notice arrives and is held or applied to face state. -/
  | grelFlit (port : Nat) (f : Flit)
  /-- NTC (R339): A notice arrives at the sender; the pair becomes REFUSED. -/
  | ntcFlit (port : Nat) (f : Flit)
  /-- RSRESET_REQUEST (R163): A peer receives an RSRESET control message and resets its arrival entry. -/
  | rsresetRequest (port : Nat) (f : Flit)
  /-- CTLA (R328): A control acknowledgement arrives and completes its control exchange. -/
  | ctlaFlit (port : Nat) (f : Flit)
  /-- FLAG_TIMEOUT (R338): A withheld flag reaches FTMO and is poisoned. -/
  | flagTimeout (key slot : Nat)
  /-- REMOTE_REQUEST_TIMEOUT (R345): A remote load or atomic has no response within RTMO. -/
  | remoteRequestTimeout (tag : Nat)
  /-- RSRESET_TIMEOUT (R163): An RSRESET gets no reply within the requester timeout. -/
  | rsresetTimeout (gid e : Nat)
  /-- HOST_READ (R350): A host read arrives through an HDM window. -/
  | hostRead (port hpa len : Nat)
  /-- HOST_WRITE (R350): A host write arrives through an HDM window. -/
  | hostWrite (port hpa : Nat) (data : List (BitVec 8))
  /-- BIRSP (R351): A host back-invalidation response arrives and the half's host bit clears. -/
  | birsp (half : Nat) (dirty : Option (List (BitVec 8)))
  /-- EXTERNAL_SNOOP (R354): A host or pool snoop for a 64-byte half arrives. -/
  | externalSnoop (half : Nat) (kind : SnoopKind)
  /-- CXL_FILL_RESPONSE (R352): A CXL response fills a host or pool half. -/
  | cxlFillResponse (req : Nat) (data : List (BitVec 8)) (psn : Bool)
  /-- CXL_REQUEST_TIMEOUT (R357): A CXL request is unanswered after 10 ms. -/
  | cxlRequestTimeout (req : Nat)
  /-- POOL_PORT_FAILURE (R357): A pool port's link fails and its lines move to the next port. -/
  | poolPortFailure (port : Nat)
  /-- THERMAL_THROTTLE_STEP (R390): Every 10 µs above 95 °C a die's islands step down 25 MHz. -/
  | thermalThrottleStep (die : Nat)
  /-- THERMAL_TRIP (R390): A die reaches 105 °C or a supply fault and is taken out of service. -/
  | thermalTrip (sock : Nat)
  /-- DIE_LOSS (R377): A die is lost and every context that touched it becomes lost. -/
  | dieLoss (sock : Nat)
  /-- PREEMPT_SAVE (R370): The drain bound expires after a cut; remaining workgroups are saved and runs aborted. -/
  | preemptSave (ctx : Nat)
  /-- CTXSAVE_DONE (R370): Every workgroup is discarded, exited or saved and CTXSAVE writes status 0. -/
  | ctxsaveDone (ctx : Nat)
  /-- RSRESET_HOLDOFF_END (R339): The 500 µs since the previous reset of a pair passes, letting a pending RSRESET complete. -/
  | rsresetHoldoffEnd (gid e : Nat)
  /-- POWER_CAP_ENFORCE (R390): When package power exceeds the set cap, the device lowers island frequencies evenly within 1 ms. -/
  | powerCapEnforce
  deriving DecidableEq, Repr

end Sys2Proof
end

