-- ==== Sys2Proof/Machine/Legal.lean ====
section
/-! DEFINITION. Legality of a word, as the spec's encoding checks give it (R83, R84, R88, R90 and each entry): which
lane registers, tiles and accumulators it names, and the conditions on its own fields that need no state. -/
namespace Sys2Proof.Machine

/-- The scope codes of R88. -/
def scopeOk (s : BitVec 4) : Bool := s.toNat ≤ 5 || (8 ≤ s.toNat && s.toNat ≤ 10)
/-- R233: a memory-side scope needs the far form. -/
def atomScopeOk (f : BitVec 1) (s : BitVec 4) : Bool := scopeOk s && (s.toNat < 8 || f == 1)
/-- GREDUCE's types (R155): i32 2, i64 3, n32 6, n64 7, f32 10, f64 11; no `.or` on floats. -/
def redLegal (o : BitVec 2) (t : BitVec 4) : Bool :=
  (t == 2 || t == 3 || t == 6 || t == 7) || ((t == 10 || t == 11) && o != 3)
/-- GREDUCE's 64-bit types (R155). -/
def redWide (t : BitVec 4) : Bool := t == 3 || t == 7 || t == 11
/-- The conversion codes whose source is 64 bits (R184). -/
def cvtWideSrc (b : Nat) : Bool :=
  if b < 16 then b % 4 == 0 else if b < 32 then b / 4 % 4 == 0 else if b < 48 then 2 ≤ b % 4
  else b == 0x38 || b == 0x39
/-- The conversion codes whose destination is 64 bits (R184). -/
def cvtWideDst (b : Nat) : Bool :=
  if b < 16 then b / 4 == 0 else if b < 32 then 2 ≤ b % 4 else if b < 48 then b / 4 % 4 == 0
  else b == 0x3a || b == 0x3b
/-- The exact codes of R184. bf16 to f16 (0x0b) is none of them, f16 being no wider than bf16: the model's reading (log 55). -/
def cvtExact (b : Nat) : Bool :=
  if b < 16 then b == 0x01 || b == 0x02 || b == 0x03 || b == 0x06 || b == 0x07
  else if b < 32 then false else if b < 48 then b == 0x20 || b == 0x21
  else !(b == 0x32 || b == 0x33 || b == 0x36 || b == 0x37)
/-- Whether an exact code's source is f32 or f16, so that M = 1 is `.ftz` (R184). -/
def cvtFtzSrc (b : Nat) : Bool := b < 16 && (b % 4 == 1 || b % 4 == 2)
/-- R184: M on a conversion code. -/
def cvtLegal (b : Nat) (m : BitVec 2) : Bool := !cvtExact b || m == 0 || (m == 1 && cvtFtzSrc b)
/-- R83: G = 7 with GN = 1 is illegal. -/
def guardOk (g : Guard) : Bool := !(g.p == 7 && g.n == 1)

/-- The lane register operands of a word: (first register, how many it spans, alignment) (R84, R166, R221). -/
def vops : Instr → List (Nat × Nat × Nat)
  | .gfromv _ t _ a _ => [(a.toNat, (if t = 2 then 2 else 1), (if t = 2 then 2 else 1))]
  | .greduce _ _ _ a t => [(a.toNat, (if redWide t then 2 else 1), (if redWide t then 2 else 1))]
  | .iadd _ _ d a b => [(d.toNat, 1, 1), (a.toNat, 1, 1), (b.toNat, 1, 1)]
  | .isub _ _ d a b => [(d.toNat, 1, 1), (a.toNat, 1, 1), (b.toNat, 1, 1)]
  | .imul _ d a b => [(d.toNat, 1, 1), (a.toNat, 1, 1), (b.toNat, 1, 1)]
  | .imulh _ _ d a b => [(d.toNat, 1, 1), (a.toNat, 1, 1), (b.toNat, 1, 1)]
  | .imad _ m d a b => [(d.toNat, (if m ≠ 0 then 2 else 1), (if m ≠ 0 then 2 else 1)), (a.toNat, 1, 1), (b.toNat, 1, 1)]
  | .imin _ m d a b => [(d.toNat, (if 2 ≤ m.toNat then 2 else 1), (if 2 ≤ m.toNat then 2 else 1)), (a.toNat, (if 2 ≤ m.toNat then 2 else 1), (if 2 ≤ m.toNat then 2 else 1)), (b.toNat, (if 2 ≤ m.toNat then 2 else 1), (if 2 ≤ m.toNat then 2 else 1))]
  | .imax _ m d a b => [(d.toNat, (if 2 ≤ m.toNat then 2 else 1), (if 2 ≤ m.toNat then 2 else 1)), (a.toNat, (if 2 ≤ m.toNat then 2 else 1), (if 2 ≤ m.toNat then 2 else 1)), (b.toNat, (if 2 ≤ m.toNat then 2 else 1), (if 2 ≤ m.toNat then 2 else 1))]
  | .iabs _ m d a => [(d.toNat, (if 2 ≤ m.toNat then 2 else 1), (if 2 ≤ m.toNat then 2 else 1)), (a.toNat, (if 2 ≤ m.toNat then 2 else 1), (if 2 ≤ m.toNat then 2 else 1))]
  | .andL _ w d a b => [(d.toNat, (if w = 1 then 2 else 1), (if w = 1 then 2 else 1)), (a.toNat, (if w = 1 then 2 else 1), (if w = 1 then 2 else 1)), (b.toNat, (if w = 1 then 2 else 1), (if w = 1 then 2 else 1))]
  | .orL _ w d a b => [(d.toNat, (if w = 1 then 2 else 1), (if w = 1 then 2 else 1)), (a.toNat, (if w = 1 then 2 else 1), (if w = 1 then 2 else 1)), (b.toNat, (if w = 1 then 2 else 1), (if w = 1 then 2 else 1))]
  | .xorL _ w d a b => [(d.toNat, (if w = 1 then 2 else 1), (if w = 1 then 2 else 1)), (a.toNat, (if w = 1 then 2 else 1), (if w = 1 then 2 else 1)), (b.toNat, (if w = 1 then 2 else 1), (if w = 1 then 2 else 1))]
  | .notL _ w d a => [(d.toNat, (if w = 1 then 2 else 1), (if w = 1 then 2 else 1)), (a.toNat, (if w = 1 then 2 else 1), (if w = 1 then 2 else 1))]
  | .shl _ w d a b => [(d.toNat, (if w = 1 then 2 else 1), (if w = 1 then 2 else 1)), (a.toNat, (if w = 1 then 2 else 1), (if w = 1 then 2 else 1)), (b.toNat, 1, 1)]
  | .shr _ w d a b => [(d.toNat, (if w = 1 then 2 else 1), (if w = 1 then 2 else 1)), (a.toNat, (if w = 1 then 2 else 1), (if w = 1 then 2 else 1)), (b.toNat, 1, 1)]
  | .sar _ w d a b => [(d.toNat, (if w = 1 then 2 else 1), (if w = 1 then 2 else 1)), (a.toNat, (if w = 1 then 2 else 1), (if w = 1 then 2 else 1)), (b.toNat, 1, 1)]
  | .mov _ w d a => [(d.toNat, (if w = 1 then 2 else 1), (if w = 1 then 2 else 1)), (a.toNat, (if w = 1 then 2 else 1), (if w = 1 then 2 else 1))]
  | .bfe _ _ d a b => [(d.toNat, 1, 1), (a.toNat, 1, 1), (b.toNat, 1, 1)]
  | .bfi _ d a b => [(d.toNat, 1, 1), (a.toNat, 1, 1), (b.toNat, 1, 1)]
  | .popc _ w d a => [(d.toNat, 1, 1), (a.toNat, (if w = 1 then 2 else 1), (if w = 1 then 2 else 1))]
  | .clz _ w d a => [(d.toNat, 1, 1), (a.toNat, (if w = 1 then 2 else 1), (if w = 1 then 2 else 1))]
  | .brev _ w d a => [(d.toNat, (if w = 1 then 2 else 1), (if w = 1 then 2 else 1)), (a.toNat, (if w = 1 then 2 else 1), (if w = 1 then 2 else 1))]
  | .sel _ _ w d a b => [(d.toNat, (if w = 1 then 2 else 1), (if w = 1 then 2 else 1)), (a.toNat, (if w = 1 then 2 else 1), (if w = 1 then 2 else 1)), (b.toNat, (if w = 1 then 2 else 1), (if w = 1 then 2 else 1))]
  | .isetp _ t _ _ a b => [(a.toNat, (if 2 ≤ t.toNat then 2 else 1), (if 2 ≤ t.toNat then 2 else 1)), (b.toNat, (if 2 ≤ t.toNat then 2 else 1), (if 2 ≤ t.toNat then 2 else 1))]
  | .iadd64 _ _ d a b => [(d.toNat, 2, 2), (a.toNat, 2, 2), (b.toNat, 2, 2)]
  | .isub64 _ _ d a b => [(d.toNat, 2, 2), (a.toNat, 2, 2), (b.toNat, 2, 2)]
  | .iaddi _ d _ => [(d.toNat, 1, 1)]
  | .imuli _ d _ => [(d.toNat, 1, 1)]
  | .andi _ d _ => [(d.toNat, 1, 1)]
  | .ori _ d _ => [(d.toNat, 1, 1)]
  | .xori _ d _ => [(d.toNat, 1, 1)]
  | .shli _ d _ => [(d.toNat, 1, 1)]
  | .shri _ d _ => [(d.toNat, 1, 1)]
  | .sari _ d _ => [(d.toNat, 1, 1)]
  | .movi d _ => [(d.toNat, 1, 1)]
  | .movhi d _ => [(d.toNat, 1, 1)]
  | .pmovTov _ d => [(d.toNat, 1, 1)]
  | .pmovFromv _ a => [(a.toNat, 1, 1)]
  | .faddF32 _ _ d a b => [(d.toNat, 1, 1), (a.toNat, 1, 1), (b.toNat, 1, 1)]
  | .fsubF32 _ _ d a b => [(d.toNat, 1, 1), (a.toNat, 1, 1), (b.toNat, 1, 1)]
  | .fmulF32 _ _ d a b => [(d.toNat, 1, 1), (a.toNat, 1, 1), (b.toNat, 1, 1)]
  | .ffmaF32 _ _ d a b => [(d.toNat, 1, 1), (a.toNat, 1, 1), (b.toNat, 1, 1)]
  | .fminF32 _ _ d a b => [(d.toNat, 1, 1), (a.toNat, 1, 1), (b.toNat, 1, 1)]
  | .fmaxF32 _ _ d a b => [(d.toNat, 1, 1), (a.toNat, 1, 1), (b.toNat, 1, 1)]
  | .fdivF32 _ _ d a b => [(d.toNat, 1, 1), (a.toNat, 1, 1), (b.toNat, 1, 1)]
  | .fsqrtF32 _ _ d a _ => [(d.toNat, 1, 1), (a.toNat, 1, 1)]
  | .frcpaF32 _ _ d a => [(d.toNat, 1, 1), (a.toNat, 1, 1)]
  | .frsqaF32 _ _ d a => [(d.toNat, 1, 1), (a.toNat, 1, 1)]
  | .fsetpF32 _ _ _ _ a b => [(a.toNat, 1, 1), (b.toNat, 1, 1)]
  | .fclassF32 _ _ d a => [(d.toNat, 1, 1), (a.toNat, 1, 1)]
  | .faddF64 _ _ d a b => [(d.toNat, 2, 2), (a.toNat, 2, 2), (b.toNat, 2, 2)]
  | .fsubF64 _ _ d a b => [(d.toNat, 2, 2), (a.toNat, 2, 2), (b.toNat, 2, 2)]
  | .fmulF64 _ _ d a b => [(d.toNat, 2, 2), (a.toNat, 2, 2), (b.toNat, 2, 2)]
  | .ffmaF64 _ _ d a b => [(d.toNat, 2, 2), (a.toNat, 2, 2), (b.toNat, 2, 2)]
  | .fminF64 _ d a b => [(d.toNat, 2, 2), (a.toNat, 2, 2), (b.toNat, 2, 2)]
  | .fmaxF64 _ d a b => [(d.toNat, 2, 2), (a.toNat, 2, 2), (b.toNat, 2, 2)]
  | .fdivF64 _ _ d a b => [(d.toNat, 2, 2), (a.toNat, 2, 2), (b.toNat, 2, 2)]
  | .fsqrtF64 _ _ d a => [(d.toNat, 2, 2), (a.toNat, 2, 2)]
  | .frcpaF64 _ d a => [(d.toNat, 2, 2), (a.toNat, 2, 2)]
  | .frsqaF64 _ d a => [(d.toNat, 2, 2), (a.toNat, 2, 2)]
  | .fsetpF64 _ _ _ a b => [(a.toNat, 2, 2), (b.toNat, 2, 2)]
  | .fclassF64 _ d a => [(d.toNat, 1, 1), (a.toNat, 2, 2)]
  | .cvt _ _ d a b => [(d.toNat, (if cvtWideDst b.toNat then 2 else 1), (if cvtWideDst b.toNat then 2 else 1)), (a.toNat, (if cvtWideSrc b.toNat then 2 else 1), (if cvtWideSrc b.toNat then 2 else 1))]
  | .cvtblk _ _ d a _ => [(d.toNat, 1, 1), (a.toNat, 1, 1)]
  | .cvtblkX _ _ d a _ => [(d.toNat, 1, 1), (a.toNat, 1, 1)]
  | .cvtsat _ _ d a b => [(d.toNat, (if cvtWideDst b.toNat then 2 else 1), (if cvtWideDst b.toNat then 2 else 1)), (a.toNat, (if cvtWideSrc b.toNat then 2 else 1), (if cvtWideSrc b.toNat then 2 else 1))]
  | .faddF16x2 _ _ d a b => [(d.toNat, 1, 1), (a.toNat, 1, 1), (b.toNat, 1, 1)]
  | .fmulF16x2 _ _ d a b => [(d.toNat, 1, 1), (a.toNat, 1, 1), (b.toNat, 1, 1)]
  | .ffmaF16x2 _ _ d a b => [(d.toNat, 1, 1), (a.toNat, 1, 1), (b.toNat, 1, 1)]
  | .fminF16x2 _ _ d a b => [(d.toNat, 1, 1), (a.toNat, 1, 1), (b.toNat, 1, 1)]
  | .fmaxF16x2 _ _ d a b => [(d.toNat, 1, 1), (a.toNat, 1, 1), (b.toNat, 1, 1)]
  | .fsetpF16x2 _ _ _ _ a b => [(a.toNat, 1, 1), (b.toNat, 1, 1)]
  | .faddBf16x2 _ _ d a b => [(d.toNat, 1, 1), (a.toNat, 1, 1), (b.toNat, 1, 1)]
  | .fmulBf16x2 _ _ d a b => [(d.toNat, 1, 1), (a.toNat, 1, 1), (b.toNat, 1, 1)]
  | .ffmaBf16x2 _ _ d a b => [(d.toNat, 1, 1), (a.toNat, 1, 1), (b.toNat, 1, 1)]
  | .fminBf16x2 _ d a b => [(d.toNat, 1, 1), (a.toNat, 1, 1), (b.toNat, 1, 1)]
  | .fmaxBf16x2 _ d a b => [(d.toNat, 1, 1), (a.toNat, 1, 1), (b.toNat, 1, 1)]
  | .fsetpBf16x2 _ _ _ _ a b => [(a.toNat, 1, 1), (b.toNat, 1, 1)]
  | .shfl _ _ d a b => [(d.toNat, 1, 1), (a.toNat, 1, 1), (b.toNat, 1, 1)]
  | .vfromg _ m d _ => [(d.toNat, (if m = 2 then 2 else 1), (if m = 2 then 2 else 1))]
  | .lsr _ d s => [(d.toNat, (if s = 2 then 2 else 1), (if s = 2 then 2 else 1))]
  | .ldg _ m d a _ => [(d.toNat, (2 ^ m.toNat), (2 ^ m.toNat)), (a.toNat, 2, 2)]
  | .ldgh _ _ d a _ => [(d.toNat, 1, 1), (a.toNat, 2, 2)]
  | .ldgb _ _ d a _ => [(d.toNat, 1, 1), (a.toNat, 2, 2)]
  | .stg _ m d a _ => [(d.toNat, (2 ^ m.toNat), (2 ^ m.toNat)), (a.toNat, 2, 2)]
  | .stgh _ d a _ => [(d.toNat, 1, 1), (a.toNat, 2, 2)]
  | .stgb _ d a _ => [(d.toNat, 1, 1), (a.toNat, 2, 2)]
  | .lda _ w d a _ => [(d.toNat, (if w = 1 then 2 else 1), (if w = 1 then 2 else 1)), (a.toNat, 2, 2)]
  | .stl _ w d a _ => [(d.toNat, (if w = 1 then 2 else 1), (if w = 1 then 2 else 1)), (a.toNat, 2, 2)]
  | .lds _ m d a _ => [(d.toNat, (2 ^ m.toNat), (2 ^ m.toNat)), (a.toNat, 1, 1)]
  | .ldsh _ _ d a _ => [(d.toNat, 1, 1), (a.toNat, 1, 1)]
  | .ldsb _ _ d a _ => [(d.toNat, 1, 1), (a.toNat, 1, 1)]
  | .sts _ m d a _ => [(d.toNat, (2 ^ m.toNat), (2 ^ m.toNat)), (a.toNat, 1, 1)]
  | .stsh _ d a _ => [(d.toNat, 1, 1), (a.toNat, 1, 1)]
  | .stsb _ d a _ => [(d.toNat, 1, 1), (a.toNat, 1, 1)]
  | .gld _ m d a _ => [(d.toNat, (if m = 2 then 2 else 1), (if m = 2 then 2 else 1)), (a.toNat, 2, 2)]
  | .cctl _ a c => [((if c.toNat = 2 ∨ 8 ≤ c.toNat then 0 else a.toNat), (if c.toNat = 2 ∨ 8 ≤ c.toNat then 0 else 2), 2)]
  | .atomAdd _ _ d a w _ _ => [(d.toNat, (if w = 1 then 2 else 1), (if w = 1 then 2 else 1)), (a.toNat, 2, 2)]
  | .atomFadd _ _ _ d a w _ _ => [(d.toNat, (if w = 1 then 2 else 1), (if w = 1 then 2 else 1)), (a.toNat, 2, 2)]
  | .atomMin _ _ _ d a w _ _ => [(d.toNat, (if w = 1 then 2 else 1), (if w = 1 then 2 else 1)), (a.toNat, 2, 2)]
  | .atomMax _ _ _ d a w _ _ => [(d.toNat, (if w = 1 then 2 else 1), (if w = 1 then 2 else 1)), (a.toNat, 2, 2)]
  | .atomBit _ _ d a w _ _ => [(d.toNat, (if w = 1 then 2 else 1), (if w = 1 then 2 else 1)), (a.toNat, 2, 2)]
  | .atomExch _ d a w _ _ => [(d.toNat, (if w = 1 then 2 else 1), (if w = 1 then 2 else 1)), (a.toNat, 2, 2)]
  | .cas _ d a w _ _ => [(d.toNat, (if w = 1 then 4 else 2), (if w = 1 then 2 else 1)), (a.toNat, 2, 2)]
  | .atomsc _ m d a w _ => [(d.toNat, (if m = 2 then (if w = 1 then 4 else 2) else if w = 1 then 2 else 1), (if w = 1 then 2 else 1)), (a.toNat, 2, 2)]
  | .rld _ m d a _ => [(d.toNat, (2 ^ m.toNat), (2 ^ m.toNat)), (a.toNat, 2, 2)]
  | .rst _ m d a _ => [(d.toNat, (2 ^ m.toNat), (2 ^ m.toNat)), (a.toNat, 2, 2)]
  | .ratom _ m d a _ => [(d.toNat, (if m = 3 then 4 else 2), 2), (a.toNat, 2, 2)]
  | .rldv _ m d a c => [(d.toNat, (2 ^ m.toNat), (2 ^ m.toNat)), (a.toNat, 2, 2), (c.toNat, 1, 1)]
  | .rstv _ m d a c => [(d.toNat, (2 ^ m.toNat), (2 ^ m.toNat)), (a.toNat, 2, 2), (c.toNat, 1, 1)]
  | .ratomv _ m d a c => [(d.toNat, (if m = 3 then 4 else 2), 2), (a.toNat, 2, 2), (c.toNat, 1, 1)]
  | _ => []

/-- The tiles a word names (R84). -/
def tops : Instr → List Nat
  | .mma _ _ _ _ a b => [a.toNat, b.toNat]
  | .mmag _ _ _ _ b _ => [b.toNat]
  | .mldt _ _ _ t _ => [t.toNat]
  | .mstt _ _ _ t _ => [t.toNat]
  | .mrdaTile _ _ _ _ t => if t = 0 then [] else [t.toNat]
  | _ => []

/-- The accumulators a word names (R84). -/
def aops : Instr → List Nat
  | .mma _ _ _ k _ _ => [k.toNat]
  | .mmag _ _ _ k _ _ => [k.toNat]
  | .mza _ k => [k.toNat]
  | .mrdaTile _ _ _ k _ => [k.toNat]
  | .mrdaScratch _ _ _ k _ => [k.toNat]
  | _ => []

/-- The guard of a word that carries one. -/
def guardOf : Instr → Guard
  | .brx g _ => g
  | .retG g _ => g
  | .exitG g => g
  | .trapG g _ => g
  | .joinG g => g
  | .regang g => g
  | .gfuseRcv g _ _ _ => g
  | .gfuseDon g _ _ _ => g
  | .yieldG g _ _ _ => g
  | .gadd g _ _ _ => g
  | .gsub g _ _ _ => g
  | .gmul g _ _ _ => g
  | .gmulh g _ _ _ _ => g
  | .gmin g _ _ _ _ => g
  | .gmax g _ _ _ _ => g
  | .gmov g _ _ => g
  | .gand g _ _ _ => g
  | .gor g _ _ _ => g
  | .gxor g _ _ _ => g
  | .gshl g _ _ _ => g
  | .gshr g _ _ _ => g
  | .gsar g _ _ _ => g
  | .gaddi g _ _ => g
  | .gandi g _ _ => g
  | .gori g _ _ => g
  | .gxori g _ _ => g
  | .gshli g _ _ => g
  | .gshri g _ _ => g
  | .gsari g _ _ => g
  | .gcmp g _ _ _ _ _ => g
  | .qlop g _ _ _ _ => g
  | .gsr g _ _ => g
  | .gsw g _ _ => g
  | .gfromv g _ _ _ _ => g
  | .greduce g _ _ _ _ => g
  | .gldk g _ _ _ _ => g
  | .gstk g _ _ _ _ => g
  | .tcopy g _ _ _ => g
  | .tcopyg g _ _ _ => g
  | .barinit g _ _ => g
  | .barexp g _ _ => g
  | .barexpArv g _ _ => g
  | .bararv g _ _ => g
  | .barwait g _ _ => g
  | .bartry g _ _ _ => g
  | .mma g _ _ _ _ _ => g
  | .mmag g _ _ _ _ _ => g
  | .mldt g _ _ _ _ => g
  | .mstt g _ _ _ _ => g
  | .mza g _ => g
  | .mrdaTile g _ _ _ _ => g
  | .mrdaScratch g _ _ _ _ => g
  | .gbind g _ => g
  | .gbindN g _ _ => g
  | .gbindUn g => g
  | .gstep g _ => g
  | .gwait g _ _ => g
  | .gwaitTry g _ _ _ => g
  | .bxrun g _ _ _ _ => g
  | .bxwait g _ _ => g
  | .bxwaitTry g _ _ _ => g
  | .rrel g _ _ _ => g
  | .rfence g => g
  | .rfenceCnt g _ _ => g
  | .launchG g _ _ => g
  | .signalG g _ _ _ => g
  | .waitge g _ _ _ => g
  | .fenceG g _ _ => g
  | .fresolve g _ _ _ => g
  | .rsreset g _ _ _ => g
  | .ctxsave g _ _ _ => g
  | .ctxload g _ _ _ => g
  | .iadd g _ _ _ _ => g
  | .isub g _ _ _ _ => g
  | .imul g _ _ _ => g
  | .imulh g _ _ _ _ => g
  | .imad g _ _ _ _ => g
  | .imin g _ _ _ _ => g
  | .imax g _ _ _ _ => g
  | .iabs g _ _ _ => g
  | .andL g _ _ _ _ => g
  | .orL g _ _ _ _ => g
  | .xorL g _ _ _ _ => g
  | .notL g _ _ _ => g
  | .shl g _ _ _ _ => g
  | .shr g _ _ _ _ => g
  | .sar g _ _ _ _ => g
  | .mov g _ _ _ => g
  | .bfe g _ _ _ _ => g
  | .bfi g _ _ _ => g
  | .popc g _ _ _ => g
  | .clz g _ _ _ => g
  | .brev g _ _ _ => g
  | .isetp g _ _ _ _ _ => g
  | .iadd64 g _ _ _ _ => g
  | .isub64 g _ _ _ _ => g
  | .iaddi g _ _ => g
  | .imuli g _ _ => g
  | .andi g _ _ => g
  | .ori g _ _ => g
  | .xori g _ _ => g
  | .shli g _ _ => g
  | .shri g _ _ => g
  | .sari g _ _ => g
  | .plop g _ _ _ _ => g
  | .pmovTov g _ => g
  | .pmovFromv g _ => g
  | .pmovFromq g _ _ => g
  | .faddF32 g _ _ _ _ => g
  | .fsubF32 g _ _ _ _ => g
  | .fmulF32 g _ _ _ _ => g
  | .ffmaF32 g _ _ _ _ => g
  | .fminF32 g _ _ _ _ => g
  | .fmaxF32 g _ _ _ _ => g
  | .fdivF32 g _ _ _ _ => g
  | .fsqrtF32 g _ _ _ _ => g
  | .frcpaF32 g _ _ _ => g
  | .frsqaF32 g _ _ _ => g
  | .fsetpF32 g _ _ _ _ _ => g
  | .fclassF32 g _ _ _ => g
  | .faddF64 g _ _ _ _ => g
  | .fsubF64 g _ _ _ _ => g
  | .fmulF64 g _ _ _ _ => g
  | .ffmaF64 g _ _ _ _ => g
  | .fminF64 g _ _ _ => g
  | .fmaxF64 g _ _ _ => g
  | .fdivF64 g _ _ _ _ => g
  | .fsqrtF64 g _ _ _ => g
  | .frcpaF64 g _ _ => g
  | .frsqaF64 g _ _ => g
  | .fsetpF64 g _ _ _ _ => g
  | .fclassF64 g _ _ => g
  | .cvt g _ _ _ _ => g
  | .cvtblk g _ _ _ _ => g
  | .cvtblkX g _ _ _ _ => g
  | .cvtsat g _ _ _ _ => g
  | .faddF16x2 g _ _ _ _ => g
  | .fmulF16x2 g _ _ _ _ => g
  | .ffmaF16x2 g _ _ _ _ => g
  | .fminF16x2 g _ _ _ _ => g
  | .fmaxF16x2 g _ _ _ _ => g
  | .fsetpF16x2 g _ _ _ _ _ => g
  | .faddBf16x2 g _ _ _ _ => g
  | .fmulBf16x2 g _ _ _ _ => g
  | .ffmaBf16x2 g _ _ _ _ => g
  | .fminBf16x2 g _ _ _ => g
  | .fmaxBf16x2 g _ _ _ => g
  | .fsetpBf16x2 g _ _ _ _ _ => g
  | .vote g _ _ _ => g
  | .voteBallot g _ _ => g
  | .shfl g _ _ _ _ => g
  | .vfromg g _ _ _ => g
  | .lsr g _ _ => g
  | .exitl g => g
  | .ldg g _ _ _ _ => g
  | .ldgh g _ _ _ _ => g
  | .ldgb g _ _ _ _ => g
  | .stg g _ _ _ _ => g
  | .stgh g _ _ _ => g
  | .stgb g _ _ _ => g
  | .lda g _ _ _ _ => g
  | .stl g _ _ _ _ => g
  | .lds g _ _ _ _ => g
  | .ldsh g _ _ _ _ => g
  | .ldsb g _ _ _ _ => g
  | .sts g _ _ _ _ => g
  | .stsh g _ _ _ => g
  | .stsb g _ _ _ => g
  | .gld g _ _ _ _ => g
  | .cctl g _ _ => g
  | .atomAdd g _ _ _ _ _ _ => g
  | .atomFadd g _ _ _ _ _ _ _ => g
  | .atomMin g _ _ _ _ _ _ _ => g
  | .atomMax g _ _ _ _ _ _ _ => g
  | .atomBit g _ _ _ _ _ _ => g
  | .atomExch g _ _ _ _ _ => g
  | .cas g _ _ _ _ _ => g
  | .atomsc g _ _ _ _ _ => g
  | .rld g _ _ _ _ => g
  | .rst g _ _ _ _ => g
  | .ratom g _ _ _ _ => g
  | .rldv g _ _ _ _ => g
  | .rstv g _ _ _ _ => g
  | .ratomv g _ _ _ _ => g
  | _ => ⟨7, 0⟩

/-- The conditions of each entry on its own fields, beside guards and register alignment. -/
def fieldsOk : Instr → Bool
  | .brq p _ _ => decide (p ≠ 7)
  | .pauseG n => decide (n.toNat ≠ 0 ∧ n.toNat ≤ 65535)
  | .gshli _ _ i => decide (i.toNat ≤ 63)
  | .gshri _ _ i => decide (i.toNat ≤ 63)
  | .gsari _ _ i => decide (i.toNat ≤ 63)
  | .gcmp _ _ c _ _ _ => decide (c.toNat ≤ 5)
  | .gsr _ _ s => decide (s.toNat ≤ 12)
  | .gsw _ s _ => decide (s = 3 ∨ s = 4 ∨ s = 8)
  | .gfromv _ t _ _ _ => decide (t ≠ 3)
  | .greduce _ o _ _ t => decide (redLegal o t)
  | .gldk _ m _ _ _ => decide (m ≠ 3)
  | .gstk _ m _ _ _ => decide (m.toNat ≤ 1)
  | .mldt _ m _ _ z => decide (m.toNat < 2 → z = 0)
  | .mstt _ m _ _ z => decide (m.toNat < 2 → z = 0)
  | .mrdaScratch _ _ _ _ z => decide (z ≠ 0)
  | .fenceG _ k s => decide (k ≠ 3 ∧ scopeOk s)
  | .iadd _ m _ _ _ => decide (m ≠ 3)
  | .isub _ m _ _ _ => decide (m ≠ 3)
  | .imad _ m _ _ _ => decide (m ≠ 3)
  | .sel p n _ _ _ _ => decide (¬ (p = 7 ∧ n = 1))
  | .isetp _ _ c _ _ _ => decide (c.toNat ≤ 5)
  | .iadd64 _ m _ _ _ => decide (m ≠ 3)
  | .isub64 _ m _ _ _ => decide (m ≠ 3)
  | .shli _ _ i => decide (i.toNat ≤ 31)
  | .shri _ _ i => decide (i.toNat ≤ 31)
  | .sari _ _ i => decide (i.toNat ≤ 31)
  | .cvt _ m _ _ b => decide (cvtLegal b.toNat m)
  | .cvtblk _ _ _ _ s => decide (s ≠ 3)
  | .cvtsat _ m _ _ b => decide (cvtLegal b.toNat m)
  | .vote _ m _ _ => decide (m ≠ 2)
  | .vfromg _ m _ _ => decide (m ≠ 3)
  | .lsr _ _ s => decide (s.toNat ≤ 2)
  | .dbr p n _ => decide (¬ (p = 7 ∧ n = 1))
  | .ldg _ m _ _ _ => decide (m ≠ 3)
  | .stg _ m _ _ _ => decide (m ≠ 3)
  | .lda _ _ _ _ s => decide (scopeOk s)
  | .stl _ _ _ _ s => decide (scopeOk s)
  | .lds _ m _ _ _ => decide (m ≠ 3)
  | .sts _ m _ _ _ => decide (m ≠ 3)
  | .gld _ m _ _ _ => decide (m ≠ 3)
  | .cctl g a c => decide ((c.toNat ≤ 4 ∨ (8 ≤ c.toNat ∧ c.toNat ≤ 10)) ∧ ((c.toNat = 2 ∨ 8 ≤ c.toNat) → (a = 0 ∧ g.p = 7)))
  | .atomAdd _ _ _ _ _ f s => decide (atomScopeOk f s)
  | .atomFadd _ x _ _ _ w f s => decide (atomScopeOk f s ∧ ¬ (x = 1 ∧ w = 1))
  | .atomMin _ _ _ _ _ _ f s => decide (atomScopeOk f s)
  | .atomMax _ _ _ _ _ _ f s => decide (atomScopeOk f s)
  | .atomBit _ m _ _ _ f s => decide (atomScopeOk f s ∧ m ≠ 3)
  | .atomExch _ _ _ _ f s => decide (atomScopeOk f s)
  | .cas _ _ _ _ f s => decide (atomScopeOk f s)
  | .atomsc _ _ _ _ _ s => decide (s.toNat ≤ 3)
  | .rld _ m _ _ _ => decide (m ≠ 3)
  | .rst _ m _ _ _ => decide (m ≠ 3)
  | .rldv _ m _ _ _ => decide (m ≠ 3)
  | .rstv _ m _ _ _ => decide (m ≠ 3)
  | _ => true

/-- A word that passes every state-independent encoding check. Events carry no encoding and pass. -/
def legal (i : Instr) : Bool :=
  guardOk (guardOf i) && fieldsOk i && (vops i).all fun x => x.1 % x.2.2 == 0 && x.1 + x.2.1 ≤ 64

/-- R84: the word's lane registers, tiles and accumulators lie below the launch's REGS, TILES and ACCS. -/
def fits (regs tiles accs : Nat) (i : Instr) : Bool :=
  ((vops i).all fun x => x.2.1 == 0 || x.1 + x.2.1 ≤ regs) && (tops i).all (· < tiles) && (aops i).all (· < accs)

/-- Whether a constructor is a word of the instruction set, and not an event. -/
def isWord : Instr → Bool
  | .nop => true
  | .bra _ => true
  | .brq _ _ _ => true
  | .brx _ _ => true
  | .callG _ _ => true
  | .retG _ _ => true
  | .exitG _ => true
  | .trapG _ _ => true
  | .joinat _ => true
  | .joinG _ => true
  | .regang _ => true
  | .gfuseRcv _ _ _ _ => true
  | .gfuseDon _ _ _ _ => true
  | .yieldG _ _ _ _ => true
  | .pauseG _ => true
  | .idemend => true
  | .gadd _ _ _ _ => true
  | .gsub _ _ _ _ => true
  | .gmul _ _ _ _ => true
  | .gmulh _ _ _ _ _ => true
  | .gmin _ _ _ _ _ => true
  | .gmax _ _ _ _ _ => true
  | .gmov _ _ _ => true
  | .gand _ _ _ _ => true
  | .gor _ _ _ _ => true
  | .gxor _ _ _ _ => true
  | .gshl _ _ _ _ => true
  | .gshr _ _ _ _ => true
  | .gsar _ _ _ _ => true
  | .gaddi _ _ _ => true
  | .gandi _ _ _ => true
  | .gori _ _ _ => true
  | .gxori _ _ _ => true
  | .gshli _ _ _ => true
  | .gshri _ _ _ => true
  | .gsari _ _ _ => true
  | .gmovi _ _ => true
  | .gmovhi _ _ => true
  | .gcmp _ _ _ _ _ _ => true
  | .qlop _ _ _ _ _ => true
  | .gsr _ _ _ => true
  | .gsw _ _ _ => true
  | .gfromv _ _ _ _ _ => true
  | .greduce _ _ _ _ _ => true
  | .gldk _ _ _ _ _ => true
  | .gstk _ _ _ _ _ => true
  | .tcopy _ _ _ _ => true
  | .tcopyg _ _ _ _ => true
  | .barinit _ _ _ => true
  | .barexp _ _ _ => true
  | .barexpArv _ _ _ => true
  | .bararv _ _ _ => true
  | .barwait _ _ _ => true
  | .bartry _ _ _ _ => true
  | .mma _ _ _ _ _ _ => true
  | .mmag _ _ _ _ _ _ => true
  | .mldt _ _ _ _ _ => true
  | .mstt _ _ _ _ _ => true
  | .mza _ _ => true
  | .mrdaTile _ _ _ _ _ => true
  | .mrdaScratch _ _ _ _ _ => true
  | .gbind _ _ => true
  | .gbindN _ _ _ => true
  | .gbindUn _ => true
  | .gstep _ _ => true
  | .gwait _ _ _ => true
  | .gwaitTry _ _ _ _ => true
  | .bxrun _ _ _ _ _ => true
  | .bxwait _ _ _ => true
  | .bxwaitTry _ _ _ _ => true
  | .rrel _ _ _ _ => true
  | .rfence _ => true
  | .rfenceCnt _ _ _ => true
  | .launchG _ _ _ => true
  | .signalG _ _ _ _ => true
  | .waitge _ _ _ _ => true
  | .fenceG _ _ _ => true
  | .fresolve _ _ _ _ => true
  | .rsreset _ _ _ _ => true
  | .ctxsave _ _ _ _ => true
  | .ctxload _ _ _ _ => true
  | .iadd _ _ _ _ _ => true
  | .isub _ _ _ _ _ => true
  | .imul _ _ _ _ => true
  | .imulh _ _ _ _ _ => true
  | .imad _ _ _ _ _ => true
  | .imin _ _ _ _ _ => true
  | .imax _ _ _ _ _ => true
  | .iabs _ _ _ _ => true
  | .andL _ _ _ _ _ => true
  | .orL _ _ _ _ _ => true
  | .xorL _ _ _ _ _ => true
  | .notL _ _ _ _ => true
  | .shl _ _ _ _ _ => true
  | .shr _ _ _ _ _ => true
  | .sar _ _ _ _ _ => true
  | .mov _ _ _ _ => true
  | .bfe _ _ _ _ _ => true
  | .bfi _ _ _ _ => true
  | .popc _ _ _ _ => true
  | .clz _ _ _ _ => true
  | .brev _ _ _ _ => true
  | .sel _ _ _ _ _ _ => true
  | .isetp _ _ _ _ _ _ => true
  | .iadd64 _ _ _ _ _ => true
  | .isub64 _ _ _ _ _ => true
  | .iaddi _ _ _ => true
  | .imuli _ _ _ => true
  | .andi _ _ _ => true
  | .ori _ _ _ => true
  | .xori _ _ _ => true
  | .shli _ _ _ => true
  | .shri _ _ _ => true
  | .sari _ _ _ => true
  | .movi _ _ => true
  | .movhi _ _ => true
  | .plop _ _ _ _ _ => true
  | .pmovTov _ _ => true
  | .pmovFromv _ _ => true
  | .pmovFromq _ _ _ => true
  | .faddF32 _ _ _ _ _ => true
  | .fsubF32 _ _ _ _ _ => true
  | .fmulF32 _ _ _ _ _ => true
  | .ffmaF32 _ _ _ _ _ => true
  | .fminF32 _ _ _ _ _ => true
  | .fmaxF32 _ _ _ _ _ => true
  | .fdivF32 _ _ _ _ _ => true
  | .fsqrtF32 _ _ _ _ _ => true
  | .frcpaF32 _ _ _ _ => true
  | .frsqaF32 _ _ _ _ => true
  | .fsetpF32 _ _ _ _ _ _ => true
  | .fclassF32 _ _ _ _ => true
  | .faddF64 _ _ _ _ _ => true
  | .fsubF64 _ _ _ _ _ => true
  | .fmulF64 _ _ _ _ _ => true
  | .ffmaF64 _ _ _ _ _ => true
  | .fminF64 _ _ _ _ => true
  | .fmaxF64 _ _ _ _ => true
  | .fdivF64 _ _ _ _ _ => true
  | .fsqrtF64 _ _ _ _ => true
  | .frcpaF64 _ _ _ => true
  | .frsqaF64 _ _ _ => true
  | .fsetpF64 _ _ _ _ _ => true
  | .fclassF64 _ _ _ => true
  | .cvt _ _ _ _ _ => true
  | .cvtblk _ _ _ _ _ => true
  | .cvtblkX _ _ _ _ _ => true
  | .cvtsat _ _ _ _ _ => true
  | .faddF16x2 _ _ _ _ _ => true
  | .fmulF16x2 _ _ _ _ _ => true
  | .ffmaF16x2 _ _ _ _ _ => true
  | .fminF16x2 _ _ _ _ _ => true
  | .fmaxF16x2 _ _ _ _ _ => true
  | .fsetpF16x2 _ _ _ _ _ _ => true
  | .faddBf16x2 _ _ _ _ _ => true
  | .fmulBf16x2 _ _ _ _ _ => true
  | .ffmaBf16x2 _ _ _ _ _ => true
  | .fminBf16x2 _ _ _ _ => true
  | .fmaxBf16x2 _ _ _ _ => true
  | .fsetpBf16x2 _ _ _ _ _ _ => true
  | .vote _ _ _ _ => true
  | .voteBallot _ _ _ => true
  | .shfl _ _ _ _ _ => true
  | .vfromg _ _ _ _ => true
  | .lsr _ _ _ => true
  | .dbr _ _ _ => true
  | .exitl _ => true
  | .ldg _ _ _ _ _ => true
  | .ldgh _ _ _ _ _ => true
  | .ldgb _ _ _ _ _ => true
  | .stg _ _ _ _ _ => true
  | .stgh _ _ _ _ => true
  | .stgb _ _ _ _ => true
  | .lda _ _ _ _ _ => true
  | .stl _ _ _ _ _ => true
  | .lds _ _ _ _ _ => true
  | .ldsh _ _ _ _ _ => true
  | .ldsb _ _ _ _ _ => true
  | .sts _ _ _ _ _ => true
  | .stsh _ _ _ _ => true
  | .stsb _ _ _ _ => true
  | .gld _ _ _ _ _ => true
  | .cctl _ _ _ => true
  | .atomAdd _ _ _ _ _ _ _ => true
  | .atomFadd _ _ _ _ _ _ _ _ => true
  | .atomMin _ _ _ _ _ _ _ _ => true
  | .atomMax _ _ _ _ _ _ _ _ => true
  | .atomBit _ _ _ _ _ _ _ => true
  | .atomExch _ _ _ _ _ _ => true
  | .cas _ _ _ _ _ _ => true
  | .atomsc _ _ _ _ _ _ => true
  | .rld _ _ _ _ _ => true
  | .rst _ _ _ _ _ => true
  | .ratom _ _ _ _ _ => true
  | .rldv _ _ _ _ _ => true
  | .rstv _ _ _ _ _ => true
  | .ratomv _ _ _ _ _ => true
  | _ => false

end Sys2Proof.Machine
end

