-- ==== Sys2Proof/WellFormed.lean ====
section
/-! DEFINITION. Well-formed instructions: words that pass every encoding check that needs no state (R83, R84, R90). An
ill-formed word is refused by the machine as the spec says: it takes ILLEGAL_INSTR when it reaches issue (R85). -/
namespace Sys2Proof

/-- The instruction is one of the instruction set's words and passes the spec's encoding checks. -/
abbrev WellFormed (i : Instr) : Prop := Machine.isWord i = true ∧ Machine.legal i = true

end Sys2Proof
end

