-- ==== Sys2Proof/Decode.lean ====
section
/-! DEFINITION. Decoding of 32-bit words, total and rejecting by name, and the encoder, both from the spec's encoding
tables (R82, R87, R91, R92 and each entry). A word is a natural number below 2^32; its bytes lie little-endian (R4). -/
namespace Sys2Proof

/-- Why a word decodes to no instruction (R90): it takes ILLEGAL_INSTR when it reaches issue (R85). -/
inductive Reject where
  /-- The major opcode is unassigned in its set (R90). -/
  | unassigned (op : Nat)
  /-- A field that the instruction does not use is nonzero, or a modifier is not listed (R90). -/
  | reserved (op : Nat)
  /-- Fewer than four bytes. -/
  | short
  deriving DecidableEq, Repr

/-- Bits [lo + n - 1 : lo] of a word. -/
def bitsOf (w lo n : Nat) : BitVec n := BitVec.ofNat n (w / 2 ^ lo)
/-- The guard fields of a word (R82). -/
def guardBits (w : Nat) : Guard := ⟨bitsOf w 21 3, bitsOf w 20 1⟩

/-- The words of major opcodes 0x00 to 0x0f, bit [31] included. -/
def decodeBlock0 (op w : Nat) : Except Reject Instr :=
  match op with
  | 0x00 => .ok (.iadd (guardBits w) (bitsOf w 18 2) (bitsOf w 12 6) (bitsOf w 6 6) (bitsOf w 0 6))
  | 0x01 => .ok (.isub (guardBits w) (bitsOf w 18 2) (bitsOf w 12 6) (bitsOf w 6 6) (bitsOf w 0 6))
  | 0x02 => if w / 262144 % 4 = 0 then .ok (.imul (guardBits w) (bitsOf w 12 6) (bitsOf w 6 6) (bitsOf w 0 6)) else .error (.reserved op)
  | 0x03 => if w / 524288 % 2 = 0 then .ok (.imulh (guardBits w) (bitsOf w 18 1) (bitsOf w 12 6) (bitsOf w 6 6) (bitsOf w 0 6)) else .error (.reserved op)
  | 0x04 => .ok (.imad (guardBits w) (bitsOf w 18 2) (bitsOf w 12 6) (bitsOf w 6 6) (bitsOf w 0 6))
  | 0x05 => .ok (.imin (guardBits w) (bitsOf w 18 2) (bitsOf w 12 6) (bitsOf w 6 6) (bitsOf w 0 6))
  | 0x06 => .ok (.imax (guardBits w) (bitsOf w 18 2) (bitsOf w 12 6) (bitsOf w 6 6) (bitsOf w 0 6))
  | 0x07 => if w % 64 = 0 then .ok (.iabs (guardBits w) (bitsOf w 18 2) (bitsOf w 12 6) (bitsOf w 6 6)) else .error (.reserved op)
  | 0x08 => if w / 524288 % 2 = 0 then .ok (.andL (guardBits w) (bitsOf w 18 1) (bitsOf w 12 6) (bitsOf w 6 6) (bitsOf w 0 6)) else .error (.reserved op)
  | 0x09 => if w / 524288 % 2 = 0 then .ok (.orL (guardBits w) (bitsOf w 18 1) (bitsOf w 12 6) (bitsOf w 6 6) (bitsOf w 0 6)) else .error (.reserved op)
  | 0x0a => if w / 524288 % 2 = 0 then .ok (.xorL (guardBits w) (bitsOf w 18 1) (bitsOf w 12 6) (bitsOf w 6 6) (bitsOf w 0 6)) else .error (.reserved op)
  | 0x0b => if w % 64 = 0 ∧ w / 524288 % 2 = 0 then .ok (.notL (guardBits w) (bitsOf w 18 1) (bitsOf w 12 6) (bitsOf w 6 6)) else .error (.reserved op)
  | 0x0c => if w / 524288 % 2 = 0 then .ok (.shl (guardBits w) (bitsOf w 18 1) (bitsOf w 12 6) (bitsOf w 6 6) (bitsOf w 0 6)) else .error (.reserved op)
  | 0x0d => if w / 524288 % 2 = 0 then .ok (.shr (guardBits w) (bitsOf w 18 1) (bitsOf w 12 6) (bitsOf w 6 6) (bitsOf w 0 6)) else .error (.reserved op)
  | 0x0e => if w / 524288 % 2 = 0 then .ok (.sar (guardBits w) (bitsOf w 18 1) (bitsOf w 12 6) (bitsOf w 6 6) (bitsOf w 0 6)) else .error (.reserved op)
  | 0x0f => if w % 64 = 0 ∧ w / 524288 % 2 = 0 then .ok (.mov (guardBits w) (bitsOf w 18 1) (bitsOf w 12 6) (bitsOf w 6 6)) else .error (.reserved op)
  | _ => .error (.unassigned op)

/-- The words of major opcodes 0x10 to 0x1f, bit [31] included. -/
def decodeBlock1 (op w : Nat) : Except Reject Instr :=
  match op with
  | 0x10 => if w / 524288 % 2 = 0 then .ok (.bfe (guardBits w) (bitsOf w 18 1) (bitsOf w 12 6) (bitsOf w 6 6) (bitsOf w 0 6)) else .error (.reserved op)
  | 0x11 => if w / 262144 % 4 = 0 then .ok (.bfi (guardBits w) (bitsOf w 12 6) (bitsOf w 6 6) (bitsOf w 0 6)) else .error (.reserved op)
  | 0x12 => if w % 64 = 0 ∧ w / 524288 % 2 = 0 then .ok (.popc (guardBits w) (bitsOf w 18 1) (bitsOf w 12 6) (bitsOf w 6 6)) else .error (.reserved op)
  | 0x13 => if w % 64 = 0 ∧ w / 524288 % 2 = 0 then .ok (.clz (guardBits w) (bitsOf w 18 1) (bitsOf w 12 6) (bitsOf w 6 6)) else .error (.reserved op)
  | 0x14 => if w % 64 = 0 ∧ w / 524288 % 2 = 0 then .ok (.brev (guardBits w) (bitsOf w 18 1) (bitsOf w 12 6) (bitsOf w 6 6)) else .error (.reserved op)
  | 0x15 => if w / 524288 % 2 = 0 then .ok (.sel (bitsOf w 21 3) (bitsOf w 20 1) (bitsOf w 18 1) (bitsOf w 12 6) (bitsOf w 6 6) (bitsOf w 0 6)) else .error (.reserved op)
  | 0x16 => .ok (.isetp (guardBits w) (bitsOf w 18 2) (bitsOf w 15 3) (bitsOf w 12 3) (bitsOf w 6 6) (bitsOf w 0 6))
  | 0x17 => .ok (.iadd64 (guardBits w) (bitsOf w 18 2) (bitsOf w 12 6) (bitsOf w 6 6) (bitsOf w 0 6))
  | 0x18 => .ok (.isub64 (guardBits w) (bitsOf w 18 2) (bitsOf w 12 6) (bitsOf w 6 6) (bitsOf w 0 6))
  | 0x19 => if w / 262144 % 4 = 0 then .ok (.iaddi (guardBits w) (bitsOf w 12 6) (bitsOf w 0 12)) else .error (.reserved op)
  | 0x1a => if w / 262144 % 4 = 0 then .ok (.imuli (guardBits w) (bitsOf w 12 6) (bitsOf w 0 12)) else .error (.reserved op)
  | 0x1b => if w / 262144 % 4 = 0 then .ok (.andi (guardBits w) (bitsOf w 12 6) (bitsOf w 0 12)) else .error (.reserved op)
  | 0x1c => if w / 262144 % 4 = 0 then .ok (.ori (guardBits w) (bitsOf w 12 6) (bitsOf w 0 12)) else .error (.reserved op)
  | 0x1d => if w / 262144 % 4 = 0 then .ok (.xori (guardBits w) (bitsOf w 12 6) (bitsOf w 0 12)) else .error (.reserved op)
  | 0x1e => if w / 262144 % 4 = 0 then .ok (.shli (guardBits w) (bitsOf w 12 6) (bitsOf w 0 12)) else .error (.reserved op)
  | 0x1f => if w / 262144 % 4 = 0 then .ok (.shri (guardBits w) (bitsOf w 12 6) (bitsOf w 0 12)) else .error (.reserved op)
  | _ => .error (.unassigned op)

/-- The words of major opcodes 0x20 to 0x2f, bit [31] included. -/
def decodeBlock2 (op w : Nat) : Except Reject Instr :=
  match op with
  | 0x20 => if w / 262144 % 4 = 0 then .ok (.sari (guardBits w) (bitsOf w 12 6) (bitsOf w 0 12)) else .error (.reserved op)
  | 0x21 => .ok (.movi (bitsOf w 18 6) (bitsOf w 0 18))
  | 0x22 => .ok (.movhi (bitsOf w 18 6) (bitsOf w 0 18))
  | 0x24 => if w / 8 % 8 = 0 ∧ w / 512 % 8 = 0 ∧ w / 32768 % 8 = 0 then .ok (.plop (guardBits w) (bitsOf w 18 2) (bitsOf w 12 3) (bitsOf w 6 3) (bitsOf w 0 3)) else .error (.reserved op)
  | 0x25 => if w % 4096 = 0 ∧ w / 262144 % 4 = 0 then .ok (.pmovTov (guardBits w) (bitsOf w 12 6)) else if w % 64 = 0 ∧ w / 4096 % 256 = 64 then .ok (.pmovFromv (guardBits w) (bitsOf w 6 6)) else if w % 64 = 0 ∧ w / 512 % 8 = 0 ∧ w / 32768 % 32 = 16 then .ok (.pmovFromq (guardBits w) (bitsOf w 12 3) (bitsOf w 6 3)) else .error (.reserved op)
  | 0x28 => .ok (.faddF32 (guardBits w) (bitsOf w 18 2) (bitsOf w 12 6) (bitsOf w 6 6) (bitsOf w 0 6))
  | 0x29 => .ok (.fsubF32 (guardBits w) (bitsOf w 18 2) (bitsOf w 12 6) (bitsOf w 6 6) (bitsOf w 0 6))
  | 0x2a => .ok (.fmulF32 (guardBits w) (bitsOf w 18 2) (bitsOf w 12 6) (bitsOf w 6 6) (bitsOf w 0 6))
  | 0x2b => .ok (.ffmaF32 (guardBits w) (bitsOf w 18 2) (bitsOf w 12 6) (bitsOf w 6 6) (bitsOf w 0 6))
  | 0x2c => if w / 524288 % 2 = 0 then .ok (.fminF32 (guardBits w) (bitsOf w 18 1) (bitsOf w 12 6) (bitsOf w 6 6) (bitsOf w 0 6)) else .error (.reserved op)
  | 0x2d => if w / 524288 % 2 = 0 then .ok (.fmaxF32 (guardBits w) (bitsOf w 18 1) (bitsOf w 12 6) (bitsOf w 6 6) (bitsOf w 0 6)) else .error (.reserved op)
  | 0x2e => .ok (.fdivF32 (guardBits w) (bitsOf w 18 2) (bitsOf w 12 6) (bitsOf w 6 6) (bitsOf w 0 6))
  | 0x2f => if w / 2 % 32 = 0 then .ok (.fsqrtF32 (guardBits w) (bitsOf w 18 2) (bitsOf w 12 6) (bitsOf w 6 6) (bitsOf w 0 1)) else .error (.reserved op)
  | _ => .error (.unassigned op)

/-- The words of major opcodes 0x30 to 0x3f, bit [31] included. -/
def decodeBlock3 (op w : Nat) : Except Reject Instr :=
  match op with
  | 0x30 => if w % 64 = 0 ∧ w / 524288 % 2 = 0 then .ok (.frcpaF32 (guardBits w) (bitsOf w 18 1) (bitsOf w 12 6) (bitsOf w 6 6)) else .error (.reserved op)
  | 0x31 => if w % 64 = 0 ∧ w / 524288 % 2 = 0 then .ok (.frsqaF32 (guardBits w) (bitsOf w 18 1) (bitsOf w 12 6) (bitsOf w 6 6)) else .error (.reserved op)
  | 0x32 => if w / 524288 % 2 = 0 then .ok (.fsetpF32 (guardBits w) (bitsOf w 18 1) (bitsOf w 15 3) (bitsOf w 12 3) (bitsOf w 6 6) (bitsOf w 0 6)) else .error (.reserved op)
  | 0x33 => if w % 64 = 0 ∧ w / 524288 % 2 = 0 then .ok (.fclassF32 (guardBits w) (bitsOf w 18 1) (bitsOf w 12 6) (bitsOf w 6 6)) else .error (.reserved op)
  | 0x38 => .ok (.faddF64 (guardBits w) (bitsOf w 18 2) (bitsOf w 12 6) (bitsOf w 6 6) (bitsOf w 0 6))
  | 0x39 => .ok (.fsubF64 (guardBits w) (bitsOf w 18 2) (bitsOf w 12 6) (bitsOf w 6 6) (bitsOf w 0 6))
  | 0x3a => .ok (.fmulF64 (guardBits w) (bitsOf w 18 2) (bitsOf w 12 6) (bitsOf w 6 6) (bitsOf w 0 6))
  | 0x3b => .ok (.ffmaF64 (guardBits w) (bitsOf w 18 2) (bitsOf w 12 6) (bitsOf w 6 6) (bitsOf w 0 6))
  | 0x3c => if w / 262144 % 4 = 0 then .ok (.fminF64 (guardBits w) (bitsOf w 12 6) (bitsOf w 6 6) (bitsOf w 0 6)) else .error (.reserved op)
  | 0x3d => if w / 262144 % 4 = 0 then .ok (.fmaxF64 (guardBits w) (bitsOf w 12 6) (bitsOf w 6 6) (bitsOf w 0 6)) else .error (.reserved op)
  | 0x3e => .ok (.fdivF64 (guardBits w) (bitsOf w 18 2) (bitsOf w 12 6) (bitsOf w 6 6) (bitsOf w 0 6))
  | 0x3f => if w % 64 = 0 then .ok (.fsqrtF64 (guardBits w) (bitsOf w 18 2) (bitsOf w 12 6) (bitsOf w 6 6)) else .error (.reserved op)
  | _ => .error (.unassigned op)

/-- The words of major opcodes 0x40 to 0x4f, bit [31] included. -/
def decodeBlock4 (op w : Nat) : Except Reject Instr :=
  match op with
  | 0x40 => if w % 64 = 0 ∧ w / 262144 % 4 = 0 then .ok (.frcpaF64 (guardBits w) (bitsOf w 12 6) (bitsOf w 6 6)) else .error (.reserved op)
  | 0x41 => if w % 64 = 0 ∧ w / 262144 % 4 = 0 then .ok (.frsqaF64 (guardBits w) (bitsOf w 12 6) (bitsOf w 6 6)) else .error (.reserved op)
  | 0x42 => if w / 262144 % 4 = 0 then .ok (.fsetpF64 (guardBits w) (bitsOf w 15 3) (bitsOf w 12 3) (bitsOf w 6 6) (bitsOf w 0 6)) else .error (.reserved op)
  | 0x43 => if w % 64 = 0 ∧ w / 262144 % 4 = 0 then .ok (.fclassF64 (guardBits w) (bitsOf w 12 6) (bitsOf w 6 6)) else .error (.reserved op)
  | 0x44 => .ok (.cvt (guardBits w) (bitsOf w 18 2) (bitsOf w 12 6) (bitsOf w 6 6) (bitsOf w 0 6))
  | 0x45 => if w / 4 % 16 = 0 ∧ w / 524288 % 2 = 0 then .ok (.cvtblk (guardBits w) (bitsOf w 18 1) (bitsOf w 12 6) (bitsOf w 6 6) (bitsOf w 0 2)) else if w / 524288 % 2 = 1 then .ok (.cvtblkX (guardBits w) (bitsOf w 18 1) (bitsOf w 12 6) (bitsOf w 6 6) (bitsOf w 0 6)) else .error (.reserved op)
  | 0x46 => .ok (.cvtsat (guardBits w) (bitsOf w 18 2) (bitsOf w 12 6) (bitsOf w 6 6) (bitsOf w 0 6))
  | 0x48 => .ok (.faddF16x2 (guardBits w) (bitsOf w 18 2) (bitsOf w 12 6) (bitsOf w 6 6) (bitsOf w 0 6))
  | 0x49 => .ok (.fmulF16x2 (guardBits w) (bitsOf w 18 2) (bitsOf w 12 6) (bitsOf w 6 6) (bitsOf w 0 6))
  | 0x4a => .ok (.ffmaF16x2 (guardBits w) (bitsOf w 18 2) (bitsOf w 12 6) (bitsOf w 6 6) (bitsOf w 0 6))
  | 0x4b => if w / 524288 % 2 = 0 then .ok (.fminF16x2 (guardBits w) (bitsOf w 18 1) (bitsOf w 12 6) (bitsOf w 6 6) (bitsOf w 0 6)) else .error (.reserved op)
  | 0x4c => if w / 524288 % 2 = 0 then .ok (.fmaxF16x2 (guardBits w) (bitsOf w 18 1) (bitsOf w 12 6) (bitsOf w 6 6) (bitsOf w 0 6)) else .error (.reserved op)
  | 0x4d => .ok (.fsetpF16x2 (guardBits w) (bitsOf w 18 2) (bitsOf w 15 3) (bitsOf w 12 3) (bitsOf w 6 6) (bitsOf w 0 6))
  | _ => .error (.unassigned op)

/-- The words of major opcodes 0x50 to 0x5f, bit [31] included. -/
def decodeBlock5 (op w : Nat) : Except Reject Instr :=
  match op with
  | 0x50 => .ok (.faddBf16x2 (guardBits w) (bitsOf w 18 2) (bitsOf w 12 6) (bitsOf w 6 6) (bitsOf w 0 6))
  | 0x51 => .ok (.fmulBf16x2 (guardBits w) (bitsOf w 18 2) (bitsOf w 12 6) (bitsOf w 6 6) (bitsOf w 0 6))
  | 0x52 => .ok (.ffmaBf16x2 (guardBits w) (bitsOf w 18 2) (bitsOf w 12 6) (bitsOf w 6 6) (bitsOf w 0 6))
  | 0x53 => if w / 262144 % 4 = 0 then .ok (.fminBf16x2 (guardBits w) (bitsOf w 12 6) (bitsOf w 6 6) (bitsOf w 0 6)) else .error (.reserved op)
  | 0x54 => if w / 262144 % 4 = 0 then .ok (.fmaxBf16x2 (guardBits w) (bitsOf w 12 6) (bitsOf w 6 6) (bitsOf w 0 6)) else .error (.reserved op)
  | 0x55 => .ok (.fsetpBf16x2 (guardBits w) (bitsOf w 18 2) (bitsOf w 15 3) (bitsOf w 12 3) (bitsOf w 6 6) (bitsOf w 0 6))
  | 0x58 => if w % 64 = 0 ∧ w / 512 % 8 = 0 ∧ w / 262144 % 4 = 2 then .ok (.voteBallot (guardBits w) (bitsOf w 12 6) (bitsOf w 6 3)) else if w % 64 = 0 ∧ w / 512 % 8 = 0 ∧ w / 32768 % 8 = 0 ∧ w / 262144 % 4 ≠ 2 then .ok (.vote (guardBits w) (bitsOf w 18 2) (bitsOf w 12 3) (bitsOf w 6 3)) else .error (.reserved op)
  | 0x59 => .ok (.shfl (guardBits w) (bitsOf w 18 2) (bitsOf w 12 6) (bitsOf w 6 6) (bitsOf w 0 6))
  | 0x5a => if w % 64 = 0 then .ok (.vfromg (guardBits w) (bitsOf w 18 2) (bitsOf w 12 6) (bitsOf w 6 6)) else .error (.reserved op)
  | 0x5b => if w % 64 = 0 ∧ w / 262144 % 4 = 0 then .ok (.lsr (guardBits w) (bitsOf w 12 6) (bitsOf w 6 6)) else .error (.reserved op)
  | 0x5c => .ok (.dbr (bitsOf w 21 3) (bitsOf w 20 1) (bitsOf w 0 20))
  | 0x5d => if w % 1048576 = 0 then .ok (.exitl (guardBits w)) else .error (.reserved op)
  | _ => .error (.unassigned op)

/-- The words of major opcodes 0x60 to 0x6f, bit [31] included. -/
def decodeBlock6 (op w : Nat) : Except Reject Instr :=
  match op with
  | 0x60 => .ok (.ldg (guardBits w) (bitsOf w 18 2) (bitsOf w 12 6) (bitsOf w 6 6) (bitsOf w 0 6))
  | 0x61 => if w / 524288 % 2 = 0 then .ok (.ldgh (guardBits w) (bitsOf w 18 1) (bitsOf w 12 6) (bitsOf w 6 6) (bitsOf w 0 6)) else .error (.reserved op)
  | 0x62 => if w / 524288 % 2 = 0 then .ok (.ldgb (guardBits w) (bitsOf w 18 1) (bitsOf w 12 6) (bitsOf w 6 6) (bitsOf w 0 6)) else .error (.reserved op)
  | 0x63 => .ok (.stg (guardBits w) (bitsOf w 18 2) (bitsOf w 12 6) (bitsOf w 6 6) (bitsOf w 0 6))
  | 0x64 => if w / 262144 % 4 = 0 then .ok (.stgh (guardBits w) (bitsOf w 12 6) (bitsOf w 6 6) (bitsOf w 0 6)) else .error (.reserved op)
  | 0x65 => if w / 262144 % 4 = 0 then .ok (.stgb (guardBits w) (bitsOf w 12 6) (bitsOf w 6 6) (bitsOf w 0 6)) else .error (.reserved op)
  | 0x66 => if w / 16 % 4 = 0 ∧ w / 524288 % 2 = 0 then .ok (.lda (guardBits w) (bitsOf w 18 1) (bitsOf w 12 6) (bitsOf w 6 6) (bitsOf w 0 4)) else .error (.reserved op)
  | 0x67 => if w / 16 % 4 = 0 ∧ w / 524288 % 2 = 0 then .ok (.stl (guardBits w) (bitsOf w 18 1) (bitsOf w 12 6) (bitsOf w 6 6) (bitsOf w 0 4)) else .error (.reserved op)
  | 0x68 => .ok (.lds (guardBits w) (bitsOf w 18 2) (bitsOf w 12 6) (bitsOf w 6 6) (bitsOf w 0 6))
  | 0x69 => if w / 524288 % 2 = 0 then .ok (.ldsh (guardBits w) (bitsOf w 18 1) (bitsOf w 12 6) (bitsOf w 6 6) (bitsOf w 0 6)) else .error (.reserved op)
  | 0x6a => if w / 524288 % 2 = 0 then .ok (.ldsb (guardBits w) (bitsOf w 18 1) (bitsOf w 12 6) (bitsOf w 6 6) (bitsOf w 0 6)) else .error (.reserved op)
  | 0x6b => .ok (.sts (guardBits w) (bitsOf w 18 2) (bitsOf w 12 6) (bitsOf w 6 6) (bitsOf w 0 6))
  | 0x6c => if w / 262144 % 4 = 0 then .ok (.stsh (guardBits w) (bitsOf w 12 6) (bitsOf w 6 6) (bitsOf w 0 6)) else .error (.reserved op)
  | 0x6d => if w / 262144 % 4 = 0 then .ok (.stsb (guardBits w) (bitsOf w 12 6) (bitsOf w 6 6) (bitsOf w 0 6)) else .error (.reserved op)
  | 0x6e => .ok (.gld (guardBits w) (bitsOf w 18 2) (bitsOf w 12 6) (bitsOf w 6 6) (bitsOf w 0 6))
  | 0x6f => if w / 4096 % 256 = 0 then .ok (.cctl (guardBits w) (bitsOf w 6 6) (bitsOf w 0 6)) else .error (.reserved op)
  | _ => .error (.unassigned op)

/-- The words of major opcodes 0x70 to 0x7f, bit [31] included. -/
def decodeBlock7 (op w : Nat) : Except Reject Instr :=
  match op with
  | 0x70 => if w / 524288 % 2 = 0 then .ok (.atomAdd (guardBits w) (bitsOf w 18 1) (bitsOf w 12 6) (bitsOf w 6 6) (bitsOf w 5 1) (bitsOf w 4 1) (bitsOf w 0 4)) else .error (.reserved op)
  | 0x71 => .ok (.atomFadd (guardBits w) (bitsOf w 19 1) (bitsOf w 18 1) (bitsOf w 12 6) (bitsOf w 6 6) (bitsOf w 5 1) (bitsOf w 4 1) (bitsOf w 0 4))
  | 0x72 => .ok (.atomMin (guardBits w) (bitsOf w 19 1) (bitsOf w 18 1) (bitsOf w 12 6) (bitsOf w 6 6) (bitsOf w 5 1) (bitsOf w 4 1) (bitsOf w 0 4))
  | 0x73 => .ok (.atomMax (guardBits w) (bitsOf w 19 1) (bitsOf w 18 1) (bitsOf w 12 6) (bitsOf w 6 6) (bitsOf w 5 1) (bitsOf w 4 1) (bitsOf w 0 4))
  | 0x74 => .ok (.atomBit (guardBits w) (bitsOf w 18 2) (bitsOf w 12 6) (bitsOf w 6 6) (bitsOf w 5 1) (bitsOf w 4 1) (bitsOf w 0 4))
  | 0x75 => if w / 262144 % 4 = 0 then .ok (.atomExch (guardBits w) (bitsOf w 12 6) (bitsOf w 6 6) (bitsOf w 5 1) (bitsOf w 4 1) (bitsOf w 0 4)) else .error (.reserved op)
  | 0x76 => if w / 262144 % 4 = 0 then .ok (.cas (guardBits w) (bitsOf w 12 6) (bitsOf w 6 6) (bitsOf w 5 1) (bitsOf w 4 1) (bitsOf w 0 4)) else .error (.reserved op)
  | 0x77 => if w / 16 % 2 = 0 then .ok (.atomsc (guardBits w) (bitsOf w 18 2) (bitsOf w 12 6) (bitsOf w 6 6) (bitsOf w 5 1) (bitsOf w 0 4)) else .error (.reserved op)
  | 0x78 => .ok (.rld (guardBits w) (bitsOf w 18 2) (bitsOf w 12 6) (bitsOf w 6 6) (bitsOf w 0 6))
  | 0x79 => .ok (.rst (guardBits w) (bitsOf w 18 2) (bitsOf w 12 6) (bitsOf w 6 6) (bitsOf w 0 6))
  | 0x7a => .ok (.ratom (guardBits w) (bitsOf w 18 2) (bitsOf w 12 6) (bitsOf w 6 6) (bitsOf w 0 6))
  | 0x7b => .ok (.rldv (guardBits w) (bitsOf w 18 2) (bitsOf w 12 6) (bitsOf w 6 6) (bitsOf w 0 6))
  | 0x7c => .ok (.rstv (guardBits w) (bitsOf w 18 2) (bitsOf w 12 6) (bitsOf w 6 6) (bitsOf w 0 6))
  | 0x7d => .ok (.ratomv (guardBits w) (bitsOf w 18 2) (bitsOf w 12 6) (bitsOf w 6 6) (bitsOf w 0 6))
  | _ => .error (.unassigned op)

/-- The words of major opcodes 0x80 to 0x8f, bit [31] included. -/
def decodeBlock8 (op w : Nat) : Except Reject Instr :=
  match op with
  | 0x80 => if w % 16777216 = 14680064 then .ok (.nop) else .error (.reserved op)
  | 0x81 => if w / 1048576 % 16 = 14 then .ok (.bra (bitsOf w 0 20)) else .error (.reserved op)
  | 0x82 => .ok (.brq (bitsOf w 21 3) (bitsOf w 20 1) (bitsOf w 0 20))
  | 0x83 => if w % 64 = 0 ∧ w / 4096 % 256 = 0 then .ok (.brx (guardBits w) (bitsOf w 6 6)) else .error (.reserved op)
  | 0x84 => if w / 1048576 % 2 = 0 then .ok (.callG (bitsOf w 21 3) (bitsOf w 0 20)) else .error (.reserved op)
  | 0x85 => if w % 64 = 0 ∧ w / 4096 % 256 = 0 then .ok (.retG (guardBits w) (bitsOf w 6 6)) else .error (.reserved op)
  | 0x86 => if w % 1048576 = 0 then .ok (.exitG (guardBits w)) else .error (.reserved op)
  | 0x87 => if w / 4096 % 256 = 0 then .ok (.trapG (guardBits w) (bitsOf w 0 12)) else .error (.reserved op)
  | 0x88 => if w / 1048576 % 16 = 14 then .ok (.joinat (bitsOf w 0 20)) else .error (.reserved op)
  | 0x89 => if w % 1048576 = 0 then .ok (.joinG (guardBits w)) else .error (.reserved op)
  | 0x8a => if w % 1048576 = 0 then .ok (.regang (guardBits w)) else .error (.reserved op)
  | 0x8b => if w / 262144 % 4 = 0 then .ok (.gfuseRcv (guardBits w) (bitsOf w 12 6) (bitsOf w 6 6) (bitsOf w 0 6)) else if w / 262144 % 4 = 1 then .ok (.gfuseDon (guardBits w) (bitsOf w 12 6) (bitsOf w 6 6) (bitsOf w 0 6)) else .error (.reserved op)
  | 0x8c => if w / 262144 % 4 = 0 then .ok (.yieldG (guardBits w) (bitsOf w 12 6) (bitsOf w 6 6) (bitsOf w 0 6)) else .error (.reserved op)
  | 0x8d => if w / 262144 % 64 = 0 then .ok (.pauseG (bitsOf w 0 18)) else .error (.reserved op)
  | 0x8e => if w % 16777216 = 14680064 then .ok (.idemend) else .error (.reserved op)
  | _ => .error (.unassigned op)

/-- The words of major opcodes 0x90 to 0x9f, bit [31] included. -/
def decodeBlock9 (op w : Nat) : Except Reject Instr :=
  match op with
  | 0x90 => if w / 262144 % 4 = 0 then .ok (.gadd (guardBits w) (bitsOf w 12 6) (bitsOf w 6 6) (bitsOf w 0 6)) else .error (.reserved op)
  | 0x91 => if w / 262144 % 4 = 0 then .ok (.gsub (guardBits w) (bitsOf w 12 6) (bitsOf w 6 6) (bitsOf w 0 6)) else .error (.reserved op)
  | 0x92 => if w / 262144 % 4 = 0 then .ok (.gmul (guardBits w) (bitsOf w 12 6) (bitsOf w 6 6) (bitsOf w 0 6)) else .error (.reserved op)
  | 0x93 => if w / 524288 % 2 = 0 then .ok (.gmulh (guardBits w) (bitsOf w 18 1) (bitsOf w 12 6) (bitsOf w 6 6) (bitsOf w 0 6)) else .error (.reserved op)
  | 0x94 => if w / 524288 % 2 = 0 then .ok (.gmin (guardBits w) (bitsOf w 18 1) (bitsOf w 12 6) (bitsOf w 6 6) (bitsOf w 0 6)) else .error (.reserved op)
  | 0x95 => if w / 524288 % 2 = 0 then .ok (.gmax (guardBits w) (bitsOf w 18 1) (bitsOf w 12 6) (bitsOf w 6 6) (bitsOf w 0 6)) else .error (.reserved op)
  | 0x96 => if w % 64 = 0 ∧ w / 262144 % 4 = 0 then .ok (.gmov (guardBits w) (bitsOf w 12 6) (bitsOf w 6 6)) else .error (.reserved op)
  | 0x98 => if w / 262144 % 4 = 0 then .ok (.gand (guardBits w) (bitsOf w 12 6) (bitsOf w 6 6) (bitsOf w 0 6)) else .error (.reserved op)
  | 0x99 => if w / 262144 % 4 = 0 then .ok (.gor (guardBits w) (bitsOf w 12 6) (bitsOf w 6 6) (bitsOf w 0 6)) else .error (.reserved op)
  | 0x9a => if w / 262144 % 4 = 0 then .ok (.gxor (guardBits w) (bitsOf w 12 6) (bitsOf w 6 6) (bitsOf w 0 6)) else .error (.reserved op)
  | 0x9b => if w / 262144 % 4 = 0 then .ok (.gshl (guardBits w) (bitsOf w 12 6) (bitsOf w 6 6) (bitsOf w 0 6)) else .error (.reserved op)
  | 0x9c => if w / 262144 % 4 = 0 then .ok (.gshr (guardBits w) (bitsOf w 12 6) (bitsOf w 6 6) (bitsOf w 0 6)) else .error (.reserved op)
  | 0x9d => if w / 262144 % 4 = 0 then .ok (.gsar (guardBits w) (bitsOf w 12 6) (bitsOf w 6 6) (bitsOf w 0 6)) else .error (.reserved op)
  | _ => .error (.unassigned op)

/-- The words of major opcodes 0xa0 to 0xaf, bit [31] included. -/
def decodeBlocka (op w : Nat) : Except Reject Instr :=
  match op with
  | 0xa1 => if w / 262144 % 4 = 0 then .ok (.gaddi (guardBits w) (bitsOf w 12 6) (bitsOf w 0 12)) else .error (.reserved op)
  | 0xa2 => if w / 262144 % 4 = 0 then .ok (.gandi (guardBits w) (bitsOf w 12 6) (bitsOf w 0 12)) else .error (.reserved op)
  | 0xa3 => if w / 262144 % 4 = 0 then .ok (.gori (guardBits w) (bitsOf w 12 6) (bitsOf w 0 12)) else .error (.reserved op)
  | 0xa4 => if w / 262144 % 4 = 0 then .ok (.gxori (guardBits w) (bitsOf w 12 6) (bitsOf w 0 12)) else .error (.reserved op)
  | 0xa5 => if w / 262144 % 4 = 0 then .ok (.gshli (guardBits w) (bitsOf w 12 6) (bitsOf w 0 12)) else .error (.reserved op)
  | 0xa6 => if w / 262144 % 4 = 0 then .ok (.gshri (guardBits w) (bitsOf w 12 6) (bitsOf w 0 12)) else .error (.reserved op)
  | 0xa7 => if w / 262144 % 4 = 0 then .ok (.gsari (guardBits w) (bitsOf w 12 6) (bitsOf w 0 12)) else .error (.reserved op)
  | 0xa8 => .ok (.gmovi (bitsOf w 18 6) (bitsOf w 0 18))
  | 0xa9 => .ok (.gmovhi (bitsOf w 18 6) (bitsOf w 0 18))
  | _ => .error (.unassigned op)

/-- The words of major opcodes 0xb0 to 0xbf, bit [31] included. -/
def decodeBlockb (op w : Nat) : Except Reject Instr :=
  match op with
  | 0xb0 => .ok (.gcmp (guardBits w) (bitsOf w 18 2) (bitsOf w 15 3) (bitsOf w 12 3) (bitsOf w 6 6) (bitsOf w 0 6))
  | 0xb1 => if w / 8 % 8 = 0 ∧ w / 512 % 8 = 0 ∧ w / 32768 % 8 = 0 then .ok (.qlop (guardBits w) (bitsOf w 18 2) (bitsOf w 12 3) (bitsOf w 6 3) (bitsOf w 0 3)) else .error (.reserved op)
  | 0xb2 => if w % 64 = 0 ∧ w / 262144 % 4 = 0 then .ok (.gsr (guardBits w) (bitsOf w 12 6) (bitsOf w 6 6)) else .error (.reserved op)
  | 0xb3 => if w % 64 = 0 ∧ w / 262144 % 4 = 0 then .ok (.gsw (guardBits w) (bitsOf w 12 6) (bitsOf w 6 6)) else .error (.reserved op)
  | 0xb4 => .ok (.gfromv (guardBits w) (bitsOf w 18 2) (bitsOf w 12 6) (bitsOf w 6 6) (bitsOf w 0 6))
  | 0xb5 => if w / 16 % 4 = 0 then .ok (.greduce (guardBits w) (bitsOf w 18 2) (bitsOf w 12 6) (bitsOf w 6 6) (bitsOf w 0 4)) else .error (.reserved op)
  | 0xb6 => .ok (.gldk (guardBits w) (bitsOf w 18 2) (bitsOf w 12 6) (bitsOf w 6 6) (bitsOf w 0 6))
  | 0xb7 => .ok (.gstk (guardBits w) (bitsOf w 18 2) (bitsOf w 12 6) (bitsOf w 6 6) (bitsOf w 0 6))
  | 0xb8 => if w / 262144 % 4 = 0 then .ok (.tcopy (guardBits w) (bitsOf w 12 6) (bitsOf w 6 6) (bitsOf w 0 6)) else .error (.reserved op)
  | 0xb9 => if w / 262144 % 4 = 0 then .ok (.tcopyg (guardBits w) (bitsOf w 12 6) (bitsOf w 6 6) (bitsOf w 0 6)) else .error (.reserved op)
  | 0xba => if w % 64 = 0 ∧ w / 262144 % 4 = 0 then .ok (.barinit (guardBits w) (bitsOf w 12 6) (bitsOf w 6 6)) else .error (.reserved op)
  | 0xbb => if w % 64 = 0 ∧ w / 262144 % 4 = 0 then .ok (.barexp (guardBits w) (bitsOf w 12 6) (bitsOf w 6 6)) else if w % 64 = 0 ∧ w / 262144 % 4 = 1 then .ok (.barexpArv (guardBits w) (bitsOf w 12 6) (bitsOf w 6 6)) else .error (.reserved op)
  | 0xbc => if w / 64 % 64 = 0 ∧ w / 262144 % 4 = 0 then .ok (.bararv (guardBits w) (bitsOf w 12 6) (bitsOf w 0 6)) else .error (.reserved op)
  | 0xbd => if w % 64 = 0 ∧ w / 262144 % 4 = 0 then .ok (.barwait (guardBits w) (bitsOf w 12 6) (bitsOf w 6 6)) else .error (.reserved op)
  | 0xbe => if w / 8 % 8 = 0 ∧ w / 262144 % 4 = 0 then .ok (.bartry (guardBits w) (bitsOf w 12 6) (bitsOf w 6 6) (bitsOf w 0 3)) else .error (.reserved op)
  | _ => .error (.unassigned op)

/-- The words of major opcodes 0xc0 to 0xcf, bit [31] included. -/
def decodeBlockc (op w : Nat) : Except Reject Instr :=
  match op with
  | 0xc0 => if w / 16 % 4 = 0 then .ok (.mma (guardBits w) (bitsOf w 18 2) (bitsOf w 12 6) (bitsOf w 10 2) (bitsOf w 6 4) (bitsOf w 0 4)) else .error (.reserved op)
  | 0xc1 => if w % 2 = 0 then .ok (.mmag (guardBits w) (bitsOf w 18 2) (bitsOf w 12 6) (bitsOf w 10 2) (bitsOf w 6 4) (bitsOf w 1 5)) else .error (.reserved op)
  | 0xc2 => if w / 1024 % 4 = 0 then .ok (.mldt (guardBits w) (bitsOf w 18 2) (bitsOf w 12 6) (bitsOf w 6 4) (bitsOf w 0 6)) else .error (.reserved op)
  | 0xc3 => if w / 1024 % 4 = 0 then .ok (.mstt (guardBits w) (bitsOf w 18 2) (bitsOf w 12 6) (bitsOf w 6 4) (bitsOf w 0 6)) else .error (.reserved op)
  | 0xc4 => if w % 1024 = 0 ∧ w / 4096 % 256 = 0 then .ok (.mza (guardBits w) (bitsOf w 10 2)) else .error (.reserved op)
  | 0xc5 => if w % 64 = 0 then .ok (.mrdaTile (guardBits w) (bitsOf w 18 2) (bitsOf w 12 6) (bitsOf w 10 2) (bitsOf w 6 4)) else if w / 64 % 16 = 0 then .ok (.mrdaScratch (guardBits w) (bitsOf w 18 2) (bitsOf w 12 6) (bitsOf w 10 2) (bitsOf w 0 6)) else .error (.reserved op)
  | 0xc8 => if w % 4096 = 0 ∧ w / 262144 % 4 = 0 then .ok (.gbind (guardBits w) (bitsOf w 12 6)) else if w % 64 = 0 ∧ w / 262144 % 4 = 1 then .ok (.gbindN (guardBits w) (bitsOf w 12 6) (bitsOf w 6 6)) else if w % 1048576 = 524288 then .ok (.gbindUn (guardBits w)) else .error (.reserved op)
  | 0xc9 => if w % 4096 = 0 ∧ w / 262144 % 4 = 0 then .ok (.gstep (guardBits w) (bitsOf w 12 6)) else .error (.reserved op)
  | 0xca => if w % 64 = 0 ∧ w / 262144 % 4 = 0 then .ok (.gwait (guardBits w) (bitsOf w 12 6) (bitsOf w 6 6)) else if w / 8 % 8 = 0 ∧ w / 262144 % 4 = 1 then .ok (.gwaitTry (guardBits w) (bitsOf w 12 6) (bitsOf w 6 6) (bitsOf w 0 3)) else .error (.reserved op)
  | 0xcc => if w % 2 = 0 then .ok (.bxrun (guardBits w) (bitsOf w 18 2) (bitsOf w 12 6) (bitsOf w 6 6) (bitsOf w 1 5)) else .error (.reserved op)
  | 0xcd => if w % 64 = 0 ∧ w / 262144 % 4 = 0 then .ok (.bxwait (guardBits w) (bitsOf w 12 6) (bitsOf w 6 6)) else if w / 8 % 8 = 0 ∧ w / 262144 % 4 = 1 then .ok (.bxwaitTry (guardBits w) (bitsOf w 12 6) (bitsOf w 6 6) (bitsOf w 0 3)) else .error (.reserved op)
  | _ => .error (.unassigned op)

/-- The words of major opcodes 0xd0 to 0xdf, bit [31] included. -/
def decodeBlockd (op w : Nat) : Except Reject Instr :=
  match op with
  | 0xd0 => if w / 262144 % 4 = 0 then .ok (.rrel (guardBits w) (bitsOf w 12 6) (bitsOf w 6 6) (bitsOf w 0 6)) else .error (.reserved op)
  | 0xd1 => if w % 1048576 = 0 then .ok (.rfence (guardBits w)) else if w % 64 = 0 ∧ w / 262144 % 4 = 1 then .ok (.rfenceCnt (guardBits w) (bitsOf w 12 6) (bitsOf w 6 6)) else .error (.reserved op)
  | 0xd4 => if w % 64 = 0 ∧ w / 262144 % 4 = 0 then .ok (.launchG (guardBits w) (bitsOf w 12 6) (bitsOf w 6 6)) else .error (.reserved op)
  | 0xd5 => if w % 64 = 0 then .ok (.signalG (guardBits w) (bitsOf w 18 2) (bitsOf w 12 6) (bitsOf w 6 6)) else .error (.reserved op)
  | 0xd6 => if w % 64 = 0 then .ok (.waitge (guardBits w) (bitsOf w 18 2) (bitsOf w 12 6) (bitsOf w 6 6)) else .error (.reserved op)
  | 0xd7 => if w / 16 % 16384 = 0 then .ok (.fenceG (guardBits w) (bitsOf w 18 2) (bitsOf w 0 4)) else .error (.reserved op)
  | _ => .error (.unassigned op)

/-- The words of major opcodes 0xf0 to 0xff, bit [31] included. -/
def decodeBlockf (op w : Nat) : Except Reject Instr :=
  match op with
  | 0xf8 => if w / 262144 % 4 = 0 then .ok (.fresolve (guardBits w) (bitsOf w 12 6) (bitsOf w 6 6) (bitsOf w 0 6)) else .error (.reserved op)
  | 0xf9 => if w / 262144 % 4 = 0 then .ok (.rsreset (guardBits w) (bitsOf w 12 6) (bitsOf w 6 6) (bitsOf w 0 6)) else .error (.reserved op)
  | 0xfa => if w / 262144 % 4 = 0 then .ok (.ctxsave (guardBits w) (bitsOf w 12 6) (bitsOf w 6 6) (bitsOf w 0 6)) else .error (.reserved op)
  | 0xfb => if w / 262144 % 4 = 0 then .ok (.ctxload (guardBits w) (bitsOf w 12 6) (bitsOf w 6 6) (bitsOf w 0 6)) else .error (.reserved op)
  | _ => .error (.unassigned op)

/-- The instruction of a word, or why there is none. -/
def decodeWord (w : Nat) : Except Reject Instr :=
  let op := w / 16777216 % 256
  match op / 16 with
  | 0x0 => decodeBlock0 op w
  | 0x1 => decodeBlock1 op w
  | 0x2 => decodeBlock2 op w
  | 0x3 => decodeBlock3 op w
  | 0x4 => decodeBlock4 op w
  | 0x5 => decodeBlock5 op w
  | 0x6 => decodeBlock6 op w
  | 0x7 => decodeBlock7 op w
  | 0x8 => decodeBlock8 op w
  | 0x9 => decodeBlock9 op w
  | 0xa => decodeBlocka op w
  | 0xb => decodeBlockb op w
  | 0xc => decodeBlockc op w
  | 0xd => decodeBlockd op w
  | 0xf => decodeBlockf op w
  | _ => .error (.unassigned op)

/-- Decoding of any bytes: the instruction at their front and the rest of them. -/
def decode : List (BitVec 8) → Except Reject (Instr × List (BitVec 8))
  | b0 :: b1 :: b2 :: b3 :: rest =>
    match decodeWord (b0.toNat + 256 * b1.toNat + 65536 * b2.toNat + 16777216 * b3.toNat) with
    | .ok i => .ok (i, rest)
    | .error e => .error e
  | _ => .error .short

/-- The bytes of a word as memory holds them (R4, R71). -/
def wordBytes (w : Nat) : List (BitVec 8) :=
  [BitVec.ofNat 8 w, BitVec.ofNat 8 (w / 256), BitVec.ofNat 8 (w / 65536), BitVec.ofNat 8 (w / 16777216)]

/-- The instruction that the decoder reads from the bits `w` of one word. Every instruction is one 32-bit word (R82),
so bits above 31 are no part of it. -/
def decodeTableWord (nbits w : Nat) : Option Instr :=
  match decode (wordBytes (w % 2 ^ nbits)) with
  | .ok (i, _) => some i
  | .error _ => none

/-- The guard's bits in place. -/
def encGuard (g : Guard) : Nat := g.p.toNat * 2097152 + g.n.toNat * 1048576

/-- The word of an instruction, by the same tables. Events have no word: zero. -/
def encode : Instr → Nat
  | .nop => 0x80e00000
  | .bra f => 0x81e00000 + f.toNat
  | .brq p n f => 0x82000000 + p.toNat * 2097152 + n.toNat * 1048576 + f.toNat
  | .brx g a => 0x83000000 + encGuard g + a.toNat * 64
  | .callG l f => 0x84000000 + l.toNat * 2097152 + f.toNat
  | .retG g a => 0x85000000 + encGuard g + a.toNat * 64
  | .exitG g => 0x86000000 + encGuard g
  | .trapG g i => 0x87000000 + encGuard g + i.toNat
  | .joinat f => 0x88e00000 + f.toNat
  | .joinG g => 0x89000000 + encGuard g
  | .regang g => 0x8a000000 + encGuard g
  | .gfuseRcv g d a b => 0x8b000000 + encGuard g + d.toNat * 4096 + a.toNat * 64 + b.toNat
  | .gfuseDon g d a b => 0x8b040000 + encGuard g + d.toNat * 4096 + a.toNat * 64 + b.toNat
  | .yieldG g x y z => 0x8c000000 + encGuard g + x.toNat * 4096 + y.toNat * 64 + z.toNat
  | .pauseG n => 0x8d000000 + n.toNat
  | .idemend => 0x8ee00000
  | .gadd g d a b => 0x90000000 + encGuard g + d.toNat * 4096 + a.toNat * 64 + b.toNat
  | .gsub g d a b => 0x91000000 + encGuard g + d.toNat * 4096 + a.toNat * 64 + b.toNat
  | .gmul g d a b => 0x92000000 + encGuard g + d.toNat * 4096 + a.toNat * 64 + b.toNat
  | .gmulh g s d a b => 0x93000000 + encGuard g + s.toNat * 262144 + d.toNat * 4096 + a.toNat * 64 + b.toNat
  | .gmin g s d a b => 0x94000000 + encGuard g + s.toNat * 262144 + d.toNat * 4096 + a.toNat * 64 + b.toNat
  | .gmax g s d a b => 0x95000000 + encGuard g + s.toNat * 262144 + d.toNat * 4096 + a.toNat * 64 + b.toNat
  | .gmov g d a => 0x96000000 + encGuard g + d.toNat * 4096 + a.toNat * 64
  | .gand g d a b => 0x98000000 + encGuard g + d.toNat * 4096 + a.toNat * 64 + b.toNat
  | .gor g d a b => 0x99000000 + encGuard g + d.toNat * 4096 + a.toNat * 64 + b.toNat
  | .gxor g d a b => 0x9a000000 + encGuard g + d.toNat * 4096 + a.toNat * 64 + b.toNat
  | .gshl g d a b => 0x9b000000 + encGuard g + d.toNat * 4096 + a.toNat * 64 + b.toNat
  | .gshr g d a b => 0x9c000000 + encGuard g + d.toNat * 4096 + a.toNat * 64 + b.toNat
  | .gsar g d a b => 0x9d000000 + encGuard g + d.toNat * 4096 + a.toNat * 64 + b.toNat
  | .gaddi g d i => 0xa1000000 + encGuard g + d.toNat * 4096 + i.toNat
  | .gandi g d i => 0xa2000000 + encGuard g + d.toNat * 4096 + i.toNat
  | .gori g d i => 0xa3000000 + encGuard g + d.toNat * 4096 + i.toNat
  | .gxori g d i => 0xa4000000 + encGuard g + d.toNat * 4096 + i.toNat
  | .gshli g d i => 0xa5000000 + encGuard g + d.toNat * 4096 + i.toNat
  | .gshri g d i => 0xa6000000 + encGuard g + d.toNat * 4096 + i.toNat
  | .gsari g d i => 0xa7000000 + encGuard g + d.toNat * 4096 + i.toNat
  | .gmovi d i => 0xa8000000 + d.toNat * 262144 + i.toNat
  | .gmovhi d i => 0xa9000000 + d.toNat * 262144 + i.toNat
  | .gcmp g t c q a b => 0xb0000000 + encGuard g + t.toNat * 262144 + c.toNat * 32768 + q.toNat * 4096 + a.toNat * 64 + b.toNat
  | .qlop g m d a b => 0xb1000000 + encGuard g + m.toNat * 262144 + d.toNat * 4096 + a.toNat * 64 + b.toNat
  | .gsr g d s => 0xb2000000 + encGuard g + d.toNat * 4096 + s.toNat * 64
  | .gsw g s a => 0xb3000000 + encGuard g + s.toNat * 4096 + a.toNat * 64
  | .gfromv g t d a b => 0xb4000000 + encGuard g + t.toNat * 262144 + d.toNat * 4096 + a.toNat * 64 + b.toNat
  | .greduce g o d a t => 0xb5000000 + encGuard g + o.toNat * 262144 + d.toNat * 4096 + a.toNat * 64 + t.toNat
  | .gldk g m d a c => 0xb6000000 + encGuard g + m.toNat * 262144 + d.toNat * 4096 + a.toNat * 64 + c.toNat
  | .gstk g m d a c => 0xb7000000 + encGuard g + m.toNat * 262144 + d.toNat * 4096 + a.toNat * 64 + c.toNat
  | .tcopy g x y z => 0xb8000000 + encGuard g + x.toNat * 4096 + y.toNat * 64 + z.toNat
  | .tcopyg g x y z => 0xb9000000 + encGuard g + x.toNat * 4096 + y.toNat * 64 + z.toNat
  | .barinit g x y => 0xba000000 + encGuard g + x.toNat * 4096 + y.toNat * 64
  | .barexp g x y => 0xbb000000 + encGuard g + x.toNat * 4096 + y.toNat * 64
  | .barexpArv g x y => 0xbb040000 + encGuard g + x.toNat * 4096 + y.toNat * 64
  | .bararv g x z => 0xbc000000 + encGuard g + x.toNat * 4096 + z.toNat
  | .barwait g x y => 0xbd000000 + encGuard g + x.toNat * 4096 + y.toNat * 64
  | .bartry g x y z => 0xbe000000 + encGuard g + x.toNat * 4096 + y.toNat * 64 + z.toNat
  | .mma g m x k a b => 0xc0000000 + encGuard g + m.toNat * 262144 + x.toNat * 4096 + k.toNat * 1024 + a.toNat * 64 + b.toNat
  | .mmag g m x k b z => 0xc1000000 + encGuard g + m.toNat * 262144 + x.toNat * 4096 + k.toNat * 1024 + b.toNat * 64 + z.toNat * 2
  | .mldt g m x t z => 0xc2000000 + encGuard g + m.toNat * 262144 + x.toNat * 4096 + t.toNat * 64 + z.toNat
  | .mstt g m x t z => 0xc3000000 + encGuard g + m.toNat * 262144 + x.toNat * 4096 + t.toNat * 64 + z.toNat
  | .mza g k => 0xc4000000 + encGuard g + k.toNat * 1024
  | .mrdaTile g m x k t => 0xc5000000 + encGuard g + m.toNat * 262144 + x.toNat * 4096 + k.toNat * 1024 + t.toNat * 64
  | .mrdaScratch g m x k z => 0xc5000000 + encGuard g + m.toNat * 262144 + x.toNat * 4096 + k.toNat * 1024 + z.toNat
  | .gbind g x => 0xc8000000 + encGuard g + x.toNat * 4096
  | .gbindN g x y => 0xc8040000 + encGuard g + x.toNat * 4096 + y.toNat * 64
  | .gbindUn g => 0xc8080000 + encGuard g
  | .gstep g x => 0xc9000000 + encGuard g + x.toNat * 4096
  | .gwait g x y => 0xca000000 + encGuard g + x.toNat * 4096 + y.toNat * 64
  | .gwaitTry g x y z => 0xca040000 + encGuard g + x.toNat * 4096 + y.toNat * 64 + z.toNat
  | .bxrun g s x y z => 0xcc000000 + encGuard g + s.toNat * 262144 + x.toNat * 4096 + y.toNat * 64 + z.toNat * 2
  | .bxwait g x y => 0xcd000000 + encGuard g + x.toNat * 4096 + y.toNat * 64
  | .bxwaitTry g x y z => 0xcd040000 + encGuard g + x.toNat * 4096 + y.toNat * 64 + z.toNat
  | .rrel g x y z => 0xd0000000 + encGuard g + x.toNat * 4096 + y.toNat * 64 + z.toNat
  | .rfence g => 0xd1000000 + encGuard g
  | .rfenceCnt g d a => 0xd1040000 + encGuard g + d.toNat * 4096 + a.toNat * 64
  | .launchG g x y => 0xd4000000 + encGuard g + x.toNat * 4096 + y.toNat * 64
  | .signalG g s x y => 0xd5000000 + encGuard g + s.toNat * 262144 + x.toNat * 4096 + y.toNat * 64
  | .waitge g s x y => 0xd6000000 + encGuard g + s.toNat * 262144 + x.toNat * 4096 + y.toNat * 64
  | .fenceG g k s => 0xd7000000 + encGuard g + k.toNat * 262144 + s.toNat
  | .fresolve g x y z => 0xf8000000 + encGuard g + x.toNat * 4096 + y.toNat * 64 + z.toNat
  | .rsreset g x y z => 0xf9000000 + encGuard g + x.toNat * 4096 + y.toNat * 64 + z.toNat
  | .ctxsave g x y z => 0xfa000000 + encGuard g + x.toNat * 4096 + y.toNat * 64 + z.toNat
  | .ctxload g x y z => 0xfb000000 + encGuard g + x.toNat * 4096 + y.toNat * 64 + z.toNat
  | .iadd g m d a b => 0x00000000 + encGuard g + m.toNat * 262144 + d.toNat * 4096 + a.toNat * 64 + b.toNat
  | .isub g m d a b => 0x01000000 + encGuard g + m.toNat * 262144 + d.toNat * 4096 + a.toNat * 64 + b.toNat
  | .imul g d a b => 0x02000000 + encGuard g + d.toNat * 4096 + a.toNat * 64 + b.toNat
  | .imulh g s d a b => 0x03000000 + encGuard g + s.toNat * 262144 + d.toNat * 4096 + a.toNat * 64 + b.toNat
  | .imad g m d a b => 0x04000000 + encGuard g + m.toNat * 262144 + d.toNat * 4096 + a.toNat * 64 + b.toNat
  | .imin g m d a b => 0x05000000 + encGuard g + m.toNat * 262144 + d.toNat * 4096 + a.toNat * 64 + b.toNat
  | .imax g m d a b => 0x06000000 + encGuard g + m.toNat * 262144 + d.toNat * 4096 + a.toNat * 64 + b.toNat
  | .iabs g m d a => 0x07000000 + encGuard g + m.toNat * 262144 + d.toNat * 4096 + a.toNat * 64
  | .andL g w d a b => 0x08000000 + encGuard g + w.toNat * 262144 + d.toNat * 4096 + a.toNat * 64 + b.toNat
  | .orL g w d a b => 0x09000000 + encGuard g + w.toNat * 262144 + d.toNat * 4096 + a.toNat * 64 + b.toNat
  | .xorL g w d a b => 0x0a000000 + encGuard g + w.toNat * 262144 + d.toNat * 4096 + a.toNat * 64 + b.toNat
  | .notL g w d a => 0x0b000000 + encGuard g + w.toNat * 262144 + d.toNat * 4096 + a.toNat * 64
  | .shl g w d a b => 0x0c000000 + encGuard g + w.toNat * 262144 + d.toNat * 4096 + a.toNat * 64 + b.toNat
  | .shr g w d a b => 0x0d000000 + encGuard g + w.toNat * 262144 + d.toNat * 4096 + a.toNat * 64 + b.toNat
  | .sar g w d a b => 0x0e000000 + encGuard g + w.toNat * 262144 + d.toNat * 4096 + a.toNat * 64 + b.toNat
  | .mov g w d a => 0x0f000000 + encGuard g + w.toNat * 262144 + d.toNat * 4096 + a.toNat * 64
  | .bfe g s d a b => 0x10000000 + encGuard g + s.toNat * 262144 + d.toNat * 4096 + a.toNat * 64 + b.toNat
  | .bfi g d a b => 0x11000000 + encGuard g + d.toNat * 4096 + a.toNat * 64 + b.toNat
  | .popc g w d a => 0x12000000 + encGuard g + w.toNat * 262144 + d.toNat * 4096 + a.toNat * 64
  | .clz g w d a => 0x13000000 + encGuard g + w.toNat * 262144 + d.toNat * 4096 + a.toNat * 64
  | .brev g w d a => 0x14000000 + encGuard g + w.toNat * 262144 + d.toNat * 4096 + a.toNat * 64
  | .sel p n w d a b => 0x15000000 + p.toNat * 2097152 + n.toNat * 1048576 + w.toNat * 262144 + d.toNat * 4096 + a.toNat * 64 + b.toNat
  | .isetp g t c q a b => 0x16000000 + encGuard g + t.toNat * 262144 + c.toNat * 32768 + q.toNat * 4096 + a.toNat * 64 + b.toNat
  | .iadd64 g m d a b => 0x17000000 + encGuard g + m.toNat * 262144 + d.toNat * 4096 + a.toNat * 64 + b.toNat
  | .isub64 g m d a b => 0x18000000 + encGuard g + m.toNat * 262144 + d.toNat * 4096 + a.toNat * 64 + b.toNat
  | .iaddi g d i => 0x19000000 + encGuard g + d.toNat * 4096 + i.toNat
  | .imuli g d i => 0x1a000000 + encGuard g + d.toNat * 4096 + i.toNat
  | .andi g d i => 0x1b000000 + encGuard g + d.toNat * 4096 + i.toNat
  | .ori g d i => 0x1c000000 + encGuard g + d.toNat * 4096 + i.toNat
  | .xori g d i => 0x1d000000 + encGuard g + d.toNat * 4096 + i.toNat
  | .shli g d i => 0x1e000000 + encGuard g + d.toNat * 4096 + i.toNat
  | .shri g d i => 0x1f000000 + encGuard g + d.toNat * 4096 + i.toNat
  | .sari g d i => 0x20000000 + encGuard g + d.toNat * 4096 + i.toNat
  | .movi d i => 0x21000000 + d.toNat * 262144 + i.toNat
  | .movhi d i => 0x22000000 + d.toNat * 262144 + i.toNat
  | .plop g m d a b => 0x24000000 + encGuard g + m.toNat * 262144 + d.toNat * 4096 + a.toNat * 64 + b.toNat
  | .pmovTov g d => 0x25000000 + encGuard g + d.toNat * 4096
  | .pmovFromv g a => 0x25040000 + encGuard g + a.toNat * 64
  | .pmovFromq g d a => 0x25080000 + encGuard g + d.toNat * 4096 + a.toNat * 64
  | .faddF32 g m d a b => 0x28000000 + encGuard g + m.toNat * 262144 + d.toNat * 4096 + a.toNat * 64 + b.toNat
  | .fsubF32 g m d a b => 0x29000000 + encGuard g + m.toNat * 262144 + d.toNat * 4096 + a.toNat * 64 + b.toNat
  | .fmulF32 g m d a b => 0x2a000000 + encGuard g + m.toNat * 262144 + d.toNat * 4096 + a.toNat * 64 + b.toNat
  | .ffmaF32 g m d a b => 0x2b000000 + encGuard g + m.toNat * 262144 + d.toNat * 4096 + a.toNat * 64 + b.toNat
  | .fminF32 g f d a b => 0x2c000000 + encGuard g + f.toNat * 262144 + d.toNat * 4096 + a.toNat * 64 + b.toNat
  | .fmaxF32 g f d a b => 0x2d000000 + encGuard g + f.toNat * 262144 + d.toNat * 4096 + a.toNat * 64 + b.toNat
  | .fdivF32 g m d a b => 0x2e000000 + encGuard g + m.toNat * 262144 + d.toNat * 4096 + a.toNat * 64 + b.toNat
  | .fsqrtF32 g m d a f => 0x2f000000 + encGuard g + m.toNat * 262144 + d.toNat * 4096 + a.toNat * 64 + f.toNat
  | .frcpaF32 g f d a => 0x30000000 + encGuard g + f.toNat * 262144 + d.toNat * 4096 + a.toNat * 64
  | .frsqaF32 g f d a => 0x31000000 + encGuard g + f.toNat * 262144 + d.toNat * 4096 + a.toNat * 64
  | .fsetpF32 g f c q a b => 0x32000000 + encGuard g + f.toNat * 262144 + c.toNat * 32768 + q.toNat * 4096 + a.toNat * 64 + b.toNat
  | .fclassF32 g f d a => 0x33000000 + encGuard g + f.toNat * 262144 + d.toNat * 4096 + a.toNat * 64
  | .faddF64 g m d a b => 0x38000000 + encGuard g + m.toNat * 262144 + d.toNat * 4096 + a.toNat * 64 + b.toNat
  | .fsubF64 g m d a b => 0x39000000 + encGuard g + m.toNat * 262144 + d.toNat * 4096 + a.toNat * 64 + b.toNat
  | .fmulF64 g m d a b => 0x3a000000 + encGuard g + m.toNat * 262144 + d.toNat * 4096 + a.toNat * 64 + b.toNat
  | .ffmaF64 g m d a b => 0x3b000000 + encGuard g + m.toNat * 262144 + d.toNat * 4096 + a.toNat * 64 + b.toNat
  | .fminF64 g d a b => 0x3c000000 + encGuard g + d.toNat * 4096 + a.toNat * 64 + b.toNat
  | .fmaxF64 g d a b => 0x3d000000 + encGuard g + d.toNat * 4096 + a.toNat * 64 + b.toNat
  | .fdivF64 g m d a b => 0x3e000000 + encGuard g + m.toNat * 262144 + d.toNat * 4096 + a.toNat * 64 + b.toNat
  | .fsqrtF64 g m d a => 0x3f000000 + encGuard g + m.toNat * 262144 + d.toNat * 4096 + a.toNat * 64
  | .frcpaF64 g d a => 0x40000000 + encGuard g + d.toNat * 4096 + a.toNat * 64
  | .frsqaF64 g d a => 0x41000000 + encGuard g + d.toNat * 4096 + a.toNat * 64
  | .fsetpF64 g c q a b => 0x42000000 + encGuard g + c.toNat * 32768 + q.toNat * 4096 + a.toNat * 64 + b.toNat
  | .fclassF64 g d a => 0x43000000 + encGuard g + d.toNat * 4096 + a.toNat * 64
  | .cvt g m d a b => 0x44000000 + encGuard g + m.toNat * 262144 + d.toNat * 4096 + a.toNat * 64 + b.toNat
  | .cvtblk g l d a s => 0x45000000 + encGuard g + l.toNat * 262144 + d.toNat * 4096 + a.toNat * 64 + s.toNat
  | .cvtblkX g l d a b => 0x45080000 + encGuard g + l.toNat * 262144 + d.toNat * 4096 + a.toNat * 64 + b.toNat
  | .cvtsat g m d a b => 0x46000000 + encGuard g + m.toNat * 262144 + d.toNat * 4096 + a.toNat * 64 + b.toNat
  | .faddF16x2 g m d a b => 0x48000000 + encGuard g + m.toNat * 262144 + d.toNat * 4096 + a.toNat * 64 + b.toNat
  | .fmulF16x2 g m d a b => 0x49000000 + encGuard g + m.toNat * 262144 + d.toNat * 4096 + a.toNat * 64 + b.toNat
  | .ffmaF16x2 g m d a b => 0x4a000000 + encGuard g + m.toNat * 262144 + d.toNat * 4096 + a.toNat * 64 + b.toNat
  | .fminF16x2 g f d a b => 0x4b000000 + encGuard g + f.toNat * 262144 + d.toNat * 4096 + a.toNat * 64 + b.toNat
  | .fmaxF16x2 g f d a b => 0x4c000000 + encGuard g + f.toNat * 262144 + d.toNat * 4096 + a.toNat * 64 + b.toNat
  | .fsetpF16x2 g m c q a b => 0x4d000000 + encGuard g + m.toNat * 262144 + c.toNat * 32768 + q.toNat * 4096 + a.toNat * 64 + b.toNat
  | .faddBf16x2 g m d a b => 0x50000000 + encGuard g + m.toNat * 262144 + d.toNat * 4096 + a.toNat * 64 + b.toNat
  | .fmulBf16x2 g m d a b => 0x51000000 + encGuard g + m.toNat * 262144 + d.toNat * 4096 + a.toNat * 64 + b.toNat
  | .ffmaBf16x2 g m d a b => 0x52000000 + encGuard g + m.toNat * 262144 + d.toNat * 4096 + a.toNat * 64 + b.toNat
  | .fminBf16x2 g d a b => 0x53000000 + encGuard g + d.toNat * 4096 + a.toNat * 64 + b.toNat
  | .fmaxBf16x2 g d a b => 0x54000000 + encGuard g + d.toNat * 4096 + a.toNat * 64 + b.toNat
  | .fsetpBf16x2 g m c q a b => 0x55000000 + encGuard g + m.toNat * 262144 + c.toNat * 32768 + q.toNat * 4096 + a.toNat * 64 + b.toNat
  | .vote g m d a => 0x58000000 + encGuard g + m.toNat * 262144 + d.toNat * 4096 + a.toNat * 64
  | .voteBallot g d a => 0x58080000 + encGuard g + d.toNat * 4096 + a.toNat * 64
  | .shfl g m d a b => 0x59000000 + encGuard g + m.toNat * 262144 + d.toNat * 4096 + a.toNat * 64 + b.toNat
  | .vfromg g m d a => 0x5a000000 + encGuard g + m.toNat * 262144 + d.toNat * 4096 + a.toNat * 64
  | .lsr g d s => 0x5b000000 + encGuard g + d.toNat * 4096 + s.toNat * 64
  | .dbr p n f => 0x5c000000 + p.toNat * 2097152 + n.toNat * 1048576 + f.toNat
  | .exitl g => 0x5d000000 + encGuard g
  | .ldg g m d a c => 0x60000000 + encGuard g + m.toNat * 262144 + d.toNat * 4096 + a.toNat * 64 + c.toNat
  | .ldgh g s d a c => 0x61000000 + encGuard g + s.toNat * 262144 + d.toNat * 4096 + a.toNat * 64 + c.toNat
  | .ldgb g s d a c => 0x62000000 + encGuard g + s.toNat * 262144 + d.toNat * 4096 + a.toNat * 64 + c.toNat
  | .stg g m d a c => 0x63000000 + encGuard g + m.toNat * 262144 + d.toNat * 4096 + a.toNat * 64 + c.toNat
  | .stgh g d a c => 0x64000000 + encGuard g + d.toNat * 4096 + a.toNat * 64 + c.toNat
  | .stgb g d a c => 0x65000000 + encGuard g + d.toNat * 4096 + a.toNat * 64 + c.toNat
  | .lda g w d a s => 0x66000000 + encGuard g + w.toNat * 262144 + d.toNat * 4096 + a.toNat * 64 + s.toNat
  | .stl g w d a s => 0x67000000 + encGuard g + w.toNat * 262144 + d.toNat * 4096 + a.toNat * 64 + s.toNat
  | .lds g m d a c => 0x68000000 + encGuard g + m.toNat * 262144 + d.toNat * 4096 + a.toNat * 64 + c.toNat
  | .ldsh g s d a c => 0x69000000 + encGuard g + s.toNat * 262144 + d.toNat * 4096 + a.toNat * 64 + c.toNat
  | .ldsb g s d a c => 0x6a000000 + encGuard g + s.toNat * 262144 + d.toNat * 4096 + a.toNat * 64 + c.toNat
  | .sts g m d a c => 0x6b000000 + encGuard g + m.toNat * 262144 + d.toNat * 4096 + a.toNat * 64 + c.toNat
  | .stsh g d a c => 0x6c000000 + encGuard g + d.toNat * 4096 + a.toNat * 64 + c.toNat
  | .stsb g d a c => 0x6d000000 + encGuard g + d.toNat * 4096 + a.toNat * 64 + c.toNat
  | .gld g m d a c => 0x6e000000 + encGuard g + m.toNat * 262144 + d.toNat * 4096 + a.toNat * 64 + c.toNat
  | .cctl g a c => 0x6f000000 + encGuard g + a.toNat * 64 + c.toNat
  | .atomAdd g r d a w f s => 0x70000000 + encGuard g + r.toNat * 262144 + d.toNat * 4096 + a.toNat * 64 + w.toNat * 32 + f.toNat * 16 + s.toNat
  | .atomFadd g x r d a w f s => 0x71000000 + encGuard g + x.toNat * 524288 + r.toNat * 262144 + d.toNat * 4096 + a.toNat * 64 + w.toNat * 32 + f.toNat * 16 + s.toNat
  | .atomMin g u r d a w f s => 0x72000000 + encGuard g + u.toNat * 524288 + r.toNat * 262144 + d.toNat * 4096 + a.toNat * 64 + w.toNat * 32 + f.toNat * 16 + s.toNat
  | .atomMax g u r d a w f s => 0x73000000 + encGuard g + u.toNat * 524288 + r.toNat * 262144 + d.toNat * 4096 + a.toNat * 64 + w.toNat * 32 + f.toNat * 16 + s.toNat
  | .atomBit g m d a w f s => 0x74000000 + encGuard g + m.toNat * 262144 + d.toNat * 4096 + a.toNat * 64 + w.toNat * 32 + f.toNat * 16 + s.toNat
  | .atomExch g d a w f s => 0x75000000 + encGuard g + d.toNat * 4096 + a.toNat * 64 + w.toNat * 32 + f.toNat * 16 + s.toNat
  | .cas g d a w f s => 0x76000000 + encGuard g + d.toNat * 4096 + a.toNat * 64 + w.toNat * 32 + f.toNat * 16 + s.toNat
  | .atomsc g m d a w s => 0x77000000 + encGuard g + m.toNat * 262144 + d.toNat * 4096 + a.toNat * 64 + w.toNat * 32 + s.toNat
  | .rld g m d a c => 0x78000000 + encGuard g + m.toNat * 262144 + d.toNat * 4096 + a.toNat * 64 + c.toNat
  | .rst g m d a c => 0x79000000 + encGuard g + m.toNat * 262144 + d.toNat * 4096 + a.toNat * 64 + c.toNat
  | .ratom g m d a c => 0x7a000000 + encGuard g + m.toNat * 262144 + d.toNat * 4096 + a.toNat * 64 + c.toNat
  | .rldv g m d a c => 0x7b000000 + encGuard g + m.toNat * 262144 + d.toNat * 4096 + a.toNat * 64 + c.toNat
  | .rstv g m d a c => 0x7c000000 + encGuard g + m.toNat * 262144 + d.toNat * 4096 + a.toNat * 64 + c.toNat
  | .ratomv g m d a c => 0x7d000000 + encGuard g + m.toNat * 262144 + d.toNat * 4096 + a.toNat * 64 + c.toNat
  | _ => 0

end Sys2Proof
end

