-- ==== Sys2Proof/Machine/Map.lean ====
section
/-! DEFINITION. Operations on sparse maps by key, memory's canonical form, and the byte and bit helpers that the layers
above share. -/
namespace Sys2Proof.Machine

/-- The entry at a key. -/
def smFind {α : Type} : SMap α → Nat → Option α
  | [], _ => none
  | (j, a) :: m, k => if j = k then some a else smFind m k
/-- Insert or replace at a key, keys kept rising. -/
def smPut {α : Type} : SMap α → Nat → α → SMap α
  | [], k, a => [(k, a)]
  | (j, b) :: m, k, a => if k < j then (k, a) :: (j, b) :: m else if j = k then (k, a) :: m else (j, b) :: smPut m k a
/-- Remove a key. -/
def smDel {α : Type} : SMap α → Nat → SMap α
  | [], _ => []
  | (j, b) :: m, k => if j = k then smDel m k else (j, b) :: smDel m k
/-- The value at a key, `d` where none is listed. -/
def smGet {α : Type} (m : SMap α) (k : Nat) (d : α) : α := (smFind m k).getD d
/-- Store a value so that `d` is never listed. -/
def smSet {α : Type} [DecidableEq α] (m : SMap α) (k : Nat) (a d : α) : SMap α :=
  if a = d then smDel m k else smPut m k a
/-- Apply a function to every entry's value. -/
def smMap {α β : Type} (f : Nat → α → β) (m : SMap α) : SMap β := List.map (fun p => (p.1, f p.1 p.2)) m
/-- The keys of entries that satisfy a test. -/
def smKeys {α : Type} (f : Nat → α → Bool) (m : SMap α) : List Nat :=
  List.map Prod.fst (List.filter (fun p => f p.1 p.2) m)
/-- Keep the entries that satisfy a test. -/
def smKeep {α : Type} (f : Nat → α → Bool) (m : SMap α) : SMap α := List.filter (fun p => f p.1 p.2) m
/-- Update an entry that is there. -/
def smAdj {α : Type} (m : SMap α) (k : Nat) (f : α → α) : SMap α :=
  match smFind m k with
  | some a => smPut m k (f a)
  | none => m
/-- The canonical form: keys strictly rising and no entry equal to the default. -/
def smCanon {α : Type} [DecidableEq α] (d : α) (m : SMap α) : Bool :=
  decide (List.Pairwise (fun a b => a.1 < b.1) m) && List.all m (fun p => p.2 ≠ d)

/-- What a byte of a frame that nothing has written reads as (log 4). -/
def unwritten : Byte := 0
/-- Memory's canonical form. -/
def Memory.wf (m : Memory) : Bool := smCanon unwritten m
/-- Read one byte of a frame. -/
def readByte (m : Memory) (a : Nat) : Byte := smGet m a unwritten
/-- Write one byte of a frame. -/
def writeByte (m : Memory) (a : Nat) (b : Byte) : Memory := smSet m a b unwritten
/-- Read n bytes from an address up. -/
def readBytes (m : Memory) (a n : Nat) : List Byte := List.map (fun i => readByte m (a + i)) (List.range n)
/-- Write bytes from an address up. -/
def writeBytes (m : Memory) (a : Nat) : List Byte → Memory
  | [] => m
  | b :: bs => writeBytes (writeByte m a b) (a + 1) bs

/-- The little-endian value of bytes (R4). -/
def leNat : List Byte → Nat
  | [] => 0
  | b :: bs => b.toNat + 256 * leNat bs
/-- n little-endian bytes of a value (R4). -/
def toBytes : Nat → Nat → List Byte
  | 0, _ => []
  | n + 1, v => BitVec.ofNat 8 v :: toBytes n (v / 256)

/-- Bits [lo + n - 1 : lo] of a natural number. -/
def fld (v lo n : Nat) : Nat := v / 2 ^ lo % 2 ^ n
/-- Replace bits [lo + n - 1 : lo]. -/
def setFld (v lo n x : Nat) : Nat := v - fld v lo n * 2 ^ lo + x % 2 ^ n * 2 ^ lo
/-- The set bits of a mask, ascending. -/
def bitList {w : Nat} (m : BitVec w) : List Nat := (List.range w).filter (m.getLsbD ·)
/-- The mask of some bit numbers. -/
def ofBits (w : Nat) (l : List Nat) : BitVec w := l.foldl (fun m i => m ||| (1#w <<< i)) 0#w
/-- The number of set bits. -/
def popCount {w : Nat} (m : BitVec w) : Nat := (bitList m).length
/-- Sign extension of the low n bits to 64. -/
def sext64 (n v : Nat) : B64 :=
  if 2 ^ (n - 1) ≤ v % 2 ^ n then BitVec.ofNat 64 (v % 2 ^ n) - BitVec.ofNat 64 (2 ^ n) else BitVec.ofNat 64 (v % 2 ^ n)
/-- The remaining bytes from i on, replaced by some bytes. -/
def patch (l : List Byte) (i : Nat) (bs : List Byte) : List Byte := l.take i ++ bs ++ l.drop (i + bs.length)
/-- Round n up to a multiple of k. -/
def roundUp (n k : Nat) : Nat := (n + k - 1) / k * k

end Sys2Proof.Machine
end

