-- ==== Sys2Proof/Machine/State.lean ====
section
/-! DEFINITION. The state of one package as plain data: everything the spec names (INVENTORY.md lists it), the two
reason types of a stop, and the state after package cold reset. -/
namespace Sys2Proof.Machine

/-- A five-bit flag vector: IV, DZ, OF, UF, IX from bit 0 (R135). -/
abbrev Flags5 := BitVec 5

/-- Why the machine stops with a fault. No architectural fault of the V8 is one: every fault of R361 is a next state. -/
inductive Fault where
  /-- Raised by `step` when the fragment chosen to issue holds no word (a state that no step makes). Safe: the machine
  stops where the hardware has no such state. -/
  | noWord
  deriving DecidableEq, Repr

/-- Why an instruction is refused. -/
inductive Refusal where
  /-- Raised by an arm of `exec` whose instruction has no meaning yet. Safe. -/
  | notModelled (mnemonic : String)
  /-- Raised by a word executed while no fragment or executor context is the issuer. Safe: a word has no effect without
  one. -/
  | noIssuer
  deriving DecidableEq, Repr

/-- The fault codes of R361; DIE_LOST with the lost socket, which its record names (R363). -/
inductive Code where
  | illegalInstr | illegalClause | illegalConvergence | divergenceOverflow | misaligned | trap | fpTrap
  | pageNotPresent | writeProtect | permission | windowMiss | asyncFault | staleHalo | gridDescriptor
  | remoteAccess | remoteTimeout | flagPoisoned | remoteWriteFaulted | fabricIncomplete | streamOverrun
  | dataPoison | dieLost (sock : Nat) | executorFault
  deriving DecidableEq, Repr

/-- The classes of R360. -/
inductive Cls where
  | parked | terminated | async
  deriving DecidableEq, Repr

/-- Who issues the word that `exec` runs: a fragment of a gang, or an executor run. -/
inductive Agent where
  | none
  | frag (gid e : Nat)
  | run (r : Nat)
  deriving DecidableEq, Repr

/-- What the inbox holds: an event of the opcode table, the choice of the next issuer, the passing of package time, an
eviction of a cached line (core or die and line key), a sensor or power reading, and soft errors (R204, R379): corrected
ones, uncorrectable ones of a frame, cache or scratchpad granule, in a word that the next instruction of an issuer reads,
in a fragment's own state; the early arrival of a result (R80); the loss of a held or cached translation; and the host's
settings of a function. The model's own (log 1). -/
inductive Input where
  | ev (i : Instr)
  | turn (a : Agent)
  | time (n : Nat)
  | evictL1 (key : Nat)
  | evictL2 (key : Nat)
  | sense (sock degrees : Nat)
  /-- A socket's supply fails, or is good again (R390). -/
  | supply (sock : Nat) (bad : Bool)
  | watts (n : Nat)
  | corrected
  | badFrame (pa : Nat)
  | badScratch (wg a : Nat)
  | badRead (gid e : Nat) (mask : BitVec 32)
  | badState (gid e : Nat)
  /-- One result of an outstanding operation reaches its register before the flag falls (R80). -/
  | land (op key : Nat)
  /-- An uncorrectable error in an L1 or L2 line (R204). -/
  | badL1 (key : Nat)
  | badL2 (key : Nat)
  /-- A holder loses a translation: its own eviction, or the refusal of a request that arrives after the expiry (R211). -/
  | unhold (key : Nat)
  /-- The translation home loses a cached entry (R206). -/
  | dropPte (key : Nat)
  /-- The translation home evicts a page's lease record (R211). -/
  | dropLease (key : Nat)
  /-- A switch of a plane discards flits that have aged (R329). -/
  | aged (plane : Nat)
  /-- The host enables or disables a virtual function, or presents it through other ports (R39). -/
  | function (ten : Nat) (enabled : Bool) (ports : BitVec 2)
  deriving DecidableEq, Repr

/-! Memory operations. -/

/-- Read-modify-write operations (R233, R235, R236, R340). -/
inductive AOp where
  | add | fadd | fadd2 | minS | minU | maxS | maxU | and_ | or_ | xor_ | exch | cas | st
  deriving DecidableEq, Repr

/-- The ordering form of an access. -/
inductive MForm where
  | plain
  /-- LDA and STL at a scope code (R229). -/
  | ordered (scope : Nat)
  /-- The ATOM family, CAS, ATOMSC and RATOM. -/
  | atomic (op : AOp) (nr far sc : Bool) (scope : Nat)
  /-- GLD with its step tag (R237). -/
  | grid (tag : Nat)
  /-- CCTL with an address, by operation (R232). -/
  | cctl (op : Nat)
  deriving DecidableEq, Repr

inductive MDir where
  | load | store | atom
  deriving DecidableEq, Repr

/-- Where an access goes. -/
inductive MSpace where
  | global | scratch | remote
  deriving DecidableEq, Repr

/-- What a memory instruction does in each lane: everything its word fixes. -/
structure MDesc where
  form : MForm
  dir : MDir
  space : MSpace
  size : Nat
  sext : Bool
  d : Nat
  hint : Nat
  stream : Nat
  /-- GLDK and GSTK: one access, to and from a g register (R156). -/
  uniform : Bool
  deriving DecidableEq, Repr

/-- One lane's access: its address and its data operand (compare in `lo`, swap in `hi` for CAS), read at issue. -/
structure LaneReq where
  lane : Nat
  va : B64
  lo : B64
  hi : B64
  peer : Nat
  deriving DecidableEq, Repr

/-- A memory-side fault of a lane (R224): its code, address, and whether it parks. -/
structure Bad where
  lane : LaneReq
  code : Code
  addr : B64
  parks : Bool
  deriving DecidableEq, Repr

/-- A format-block record with its headers, read at issue (R256, R257). -/
structure FmtRec where
  fa : Nat
  fb : Nat
  accm : Nat
  bl : Nat
  hdrA : List Nat
  hdrB : List Nat
  deriving DecidableEq, Repr

/-- A matrix instruction in flight, with the operands read at issue. -/
inductive MatOp where
  | mma (ta tb : Bool) (acc a b : Nat) (r : FmtRec)
  | mmag (tb : Bool) (acc b : Nat) (r : FmtRec)
  | mldt (tile : Nat)
  | mstt (tile : Nat)
  | mza (acc : Nat)
  | mrdaT (acc tile mode typ rnd : Nat) (sat : Bool)
  | mrdaS (acc mode typ rnd : Nat) (sat : Bool) (addr stride : Nat)
  deriving DecidableEq, Repr

/-- The kinds of long-latency operation (R77). -/
inductive OpKind where
  | mem (m : MDesc)
  | fdiv
  /-- A matrix instruction with its gang's %stream at issue. -/
  | mat (m : MatOp) (stream : Nat)
  /-- LAUNCH, whose result is written when it completes (R157). -/
  | launch
  deriving DecidableEq, Repr

/-- An outstanding long-latency operation (R77-R80, R225). -/
structure Op where
  gid : Nat
  entry : Nat
  flag : Nat
  pc : B64
  word : B32
  kind : OpKind
  /-- Lanes or rows not yet performed because of a retry, a migrating page or a host bit. -/
  todo : List LaneReq
  /-- Lanes whose response is outstanding (fabric or CXL). -/
  resp : List LaneReq
  /-- Memory-side faults met. -/
  bad : List Bad
  /-- Lane results awaiting completion, by register and lane. -/
  out : SMap B32
  /-- Group results awaiting completion. -/
  gout : List (Nat × B64)
  trap : Lanes
  fl : Flags5
  /-- MMAG, MLDT and MSTT latch: row * 64 + byte. -/
  latch : SMap Byte
  /-- Rows that a skip left unmoved (R265). The row-done mask of R264 is the rows with no word waiting. -/
  rows : B32
  latched : Bool
  parked : Bool
  /-- A stalled GLD's deadline (R238). -/
  deadline : Nat
  /-- The stores performed so far, whose bytes may together fill a poisoned granule (R378). -/
  did : List LaneReq
  deriving DecidableEq, Repr

/-! Gangs. -/

/-- The states of R105. -/
inductive FState where
  | ready | joinWait | regangWait | fuseWait | blocked
  deriving DecidableEq, Repr

/-- How a parked fragment's instruction replays (R162, R225). -/
inductive ParkKind where
  /-- A memory or matrix operation, by its id. -/
  | op (k : Nat)
  /-- TRAP (R145). -/
  | trap
  /-- A page fault of a clause fetch (R75, R76): resumed by fetching again. -/
  | fetch
  /-- A single act repeated with the g operands read at first issue: LAUNCH, TCOPY, WAITGE, GWAIT, GBIND, SIGNAL,
  RSRESET, RREL, RATOM on a refused pair. -/
  | redo (i : Instr) (vals : List B64)
  /-- A barrier wait or test with ERR set (R249, R250): for BARTRY, the predicate it writes. -/
  | barrier (addr : Nat) (ph : Bool) (try_ : Option Nat)
  deriving DecidableEq, Repr

structure Parked where
  code : Code
  kind : ParkKind
  mask : Lanes
  addr : B64
  pc : B64
  word : B32
  /-- R368: resolvable once its record is written or dropped. -/
  resolvable : Bool
  deriving DecidableEq, Repr

/-- What a BLOCKED or FUSEWAIT fragment waits for. -/
inductive Wait where
  | none
  /-- An operation that must complete first: a faulted one, a retried one, an outstanding response, a trapping FDIV. -/
  | op (k : Nat)
  | parked (p : Parked)
  /-- BARWAIT and YIELD (R247): barrier address, phase operand, and the word. -/
  | barrier (addr : Nat) (ph : Bool) (pc : B64) (word : B32)
  /-- WAITGE (R159): counter, target, scope code M. -/
  | counter (va tgt : B64) (m : Nat)
  /-- GSTEP, or GBIND waiting for step 0 (R274, R275): binding and step. -/
  | step (b s : Nat)
  /-- GBIND waiting for an ending binding to end (R273): descriptor VA, P, and whether `.n`. -/
  | bind (va : B64) (p : Nat)
  /-- A stalled GWAIT (R282): tag, face mask, deadline, and the binding that it waits on. -/
  | faces (tag mask : Nat) (deadline : Nat) (bid : Nat)
  /-- BXWAIT (R290): destination register and slot mask. -/
  | slots (x mask : Nat)
  /-- RSRESET (R163): context, stream, peer, destination, deadline, and the reply's status when it came. -/
  | reset (ctx stream peer z : Nat) (deadline : Nat) (ack : Bool)
  /-- CTXSAVE (R164): target context and destination. -/
  | save (ctx z : Nat)
  /-- GFUSE (R116): role (receiver), mask, partner number, destination. -/
  | fuse (rcv : Bool) (mask partner : B64) (d : Nat)
  /-- An act that has issued and waits for a read or for room: a copy command, GBIND, CTXLOAD (R164, R243, R273). -/
  | redo (i : Instr) (vals : List B64)
  deriving DecidableEq, Repr

/-- A fetched clause (R71, R75). `stale` asks for the re-fetch of R76 before another word of it issues. -/
structure Clause where
  hdr : B64
  word : B32
  words : List B32
  started : Bool
  stale : Bool
  deriving DecidableEq, Repr

/-- A split-table entry (R105) with the fragment's own issue state. -/
structure Frag where
  st : FState
  smask : BitVec 8
  pc : B64
  rpc : B64
  rv : Bool
  /-- The header of the fragment's current clause: equal to `pc` before a clause is fetched afresh. -/
  hdr : B64
  clause : Option Clause
  /-- PAUSE penalty cycles left to run; 0 for none (R104). -/
  penalty : Nat
  bypass : Nat
  urgent : Bool
  /-- The last step at which the fragment was not ready, or issued: its age, the lower the older (R102). -/
  age : Nat
  wait : Wait
  deriving DecidableEq, Repr

/-- A divergence-stack entry (R107): K, LMASK, RPC, RV and PC. -/
structure SEntry where
  join : Bool
  lmask : BitVec 4
  rpc : B64
  rv : Bool
  pc : B64
  deriving DecidableEq, Repr

/-- A spilled record (R107, R108). -/
structure Spill where
  slice : Nat
  depth : Nat
  e : SEntry
  deriving DecidableEq, Repr

/-- Run-slot states (R290). -/
inductive Slot where
  | idle | running | ended | faulted
  deriving DecidableEq, Repr

/-- Why a gang issues nothing more. -/
inductive Ending where
  | exit
  | fault
  deriving DecidableEq, Repr

structure Gang where
  ctx : Nat
  ten : Nat
  launch : Option Nat
  wg : Option Nat
  f1 : Nat
  lantern : Bool
  launchId : B64
  wid : B64
  core : Nat
  quarter : Nat
  slot : Nat
  prio : Nat
  regs : Nat
  tilesN : Nat
  accsN : Nat
  spillN : Nat
  scratchN : Nat
  idem : Bool
  ctt : B64
  g : SMap B64
  q : BitVec 8
  v : SMap B32
  p : SMap B32
  owid : SMap B64
  fpcr : BitVec 2
  fpsr : Flags5
  stream : BitVec 4
  hint : BitVec 2
  flags : SMap Nat
  tile : SMap Byte
  acc : SMap (BitVec 36)
  slots : SMap Slot
  bind : Option Nat
  step : Nat
  live : Lanes
  /-- Exited lanes whose removal has not yet taken effect (R114). -/
  gone : Lanes
  mask : Lanes
  stk : SMap (List SEntry)
  spills : SMap Spill
  frags : SMap Frag
  ending : Option Ending
  /-- Stopped for a save or by a cut: issues nothing (R370, R373). -/
  held : Bool
  deriving DecidableEq, Repr

structure Workgroup where
  launch : Nat
  cluster : Nat
  f2 : Nat
  ctx : Nat
  ten : Nat
  core : Nat
  scratchN : Nat
  alloc : Nat
  scratch : SMap Byte
  gangs : List Nat
  left : Nat
  regionEnded : Bool
  failed : Bool
  /-- Barriers whose ERR an abandoned copy or an overflow has set since it was cleared (R249). -/
  errBad : SMap Bool
  /-- Live barriers, those that a BARINIT has written, by byte address: whether a plain store has changed one since (R244,
  log 32). -/
  bars : SMap Bool
  deriving DecidableEq, Repr

/-- A launch, queued to completing (R46-R53). -/
structure Launch where
  ctx : Nat
  ten : Nat
  prio : Nat
  hdrVa : B64
  hdr : BitVec 1024
  id : B64
  eligible : Bool
  /-- The time of the next retry, 0 for none; and which records are posted: wait counters 0 to 3, then signals 0 and 1
  (R49, R51). -/
  retryAt : Nat
  posted : BitVec 6
  nextCluster : Nat
  /-- Discarded clusters waiting to restart (R371). -/
  again : List Nat
  /-- Clusters held in saved images. -/
  saved : Nat
  /-- Clusters with a workgroup that exited, by cluster number: which of its workgroups, and whether a region ended. -/
  part : SMap (List Nat)
  partEnded : List Nat
  failed : Bool
  /-- Completion: 0 not begun, 1 and 2 signals 0 and 1 to do, 3 interrupt to do, 4 done. -/
  phase : Nat
  deriving DecidableEq, Repr

/-- A Lantern gang that LGCMD has accepted and no core has yet had room for (R384). -/
structure LanternReq where
  ctx : Nat
  hdr : BitVec 1024
  deriving DecidableEq, Repr

/-- An asynchronous copy (R240-R251): its issuer's context, core, workgroup and cluster, the word, the template and
index, the offsets, for TCOPYG the row indices by lane and the participating lanes; the barrier's workgroup and byte
address and its ticket word; F and the bitmap above it; how many pieces of each open chunk are moved (R241); parked;
whether it has set ERR; and whether it only completes its chunks in flight, its workgroup being discarded (R371). -/
structure Copy where
  ctx : Nat
  core : Nat
  wg : Option Nat
  cluster : Option (Nat × Nat)
  pc : B64
  word : B32
  tmpl : BitVec 512
  index : Nat
  offS : B64
  offD : B64
  rows : Option (List Nat × Lanes)
  barWg : Nat
  barAddr : Nat
  barTicket : B64
  low : Nat
  done : B64
  moved : SMap Nat
  parked : Bool
  setErr : Bool
  last : Bool
  /-- Bytes, by destination address, that the copy has written with clean data in granules that are marked poisoned (R378). -/
  clean : List Nat
  deriving DecidableEq, Repr

/-! Contexts and tenants. -/

/-- A fault record in the queue's order before it is written (R363). -/
structure Rec where
  code : Code
  cls : Cls
  tkind : Nat
  sock : Nat
  /-- The gang, when GV = 1: core, quarter, slot. -/
  gang : Option (Nat × Nat × Nat)
  pc : B64
  word : B32
  mask : Lanes
  addr : B64
  tk0 : B64
  tk1 : B64
  time : Nat
  lantern : Bool
  /-- The parked fragment that becomes resolvable when the record is written or dropped (R368). -/
  owner : Option (Nat × Nat)
  deriving DecidableEq, Repr

/-- A SIGNAL add not yet performed (R158): its counter and increment, the gang's stream, its record, when it is next
tried, and whether its record is posted. -/
structure SigRetry where
  ctx : Nat
  stream : Nat
  va : B64
  inc : B64
  rec_ : Rec
  retryAt : Nat
  posted : Bool
  deriving DecidableEq, Repr

/-- A CTXSAVE in progress (R370): cut time, drain deadline, whether everything was saved at the cut. -/
structure Saving where
  cut : Nat
  bound : Nat
  whole : Bool
  deriving DecidableEq, Repr

structure Ctx where
  ten : Nat
  priv : Bool
  lost : Bool
  win : SMap (BitVec 192)
  fqbase : B64
  fqctl : B32
  fqhead : B32
  fqtail : B32
  pending : List Rec
  csa : B64
  dies : B32
  /-- Host ports whose memory the context has accessed (R357). -/
  hosts : BitVec 2
  nextLaunch : B64
  stopped : Bool
  saving : Option Saving
  /-- The socket that a gang of the context has taken DIE_LOST for: the context then becomes lost (R377). -/
  doomed : Option Nat
  /-- When the drain bound of the runs ends, once system software has begun to tear the context down (R297). -/
  teardown : Option Nat
  deriving DecidableEq, Repr

structure Tenant where
  cores : SMap B64
  strict : Bool
  err : Bool
  lmax : Nat
  /-- After a decrease of LMAX (R212): the larger value that the agent keeps counting records with, and until when. -/
  lwas : Nat
  lwasEnd : Nat
  rtmo : Nat
  quota : Nat
  drb : Nat
  peers : SMap B64
  enabled : Bool
  /-- Host ports presenting the function (R39, R55). -/
  ports : BitVec 2
  deriving DecidableEq, Repr

/-- A saved cluster or Lantern gang (R373-R375): its parts, and each workgroup's place in memory with the bytes written
there. -/
structure Image where
  ctx : Nat
  launch : Option Nat
  cluster : Nat
  wgs : List (Nat × Workgroup)
  gangs : List (Nat × Gang)
  ops : List (Nat × Op)
  copies : List (Nat × Copy)
  places : List (Nat × List Byte)
  deriving DecidableEq, Repr

/-! The memory system. -/

/-- The place beneath a line: a frame or a pool address. -/
inductive Under where
  | frame (pa : Nat)
  | pool (pa : Nat)
  deriving DecidableEq, Repr

/-- An L1 line of a core (R191, R193): its bytes, the dirty ones, poison per 16 bytes, whether the page is
self-invalidating, the key of its home line and the place beneath it. -/
structure L1Line where
  bytes : List Byte
  dirty : BitVec 128
  poison : BitVec 8
  si : Bool
  home : Nat
  under : Under
  /-- When the line was filled, by the memory system's count. -/
  stamp : Nat
  deriving DecidableEq, Repr

/-- External half states (R354). -/
inductive HState where
  | i | s | e | m
  deriving DecidableEq, Repr

/-- A line at its home slice (R194-R199, R354): among the rest, its way in its set, the count at its last use, and
whether its page allows compression (R195). -/
structure L2Line where
  bytes : List Byte
  dirty : BitVec 128
  poison : BitVec 8
  under : Under
  prio : Nat
  dir : B64
  h0 : HState
  h1 : HState
  way : Nat
  stamp : Nat
  cmp : Bool
  deriving DecidableEq, Repr

/-- A translation command's stage (R213-R219). -/
inductive CmdStage where
  | idle
  /-- Waits for the host to give up what the command writes first (R351). -/
  | start
  /-- Waits leases until the given time; then invalidates and goes on. -/
  | leases (until_ : Nat) (old : B64)
  | copying (old : B64)
  | scrubbing (pa size : Nat)
  | twin (deadline : Nat)
  /-- The twin has agreed, and the host must give up the entry's half first (R351). -/
  | agreed
  deriving DecidableEq, Repr

structure CmdSlot where
  cmd : B64
  pte : B64
  arg : B64
  stat : B64
  stage : CmdStage
  /-- The running command's own TRCMD, TRPTE and TRARG. -/
  rcmd : B64
  rpte : B64
  rarg : B64
  deriving DecidableEq, Repr

/-- A lease record of a page (R211): size in 64 KiB blocks, latest expiry, and the tenant that it was granted for. -/
structure LeaseRec where
  blocks : Nat
  expiry : Nat
  ten : Nat
  deriving DecidableEq, Repr

/-- A COLLAPSE request that the twin serves (R219): until its leases are over, its old leaf, and whether its entry is
written, which the host may hold up (R351). -/
structure TwinJob where
  m : CollapseMsg
  until_ : Nat
  old : B64
  begun : Bool
  deriving DecidableEq, Repr

/-- A translation that a holder keeps (R211): the leaf, log2 of the page size, and the lease's expiry. -/
structure Held where
  leaf : B64
  size : Nat
  expiry : Nat
  deriving DecidableEq, Repr

/-- Who waits for memory: a lane's access, told from the other words of a matrix row by its place in 64 bytes; a chunk of
a copy; an executor run; an engine's access, by its mark. -/
inductive Who where
  | lane (op lane off : Nat)
  | chunk (copy c : Nat)
  | run (r : Nat)
  | eng (tok : List Nat)
  deriving DecidableEq, Repr

/-- A request to be reissued (R203, R216): the requesting unit, the line and log2 of its page's size, who waits, and the
end of its wait hint; where a migration's queue holds it, its turn there. -/
structure Waiting where
  unit : Nat
  la : Nat
  size : Nat
  who : Who
  until_ : Nat
  queued : Option Nat
  deriving DecidableEq, Repr

structure Mem where
  frames : Memory
  poison : SMap Bool
  l1 : SMap L1Line
  l2 : SMap L2Line
  /-- Host bits by 64-byte IA half (R351), each with the place in its frame. -/
  hostBits : SMap Nat
  /-- Snoop-filter entries: 64-byte half -> tenant, fill order, and the context that the half was fetched for or that has
  since written it (R352, R353, R357). -/
  filter : SMap (Nat × Nat × Nat)
  /-- Halves with a BISnpInv outstanding (R351), each with the place in its frame. -/
  snooping : SMap Nat
  /-- Banks under refresh until a package time (R203). -/
  refresh : SMap Nat
  /-- Words marked as poisoned flags (R312), by IA / 8. -/
  flagMarks : SMap Bool
  leases : SMap LeaseRec
  twins : SMap TwinJob
  /-- Translations by holder and page (R211), and the entries that the translation homes cache, by page (R206). -/
  held : SMap Held
  ptes : SMap Held
  /-- Requests to be reissued, in order of arrival (R203, R216). -/
  waiting : List Waiting
  /-- Counts uses of lines, for the least recently used (R199). -/
  clock : Nat
  deriving DecidableEq, Repr

/-! Penumbra. -/

inductive FaceSt where
  | idle | waitRel | read | waitLow | send
  deriving DecidableEq, Repr

/-- One face of a binding (R279): its outbound state; how many rounds have entered it; the strip's own part read, with
poison by element; whether the first write of a send has been issued; the partner found (a binding of this package, or a
number at the peer) once digests agree; the partner's latest notice and the latest round received, each plus one; by kind
of access, for those held by a parking fault (R284), the time of the next retry; and whether a search of the peer waits for
its reply (R393). -/
structure Face where
  st : FaceSt
  round : Nat
  strip : List (Nat × Bool)
  started : Bool
  partner : Option Nat
  notice : Nat
  recv : Nat
  held : SMap Nat
  asked : Bool
  deriving DecidableEq, Repr

structure Binding where
  ctx : Nat
  ten : Nat
  va : B64
  desc : BitVec 1024
  owners : SMap B32
  p : Nat
  /-- Last committed step plus one; 0 before step 0. -/
  steps : Nat
  arrivals : SMap Nat
  parts : List Nat
  faces : SMap Face
  /-- Region tags by (face * 2 + buffer) * 9 + region, as step + 1 (R272, R277). -/
  tags : SMap Nat
  /-- Rounds received and counted (R34), the time of the counter's next retry, and whether its record is posted. -/
  rounds : Nat
  cntRetry : Nat
  cntPosted : Bool
  /-- The latest commit notice sent, plus one (R278). -/
  noted : Nat
  broken : Bool
  ending : Bool
  /-- The other partition of a digest mismatch (R31). -/
  bad : Option B64
  number : Nat
  /-- The bind generation (R271, log 42). -/
  gen : Nat
  deriving DecidableEq, Repr

/-! Executors. -/

/-- The write set of R294. -/
inductive WSet where
  | lines (ls : List Nat)
  | pages (ps : List Nat)
  | channel
  deriving DecidableEq, Repr

/-- What a run waits for. -/
inductive RunWait where
  | start
  | going
  /-- Stalled for a refresh hint until a time (R293). -/
  | stall (until_ : Nat)
  /-- A release waiting for acknowledgements (R294): whether the run then ends, and with what slot state. -/
  | release (fin : Option Slot)
  deriving DecidableEq, Repr

structure Run where
  ctx : Nat
  ten : Nat
  gid : Nat
  rslot : Nat
  /-- The launching gang's place for the record (R296), and whether it is a Lantern gang's (R367). -/
  place : Nat × Nat × Nat
  lantern : Bool
  cmask : Nat
  anchor : B64
  z0 : B64
  z1 : B64
  bpc : B64
  bword : B32
  home : Nat
  unit : Option Nat
  ectx : Nat
  v : SMap B32
  p : BitVec 8
  win : SMap (BitVec 192)
  wset : WSet
  pc : B64
  hdr : B64
  clause : Option Clause
  wait : RunWait
  /-- The releasing access to perform once acknowledged. -/
  pend : Option (MDesc × LaneReq)
  deriving DecidableEq, Repr

/-! Fabric. -/

inductive PairSt where
  | opened | refused | tainted
  deriving DecidableEq, Repr

structure SendE where
  st : PairSt
  gen : Nat
  bn : B32
  wc : B32
  lastReset : Nat
  deriving DecidableEq, Repr

/-- A slot's count and its withheld flag (R337): the flit, its arrival time and the port that received it. -/
structure BSlot where
  cnt : Nat
  flag : Option (Flit × Nat × Nat)
  deriving DecidableEq, Repr

structure ArrE where
  owner : Nat
  st : PairSt
  overrun : Bool
  gen : Nat
  nb : B32
  slots : SMap BSlot
  ftmo : Nat
  closing : Bool
  /-- A flag has been poisoned, and every flag still withheld is to be poisoned with it (R338). -/
  due : Bool
  deriving DecidableEq, Repr

/-- The answer to an engine's remote request: data, poisoned or not, or a fault and whether it parks. -/
inductive RAns where
  | data (bs : List Byte) (psn : Bool)
  | fault (c : Code) (parks : Bool)
  deriving DecidableEq, Repr

/-- An outstanding remote request (R341, R345): the operation and lane that wait for it, or for an engine's read the
context, peer, address and the engine's own mark of the access; `ans` holds an answer that an engine has not yet taken. -/
structure RReq where
  op : Option Nat
  lane : LaneReq
  ctx : Nat
  peer : Nat
  addr : Nat
  deadline : Nat
  atom : Bool
  ans : Option RAns
  tok : List Nat
  deriving DecidableEq, Repr

/-- A counted write accepted by the arrival entry and not yet performed (R335). -/
structure InWrite where
  key : Nat
  f : Flit
  port : Nat
  deriving DecidableEq, Repr

structure Port where
  trained : Bool
  live : Bool
  ver : BitVec 16
  sent : Nat
  recv : Nat
  /-- Unacknowledged flits, oldest first. -/
  replay : List Flit
  fails : Nat
  kg : Nat
  keys : SMap Nat
  newFlits : Nat
  errs : Nat
  deriving DecidableEq, Repr

/-- An entry of an inbound fault log (R345): source peer, stream, batch, code and address. -/
structure LogEnt where
  peer : Nat
  stream : Nat
  batch : Nat
  code : Code
  addr : Nat
  deriving DecidableEq, Repr

structure Fabric where
  send : SMap SendE
  arr : SMap ArrE
  reqs : SMap RReq
  writes : SMap InWrite
  ports : SMap Port
  /-- Flits sent, each with the plane it travels on. -/
  out : List (Nat × Flit)
  errors : SMap Nat
  /-- Inbound fault logs by socket (R345). -/
  logs : SMap (List LogEnt)
  /-- Management events: 0 a failed plane, 1 a switch's discard of aged flits (R329), each with its plane. -/
  events : List (Nat × Nat)
  deriving DecidableEq, Repr

/-! Host and pool. -/

/-- An outstanding CXL request for a 64-byte half (R352, R357): its number IA / 64, pool address, home key, requester, for
an uncached access (`direct`) or a write-back the bytes to write, and the port it went to. `ans` holds an answer that an
engine has not yet taken, `tok` the engine's own mark of the access; an atomic's write has in `old` what its read found. -/
structure CxlReq where
  half : Nat
  pa : Nat
  key : Nat
  ctx : Nat
  ten : Nat
  excl : Bool
  direct : Bool
  op : Option Nat
  lane : Option LaneReq
  write : Option (Nat × List Byte)
  deadline : Nat
  ans : Option (List Byte × Bool)
  port : Nat
  tok : List Nat
  old : Option (List Byte)
  deriving DecidableEq, Repr

/-- A host or pool port (R347, R348): among the rest, the flit size (256, 68 or 0 for none) and whether a trained link has
failed (R357). -/
structure HPort where
  live : Bool
  cxl : BitVec 16
  gts : Nat
  lanes : Nat
  flit : Nat
  failed : Bool
  errs : Nat
  deriving DecidableEq, Repr

/-- A host's read of so many bytes, or what is left of its write, that has been accepted and must wait (R203, R350). -/
structure HostReq where
  port : Nat
  hpa : Nat
  len : Nat
  data : Option (List Byte)
  deriving DecidableEq, Repr

structure HostIf where
  ports : SMap HPort
  reqs : SMap CxlReq
  /-- The host's requests that wait, by number. -/
  pend : SMap HostReq
  /-- Messages out: CXL requests and responses by kind and address. -/
  out : List (Nat × Nat × List Byte × Bool)
  deriving DecidableEq, Repr

/-! Registers of the physical function and the platform. -/

structure Pf where
  ctxcmd : B64
  ctxstat : B64
  lgcmd : B64
  diesvc : B32
  strcmd : B64
  strstat : B64
  /-- The open close-receive that STRCMD waits on (R334). -/
  closing : Option Nat
  /-- A write of LGCMD that is taken and whose header is still to be read (R384): its context and HDR. -/
  lgwait : Option (Nat × Nat)
  /-- The context whose DESTROY waits for the stores of poisoned flags (R39). -/
  destroying : Option Nat
  slots : SMap CmdSlot
  troot : B64
  profctl : SMap B32
  hmask : SMap B32
  region : SMap (BitVec 8)
  masks : SMap (BitVec 24)
  peerid : BitVec 9
  exports : SMap (BitVec 128)
  hdmw : SMap (BitVec 128)
  deriving DecidableEq, Repr

/-- The states of R389 as they are read. -/
inductive IslandSt where
  | on | idle | off
  deriving DecidableEq, Repr

/-- A voltage and frequency island (R389). Whether a clocked island is ON or IDLE is read from the work on its die. -/
structure Island where
  off : Bool
  mhz : Nat
  deriving DecidableEq, Repr

/-- Firmware, fuses, sensors and power (R386-R391). `islands` by 2 * die, plus 1 for its L2 and die network; `temps` by
socket in degrees; `hot` the dies that throttle, `supply` the sockets whose supply fails; `running` is the slot that runs: 0
for A, 1 for B, 2 for none; `first` the slot that the next boot tries first. -/
structure Platform where
  islands : SMap Island
  temps : SMap Nat
  hot : SMap Bool
  supply : SMap Bool
  cap : Nat
  power : Nat
  live : B32
  fwver : B32
  form : BitVec 8
  slotA : FwImage
  slotB : FwImage
  running : Nat
  first : Nat
  keyHash : Nat
  rollback : Nat
  recovery : Bool
  corrected : Nat
  /-- Management responses out: command code, status, payload. -/
  out : List (Nat × Nat × List Nat)
  deriving DecidableEq, Repr

/-- The state of the package. -/
structure State where
  /-- Package time in ns ticks (R70). -/
  now : Nat
  /-- The issuer of the word being run (log 1). -/
  cur : Agent
  inbox : List Input
  /-- The steps taken: the default policy's phase, and the count that ages are told by (log 1). -/
  turn : Nat
  /-- Counts the free values drawn (log 2). -/
  free : Nat
  /-- The next identifier for the model's own records. -/
  next : Nat
  /-- The next Beacon ticket (R309). -/
  beacon : Nat
  gangs : SMap Gang
  wgs : SMap Workgroup
  launches : SMap Launch
  lanterns : SMap LanternReq
  images : SMap Image
  ctxs : SMap Ctx
  tenants : SMap Tenant
  ops : SMap Op
  copies : SMap Copy
  sigs : SMap SigRetry
  mem : Mem
  binds : SMap Binding
  runs : SMap Run
  fab : Fabric
  host : HostIf
  pf : Pf
  plat : Platform
  /-- MSI-X messages sent: function and vector, newest last (R51, R367). -/
  msix : List (Nat × Nat)
  deriving DecidableEq, Repr

/-- A memory system with nothing in it. -/
def Mem.empty : Mem := ⟨[], [], [], [], [], [], [], [], [], [], [], [], [], [], 0⟩
def Fabric.empty : Fabric := ⟨[], [], [], [], [], [], [], [], []⟩
def HostIf.empty : HostIf := ⟨[], [], [], []⟩
def Pf.reset : Pf := ⟨0, 0, 0, 0, 0, 0, none, none, none, [], 0, [], [], [], [], 0, [], []⟩
/-- Firmware, fuses, sensors and islands, whose reset values the spec does not give (log 3). -/
def Platform.reset : Platform :=
  ⟨[], [], [], [], 3400, 0, 0x3fffff#32, 0, 0, ⟨[], 0, 0, 0, 0⟩, ⟨[], 0, 0, 0, 0⟩, 0, 0, 0, 0, false, 0, []⟩

/-- The package after cold reset (R5, R70, R309): no context, no work, nothing listed in memory. -/
def State.reset : State :=
  ⟨0, .none, [], 0, 0, 0, 0, [], [], [], [], [], [], [], [], [], [], Mem.empty, [], [], Fabric.empty, HostIf.empty,
    Pf.reset, Platform.reset, []⟩

end Sys2Proof.Machine
end

