-- ==== Sys2Proof/Machine/Ops.lean ====
section
/-! DEFINITION. The named operations over the state's records, the end of a word, and TAKING A FAULT: fault records and
queues (R363-R368), parking (R225, R360), termination (R362) and the return from a park (R162). -/
namespace Sys2Proof.Machine

/-- The code's number (R361). -/
def Code.num : Code → Nat
  | .illegalInstr => 0x01 | .illegalClause => 0x02 | .illegalConvergence => 0x03 | .divergenceOverflow => 0x04
  | .misaligned => 0x05 | .trap => 0x06 | .fpTrap => 0x07 | .pageNotPresent => 0x10 | .writeProtect => 0x11
  | .permission => 0x12 | .windowMiss => 0x13 | .asyncFault => 0x20 | .staleHalo => 0x30 | .gridDescriptor => 0x31
  | .remoteAccess => 0x40 | .remoteTimeout => 0x41 | .flagPoisoned => 0x42 | .remoteWriteFaulted => 0x43
  | .fabricIncomplete => 0x44 | .streamOverrun => 0x45 | .dataPoison => 0x50 | .dieLost _ => 0x51
  | .executorFault => 0x60
/-- The class's number (R360). -/
def Cls.num : Cls → Nat
  | .parked => 0 | .terminated => 1 | .async => 2

/-! Records of the state. -/

def State.setGang (s : State) (gid : Nat) (g : Gang) : State := { s with gangs := smPut s.gangs gid g }
def State.adjGang (s : State) (gid : Nat) (f : Gang → Gang) : State := { s with gangs := smAdj s.gangs gid f }
def State.adjFrag (s : State) (gid e : Nat) (f : Frag → Frag) : State :=
  s.adjGang gid fun g => { g with frags := smAdj g.frags e f }
def State.setOp (s : State) (k : Nat) (o : Op) : State := { s with ops := smPut s.ops k o }
def State.adjOp (s : State) (k : Nat) (f : Op → Op) : State := { s with ops := smAdj s.ops k f }
def State.adjWg (s : State) (k : Nat) (f : Workgroup → Workgroup) : State := { s with wgs := smAdj s.wgs k f }
def State.adjLaunch (s : State) (k : Nat) (f : Launch → Launch) : State := { s with launches := smAdj s.launches k f }
def State.adjCtx (s : State) (c : Nat) (f : Ctx → Ctx) : State := { s with ctxs := smAdj s.ctxs c f }
def State.adjRun (s : State) (r : Nat) (f : Run → Run) : State := { s with runs := smAdj s.runs r f }
def State.adjCopy (s : State) (k : Nat) (f : Copy → Copy) : State := { s with copies := smAdj s.copies k f }
def State.adjBind (s : State) (k : Nat) (f : Binding → Binding) : State := { s with binds := smAdj s.binds k f }
def State.setMem (s : State) (m : Mem) : State := { s with mem := m }
def State.setFab (s : State) (f : Fabric) : State := { s with fab := f }
def State.setPf (s : State) (p : Pf) : State := { s with pf := p }

/-- A tenant function that system software has not touched: its registers' reset values (R40, R212, R334, R353, R369);
enabled and presented through host port 0 (log 3). -/
def Tenant.reset : Tenant := ⟨[], false, false, 32, 0, 0, 1000, 0, 100, [], true, 1⟩
def State.tenant (s : State) (t : Nat) : Tenant := smGet s.tenants t Tenant.reset
/-- The LMAX that records are counted with (R212). -/
def Tenant.counted (t : Tenant) (now : Nat) : Nat := if now < t.lwasEnd then max t.lmax t.lwas else t.lmax
/-- Write LMAX: for 256 us after a decrease the agent counts records with the larger value (R212). DESIGN CHOICE (log 64): after
a second decrease within that time the largest of the values counts for the whole of the new 256 us. -/
def Tenant.setLmax (t : Tenant) (now n : Nat) : Tenant :=
  if n < t.lmax then { t with lmax := n, lwas := t.counted now, lwasEnd := now + 256000 } else { t with lmax := n }
def State.adjTenant (s : State) (t : Nat) (f : Tenant → Tenant) : State :=
  { s with tenants := smPut s.tenants t (f (s.tenant t)) }

/-- A context as CREATE brings it into existence (R39, R62, R365, R369). -/
def Ctx.fresh (ten : Nat) (priv : Bool) (dies : B32) : Ctx :=
  ⟨ten, priv, false, [], 0, 0x04000000#32, 0, 0, [], 0, dies, 0, 1, false, none, none, none⟩

/-! Fault queues (R365-R368). -/

def fqEn (c : Ctx) : Bool := c.fqctl.getLsbD 31
def fqLh (c : Ctx) : Bool := c.fqctl.getLsbD 30
def fqArm (c : Ctx) : Bool := c.fqctl.getLsbD 29
def fqLog (c : Ctx) : Nat := fld c.fqctl.toNat 24 5
def fqVec (c : Ctx) : Nat := fld c.fqctl.toNat 20 4
/-- FQCTL after a write (R365): EN, LH, ARM, VEC and LOST take the value, LOG2N only in range, OVF is cleared by 1. -/
def fqctlNew (old v : B32) : B32 :=
  let lg := fld v.toNat 24 5
  let lg := if 4 ≤ lg ∧ lg ≤ 16 then lg else fld old.toNat 24 5
  let ovf := old.getLsbD 16 && !v.getLsbD 16
  BitVec.ofNat 32 (fld v.toNat 29 3 * 2 ^ 29 + lg * 2 ^ 24 + fld v.toNat 20 4 * 2 ^ 20 + (if ovf then 2 ^ 16 else 0) + fld v.toNat 0 16)
/-- Keep some bit ranges (low bit, width) of a value: RSV bits read as zero (R5). -/
def keepBits (v : Nat) (fs : List (Nat × Nat)) : Nat := fs.foldl (fun t f => t + fld v f.1 f.2 * 2 ^ f.1) 0
/-- The queue is full (R366). -/
def fqFull (c : Ctx) : Bool := (c.fqtail - c.fqhead).toNat == 2 ^ fqLog c
/-- Where record n lies (R366). -/
def fqAddr (c : Ctx) (n : Nat) : Nat := fld c.fqbase.toNat 12 28 * 4096 + 64 * (n % 2 ^ fqLog c)

/-- A record's value (R363, R364) with its sequence number and phase. -/
def Rec.value (r : Rec) (ctx n ph : Nat) : Nat :=
  let gv := match r.gang with | some _ => 1 | none => 0
  let p := r.gang.getD (0, 0, 0)
  r.code.num + r.cls.num * 2 ^ 8 + r.tkind * 2 ^ 10 + r.sock * 2 ^ 16 + ctx * 2 ^ 24 + p.2.2 * 2 ^ 34 + p.2.1 * 2 ^ 38
    + p.1 * 2 ^ 40 + gv * 2 ^ 49 + r.pc.toNat * 2 ^ 64 + r.word.toNat * 2 ^ 128 + r.mask.toNat * 2 ^ 160
    + r.addr.toNat * 2 ^ 192 + r.tk0.toNat * 2 ^ 256 + r.tk1.toNat * 2 ^ 320 + (r.time % 2 ^ 64) * 2 ^ 384
    + (n % 2 ^ 32) * 2 ^ 448 + ph * 2 ^ 511

/-- Bring the dirty bytes of an L2 line to its frame (R199, R308). -/
def writeDirty (m : Memory) (l : L2Line) : Memory :=
  match l.under with
  | .frame pa => (bitList l.dirty).foldl (fun m i => writeByte m (pa + i) ((l.bytes[i]?).getD 0)) m
  | .pool _ => m
/-- The marks of a home line that some dirty bytes with marks of their own come to: a granule written whole takes the
writer's mark, one written in part keeps either (R378). -/
def mergeMarks (old : BitVec 8) (dirty : BitVec 128) (x : BitVec 8) : BitVec 8 :=
  ofBits 8 ((List.range 8).filter fun i =>
    let d := fld dirty.toNat (16 * i) 16
    if d = 2 ^ 16 - 1 then x.getLsbD i else old.getLsbD i || (d != 0 && x.getLsbD i))
/-- Merge an L1 line's dirty bytes into its home line. -/
def mergeDirty (l : L2Line) (x : L1Line) : L2Line :=
  { l with
    bytes := (bitList x.dirty).foldl (fun bs i => bs.set i ((x.bytes[i]?).getD 0)) l.bytes
    dirty := l.dirty ||| x.dirty
    poison := mergeMarks l.poison x.dirty x.poison }
/-- The key of a line in a core's L1 or a die's L2: the unit above the 45-bit line address LA = IA[51:7]. -/
def lineKey (unit la : Nat) : Nat := unit * 2 ^ 45 + la
def keyUnit (k : Nat) : Nat := k / 2 ^ 45
def keyLine (k : Nat) : Nat := k % 2 ^ 45
/-- A line's 16-byte marks reach the frame's 32-byte granules at a write-back of some of their bytes; a granule written
whole with clean data loses its mark (R378). -/
def poisonDown (p : SMap Bool) (pa : Nat) (dirty : BitVec 128) (x : BitVec 8) : SMap Bool :=
  (List.range 4).foldl (fun p i =>
    let d := fld dirty.toNat (32 * i) 32
    if d != 0 && (x.getLsbD (2 * i) || x.getLsbD (2 * i + 1)) then smSet p (pa / 32 + i) true false
    else if d == 2 ^ 32 - 1 then smDel p (pa / 32 + i) else p) p
/-- Write a home line's dirty bytes to its frame; it stays, clean (R308). -/
def cleanLine (m : Mem) (k : Nat) (l : L2Line) : Mem :=
  match l.under with
  | .frame pa =>
    ({ m with
        frames := writeDirty m.frames l
        poison := poisonDown m.poison pa l.dirty l.poison
        l2 := smPut m.l2 k { l with dirty := 0 } } : Mem)
  | .pool _ => { m with l2 := smPut m.l2 k l }
/-- Take L1 copies of a home line back to it and drop them: those that the test names (R196). -/
def recallL1 (m : Mem) (la : Nat) (l : L2Line) (which : Nat → L1Line → Bool) : Mem × L2Line :=
  let hit := fun k (x : L1Line) => keyLine k == la && which (keyUnit k) x
  (({ m with l1 := smKeep (fun k x => !hit k x) m.l1 } : Mem),
    { (List.foldl (fun l (p : Nat × L1Line) => if hit p.1 p.2 then mergeDirty l p.2 else l) l m.l1) with dir := 0 })
/-- Remove a home line over a frame: the L1 copies in the cores that its directory marks, with `all` every L1 copy, go with
it, and its dirty bytes reach the frame (R196, R198, R214). -/
def dropLine (all : Bool) (m : Mem) (k : Nat) : Mem :=
  match smFind m.l2 k with
  | none => if all then { m with l1 := smKeep (fun j _ => keyLine j != keyLine k) m.l1 } else m
  | some l =>
    let r := recallL1 m (keyLine k) l (fun c x => all || (!x.si && l.dir.getLsbD (c / 8)))
    let m := cleanLine r.1 k r.2
    { m with l2 := smDel m.l2 k }
/-- Remove every home line that lies over a frame's line. -/
def purgeFrame (m : Mem) (pa : Nat) : Mem :=
  (smKeys (fun _ l => l.under == .frame (pa / 128 * 128)) m.l2).foldl (dropLine true) m
/-- Granule i of g bytes lies whole in [off, off + n) (R378). -/
def wholeGranule (g i off n : Nat) : Bool := decide (off ≤ g * i) && decide (g * i + g ≤ off + n)
/-- Marks of frame granules after a write. -/
def clear32 (p : SMap Bool) (pa n : Nat) : SMap Bool :=
  (List.range (n / 32 + 1)).foldl (fun p i =>
    if wholeGranule 32 (pa / 32 + i) pa n then smDel p (pa / 32 + i) else p) p
/-- The lines that hold [pa, pa + n). -/
def linesOf (pa n : Nat) : List Nat := (List.range ((pa % 128 + n + 127) / 128)).map (pa / 128 * 128 + 128 * ·)
/-- A write at the frame by a unit outside the caches, coherent with them: copies of its lines are first taken back. -/
def physWrite (m : Mem) (pa : Nat) (bs : List Byte) : Mem :=
  let m := (linesOf pa bs.length).foldl purgeFrame m
  ({ m with frames := writeBytes m.frames pa bs, poison := clear32 m.poison pa bs.length } : Mem)

/-- Send a BISnpInv for a half of the line over a frame address unless one is out (R351). Message kind 3 in host.out. -/
def askHost (s : State) (half pa : Nat) : State :=
  if (smFind s.mem.snooping half).isSome then s
  else { s with mem := { s.mem with snooping := smPut s.mem.snooping half (pa / 128 * 128 + 64 * (half % 2)) }
                host := { s.host with out := s.host.out ++ [(3, half, [], false)] } }
/-- A half with its host bit set in the lines of frames that hold [pa, pa + n) (R351). -/
def hostedFrame (m : Mem) (pa n : Nat) : Option Nat :=
  (smKeys (fun _ a => decide (a / 128 * 128 < pa + n) && decide (pa < a / 128 * 128 + 128)) m.hostBits).head?
/-- The same for a half with its host bit set: the bit says where it lies. -/
def askHalf (s : State) (half : Nat) : State :=
  match smFind s.mem.hostBits half with
  | some pa => askHost s half pa
  | none => s
/-- R368: the parked fragment a record stands for becomes resolvable. -/
def resolveOwner (s : State) (r : Rec) : State :=
  match r.owner with
  | none => s
  | some (gid, e) => s.adjFrag gid e fun f =>
      match f.wait with
      | .parked p => { f with wait := .parked { p with resolvable := true } }
      | _ => f

/-- Send an MSI-X message. -/
def sendMsix (s : State) (fn vec : Nat) : State := { s with msix := s.msix ++ [(fn, vec)] }

/-- The half that the host must give up before the next record is written (R351). -/
def recHosted (s : State) (c : Ctx) : Option Nat := hostedFrame s.mem (fqAddr c c.fqtail.toNat) 64
/-- Ask for it, where the queue would otherwise take a record. -/
def askRec (s : State) (c : Ctx) : State :=
  match (if fqEn c && !fqFull c then recHosted s c else none) with
  | some h => askHalf s h
  | none => s
/-- The records that the queue still has room for. -/
def fqRoom (c : Ctx) : Nat := if fqEn c then 2 ^ fqLog c - (c.fqtail - c.fqhead).toNat else 0
/-- The queue takes a record now: it is enabled and has room, and the record's place is free to write. -/
def fqTakes (s : State) (c : Ctx) : Bool := fqEn c && !fqFull c && (recHosted s c).isNone
/-- Write a record at the queue's tail and act as R367 says. The queue has room and is enabled. -/
def writeRec (s : State) (cid : Nat) (c : Ctx) (r : Rec) : State :=
  let n := c.fqtail.toNat
  let v := r.value cid n (1 - n / 2 ^ fqLog c % 2)
  let s := s.setMem (physWrite s.mem (fqAddr c n) (toBytes 64 v))
  let fire := fqArm c && (!fqLh c || r.lantern)
  let s := s.adjCtx cid fun c =>
    { c with fqtail := c.fqtail + 1, fqctl := if fire then c.fqctl &&& 0xdfffffff#32 else c.fqctl }
  let s := if fire then sendMsix s c.ten (fqVec c) else s
  resolveOwner s r

/-- Drop a record: OVF and LOST (R366). -/
def dropRec (s : State) (cid : Nat) (r : Rec) : State :=
  let s := s.adjCtx cid fun c =>
    let lost := fld c.fqctl.toNat 0 16
    { c with fqctl := (c.fqctl &&& 0xffff0000#32 ||| 0x00010000#32) ||| BitVec.ofNat 32 (min 65535 (lost + 1)) }
  resolveOwner s r

/-- Post a record to a context's queue (R366): written, held pending, or dropped. While the host holds the half that the next
record goes to, those that the queue has room for wait beside the eight (R351). -/
def postRec (s : State) (cid : Nat) (r0 : Rec) : State :=
  -- DIE_LOST names the lost socket, whatever unit posts (R363)
  let r := { r0 with time := s.now, sock := match r0.code with | .dieLost n => n | _ => r0.sock }
  match smFind s.ctxs cid with
  | none => resolveOwner s r
  | some c =>
    if c.pending.isEmpty && fqTakes s c then writeRec s cid c r
    else if c.pending.length < 8 + fqRoom c then (askRec s c).adjCtx cid fun c => { c with pending := c.pending ++ [r] }
    else dropRec s cid r

/-- Write pending records in order while there is room (R366). -/
def drainRecs : Nat → State → Nat → State
  | 0, s, _ => s
  | n + 1, s, cid =>
    match smFind s.ctxs cid with
    | none => s
    | some c =>
      match c.pending with
      | [] => s
      | r :: rs =>
        if fqTakes s c then
          drainRecs n (writeRec (s.adjCtx cid fun c => { c with pending := rs }) cid { c with pending := rs } r) cid
        else askRec s c

/-- Write all the pending records that there is room for. -/
def drainQueue (s : State) (cid : Nat) : State :=
  drainRecs (match smFind s.ctxs cid with | some c => c.pending.length + 1 | none => 0) s cid

/-- A gang's record at an instruction (R363). -/
def gangRec (g : Gang) (code : Code) (cls : Cls) (pc : B64) (word : B32) (mask : Lanes) (addr : B64) : Rec :=
  ⟨code, cls, 0, g.core / 64, some (g.core, g.quarter, g.slot), pc, word, mask, addr, 0, 0, 0, g.lantern, none⟩

/-! Completion flags (R78). -/

def flagUp (g : Gang) (k : Nat) : Gang := { g with flags := smSet g.flags k (smGet g.flags k 0 + 1) 0 }
def flagDown (g : Gang) (k : Nat) : Gang := { g with flags := smSet g.flags k (smGet g.flags k 0 - 1) 0 }
/-- Every flag of the gang is clear. -/
def flagsClear (g : Gang) : Bool := List.all g.flags (fun p => p.2 == 0)
/-- An operation is over: its count falls and it is gone. -/
def closeOp (s : State) (k : Nat) : State :=
  match smFind s.ops k with
  | none => s
  | some o => { s.adjGang o.gid (flagDown · o.flag) with ops := smDel s.ops k }
/-- Add an operation of a gang: its flag counts it (R78). Answers its id. -/
def openOp (s : State) (o : Op) : State × Nat :=
  ({ s.adjGang o.gid (flagUp · o.flag) with ops := smPut s.ops s.next o, next := s.next + 1 }, s.next)

/-! Ending and parking. -/

/-- Release the parked operations of a gang: nothing more of them is performed (R226). -/
def abandonParked (s : State) (gid : Nat) : State :=
  (smKeys (fun _ o => o.gid == gid && o.parked) s.ops).foldl (fun s k =>
    match smFind s.ops k with
    | some o => if o.gid = gid then closeOp s k else s
    | none => s) s

/-- The gang issues nothing more and waits for its flags (R115, R362). -/
def endGang (s : State) (gid : Nat) (why : Ending) : State :=
  abandonParked (s.adjGang gid fun g => { g with ending := some (g.ending.getD why) }) gid

/-- End the gang and its workgroup after a precise-terminated fault (R362); a Lantern gang ends alone. -/
def endGroup (s : State) (gid : Nat) : State :=
  match smFind s.gangs gid with
  | none => s
  | some g =>
    match g.wg.bind (smFind s.wgs ·) with
    | none => endGang s gid .fault
    | some w =>
      let s := s.adjWg (g.wg.getD 0) fun w => { w with failed := true }
      let s := s.adjLaunch w.launch fun l => { l with failed := true }
      w.gangs.foldl (fun s i => endGang s i .fault) s

/-- Take a precise-terminated fault of a gang (R360, R362): post its record and end the workgroup. -/
def terminate (s : State) (gid : Nat) (code : Code) (pc : B64) (word : B32) (mask : Lanes) (addr : B64) : State :=
  match smFind s.gangs gid with
  | none => s
  | some g =>
    let s := match code with
      | .dieLost n => s.adjCtx g.ctx fun c => { c with doomed := some n }
      | _ => s
    endGroup (postRec s g.ctx (gangRec g code .terminated pc word mask addr)) gid

/-- Park a fragment at its instruction (R225, R360): BLOCKED, with one record posted. -/
def park (s : State) (gid e : Nat) (code : Code) (kind : ParkKind) (pc : B64) (word : B32) (mask : Lanes) (addr : B64) :
    State :=
  match smFind s.gangs gid with
  | none => s
  | some g =>
    let s := s.adjFrag gid e fun f =>
      { f with st := .blocked, wait := .parked ⟨code, kind, mask, addr, pc, word, false⟩ }
    postRec s g.ctx { gangRec g code .parked pc word mask addr with owner := some (gid, e) }

/-- Post an asynchronous record that names a gang (R360). -/
def asyncRec (s : State) (g : Gang) (code : Code) (pc : B64) (word : B32) (addr : B64) : State :=
  postRec s g.ctx (gangRec g code .async pc word 0 addr)

/-! Issue. -/

/-- Move past a word (R71): to the next word of the clause, or to the next header. -/
def Frag.step (f : Frag) : Frag :=
  let pc := f.pc + 4
  let more := match f.clause with
    | some c => decide (pc ≠ c.hdr + 4 * BitVec.ofNat 64 (c.words.length + 1))
    | none => false
  if more then { f with pc := pc } else { f with pc := pc, hdr := pc, clause := none }
/-- Continue at a clause header (R144). -/
def Frag.jump (f : Frag) (t : B64) : Frag := { f with pc := t, hdr := t, clause := none }
/-- The header that follows the fragment's clause (R71). -/
def Frag.nextHdr (f : Frag) : B64 :=
  match f.clause with
  | some c => c.hdr + 4 * BitVec.ofNat 64 (c.words.length + 1)
  | none => f.pc + 4
/-- The issuing fragment with its gang. -/
structure Iss where
  gid : Nat
  e : Nat
  g : Gang
  f : Frag
  word : B32

/-- The issuing fragment moves past its word. -/
def Iss.adv (u : Iss) (s : State) : State := s.adjFrag u.gid u.e Frag.step
/-- Take a precise-terminated fault at the issuing word. -/
def Iss.term (u : Iss) (code : Code) (s : State) (mask : Lanes := 0) (addr : B64 := 0) : State :=
  terminate s u.gid code u.f.pc u.word mask addr
/-- Park the issuing fragment at its word. -/
def Iss.park (u : Iss) (code : Code) (kind : ParkKind) (s : State) (mask : Lanes := 0) (addr : B64 := 0) : State :=
  Machine.park s u.gid u.e code kind u.f.pc u.word mask addr
/-- Block the issuing fragment on a wait. -/
def Iss.block (u : Iss) (w : Wait) (s : State) : State :=
  s.adjFrag u.gid u.e fun f => { f with st := .blocked, wait := w }
/-- Make a blocked fragment ready again. -/
def unblock (s : State) (gid e : Nat) : State :=
  s.adjFrag gid e fun f => { f with st := .ready, wait := .none }

/-! Executor runs: their faults and ends (R295, R296). -/

/-- A run's faulting end (R296): one asynchronous record, and the end's release begins. -/
def runFault (s : State) (r : Nat) (cause : Nat) (pc : B64) (word : B32) (addr : B64) : State :=
  match smFind s.runs r with
  | none => s
  | some x =>
    let u := x.unit.getD 0x3ff
    let rec_ : Rec := ⟨.executorFault, .async, 4, if x.unit.isSome then 8 + u / 64 else x.home, some x.place, pc, word,
      BitVec.ofNat 32 (cause + x.ectx * 256 + x.rslot * 1024), addr, BitVec.ofNat 64 u, 0, 0, x.lantern, none⟩
    let s := postRec s x.ctx rec_
    s.adjRun r fun x => { x with wait := .release (some .faulted), pend := none }

/-- A run moves past its word. -/
def Run.step (x : Run) : Run :=
  let pc := x.pc + 4
  let more := match x.clause with
    | some c => decide (pc ≠ c.hdr + 4 * BitVec.ofNat 64 (c.words.length + 1))
    | none => false
  if more then { x with pc := pc } else { x with pc := pc, hdr := pc, clause := none }
def Run.jump (x : Run) (t : B64) : Run := { x with pc := t, hdr := t, clause := none }

/-- An executor accepts C[4] = 0 or 1 at every scope of an atomic (R292): the form whose legality decides. -/
def runForm : Instr → Instr
  | .atomAdd g r d a w _ sc => .atomAdd g r d a w 1 sc
  | .atomFadd g x r d a w _ sc => .atomFadd g x r d a w 1 sc
  | .atomMin g u r d a w _ sc => .atomMin g u r d a w 1 sc
  | .atomMax g u r d a w _ sc => .atomMax g u r d a w 1 sc
  | .atomBit g m d a w _ sc => .atomBit g m d a w 1 sc
  | .atomExch g d a w _ sc => .atomExch g d a w 1 sc
  | .cas g d a w _ sc => .cas g d a w 1 sc
  | i => i

/-- The outcome of a word: what it does when a fragment issues it, and when an executor run does. The encoding checks
of R83-R85 come first, whatever the guard; a run takes EXECUTOR_FAULT for an illegal word (cause 0x01) and for a word that
is legal elsewhere but outside its subset or naming v32 and above (cause 0x60), its record's ADDR being the anchor (R287,
R296). -/
def issue (i : Instr) (s : State) (onFrag : Iss → State → State) (onRun : Option (Nat → Run → State → State)) :
    Host.Outcome State Fault Refusal :=
  let word := BitVec.ofNat 32 (encode i)
  match s.cur with
  | .none => .refused .noIssuer
  | .frag gid e =>
    match smFind s.gangs gid with
    | none => .refused .noIssuer
    | some g =>
      match smFind g.frags e with
      | none => .refused .noIssuer
      | some f =>
        if legal i && fits g.regs g.tilesN g.accsN i then .next (onFrag ⟨gid, e, g, f, word⟩ s)
        else .next (terminate s gid .illegalInstr f.pc word 0 0)
  | .run r =>
    match smFind s.runs r with
    | none => .refused .noIssuer
    | some x =>
      if !legal (runForm i) then .next (runFault s r 0x01 x.pc word x.anchor)
      else match onRun with
        | none => .next (runFault s r 0x60 x.pc word x.anchor)
        | some k => if fits 32 0 0 i then .next (k r x s) else .next (runFault s r 0x60 x.pc word x.anchor)

/-- A guard's group predicate (R83). -/
def qBit (q : BitVec 8) (n : Nat) : Bool := n == 7 || q.getLsbD n
def guardQ (q : BitVec 8) (g : Guard) : Bool := if g.n == 1 then !qBit q g.p.toNat else qBit q g.p.toNat

/-- A group word: a false guard has no effect but moving on (R83). -/
def group (i : Instr) (gd : Guard) (s : State) (k : Iss → State → State) : Host.Outcome State Fault Refusal :=
  issue i s (fun u s => if guardQ u.g.q gd then k u s else u.adv s) none

/-- A word that the decoder rejects takes ILLEGAL_INSTR at issue (R85, R90); in an executor, EXECUTOR_FAULT. -/
def rejectWord (w : B32) (s : State) : Host.Outcome State Fault Refusal :=
  match s.cur with
  | .none => .refused .noIssuer
  | .frag gid e =>
    match (smFind s.gangs gid).bind (fun g => smFind g.frags e) with
    | none => .refused .noIssuer
    | some f => .next (terminate s gid .illegalInstr f.pc w 0 0)
  | .run r =>
    match smFind s.runs r with
    | none => .refused .noIssuer
    | some x => .next (runFault s r 0x01 x.pc w x.anchor)

end Sys2Proof.Machine
end

