-- ==== Sys2Proof/Machine/Operands.lean ====
section
/-! DEFINITION. Operand forms: lane registers, pairs and quads, lane and group predicates, group registers, active and
participating lanes (R11, R83, R84, R187), and the writes of a lane word. -/
namespace Sys2Proof.Machine

/-- Lane register vn of a lane. -/
def laneReg (g : Gang) (lane n : Nat) : B32 := smGet g.v (n * 32 + lane) 0
def setLaneReg (g : Gang) (lane n : Nat) (x : B32) : Gang := { g with v := smSet g.v (n * 32 + lane) x 0 }
/-- A 64-bit pair, low half in the even register (R122). -/
def lanePair (g : Gang) (lane n : Nat) : B64 := (laneReg g lane (n + 1)) ++ (laneReg g lane n)
/-- Group register gn. -/
def gReg (g : Gang) (n : Nat) : B64 := smGet g.g n 0
def setGReg (g : Gang) (n : Nat) (x : B64) : Gang := { g with g := smSet g.g n x 0 }
/-- Group predicate qn: q7 reads 1 and discards writes (R84). -/
def qReg (g : Gang) (n : Nat) : Bool := qBit g.q n
def setQReg (g : Gang) (n : Nat) (b : Bool) : Gang :=
  if n = 7 then g else { g with q := if b then g.q ||| (1#8 <<< n) else g.q &&& ~~~(1#8 <<< n) }
/-- Lane predicate pn over all lanes: p7 reads 1 and discards writes (R84). -/
def predMask (g : Gang) (n : Nat) : Lanes := if n = 7 then BitVec.allOnes 32 else smGet g.p n 0
def setPredLane (g : Gang) (lane n : Nat) (b : Bool) : Gang :=
  if n = 7 then g
  else
    let m := predMask g n
    { g with p := smSet g.p n (if b then m ||| (1#32 <<< lane) else m &&& ~~~(1#32 <<< lane)) 0 }
/-- The eight predicates of a lane as a byte; bit 7 is 1. -/
def predByte (g : Gang) (lane : Nat) : BitVec 8 := ofBits 8 ((List.range 8).filter fun n => (predMask g n).getLsbD lane)

/-- The lanes of some slices (R9). -/
def sliceLanes (m : BitVec 8) : Lanes := ofBits 32 ((List.range 32).filter fun l => m.getLsbD (l / 4))
/-- The slices that hold a lane of a mask. -/
def laneSlices (m : Lanes) : BitVec 8 :=
  ofBits 8 ((List.range 8).filter fun s => fld m.toNat (4 * s) 4 != 0)
/-- The fragment's active lanes: under its slices' masks and not exited (R11, R114). -/
def activeLanes (g : Gang) (f : Frag) : Lanes := g.mask &&& g.live &&& sliceLanes f.smask
/-- A guard over the lanes (R83). -/
def guardLanes (g : Gang) (gd : Guard) : Lanes :=
  if gd.n == 1 then ~~~(predMask g gd.p.toNat) else predMask g gd.p.toNat
/-- The participating lanes of a word (R187, R221). -/
def partLanes (g : Gang) (f : Frag) (gd : Guard) : Lanes := activeLanes g f &&& guardLanes g gd
/-- A guard on one lane's predicates: an executor's single lane (R287). -/
def guardByte (p : BitVec 8) (gd : Guard) : Bool := guardQ p gd

/-- Executor registers and predicates (R286). -/
def runReg (x : Run) (n : Nat) : B32 := smGet x.v n 0
def setRunReg (x : Run) (n : Nat) (b : B32) : Run := { x with v := smSet x.v n b 0 }
def runPred (x : Run) : BitVec 8 := x.p ||| 0x80#8
def setRunPred (x : Run) (n : Nat) (b : Bool) : Run :=
  if n = 7 then x else { x with p := if b then x.p ||| (1#8 <<< n) else x.p &&& ~~~(1#8 <<< n) }

/-- What a lane word reads: registers by number, and its predicates. -/
structure LaneIn where
  rd : Nat → B32
  pr : BitVec 8

/-- A pair read by a lane. -/
def LaneIn.rd2 (x : LaneIn) (n : Nat) : B64 := x.rd (n + 1) ++ x.rd n
/-- A predicate read by a lane. -/
def LaneIn.p (x : LaneIn) (n : Nat) : Bool := qBit x.pr n

/-- What a lane word does in one lane: register writes, a predicate write and the flags it raises. -/
structure LaneOut where
  wr : List (Nat × B32)
  pw : List (Nat × Bool)
  fl : Flags5

def out1 (d : Nat) (x : B32) : LaneOut := ⟨[(d, x)], [], 0⟩
/-- A pair result (R122). -/
def out2 (d : Nat) (x : B64) : LaneOut := ⟨[(d, x.extractLsb' 0 32), (d + 1, x.extractLsb' 32 32)], [], 0⟩
def outP (p : Nat) (b : Bool) : LaneOut := ⟨[], [(p, b)], 0⟩
def LaneOut.flags (o : LaneOut) (f : Flags5) : LaneOut := { o with fl := f }

/-- A gang lane's inputs. -/
def gangIn (g : Gang) (lane : Nat) : LaneIn := ⟨laneReg g lane, predByte g lane⟩
/-- A run's inputs. -/
def runIn (x : Run) : LaneIn := ⟨runReg x, runPred x⟩
/-- Write one lane's results. -/
def applyLane (g : Gang) (lane : Nat) (o : LaneOut) : Gang :=
  o.pw.foldl (fun g p => setPredLane g lane p.1 p.2) (o.wr.foldl (fun g w => setLaneReg g lane w.1 w.2) g)
def applyRun (x : Run) (o : LaneOut) : Run :=
  o.pw.foldl (fun x p => setRunPred x p.1 p.2) (o.wr.foldl (fun x w => setRunReg x w.1 w.2) x)

end Sys2Proof.Machine
end

