-- ==== Sys2Proof/Machine/Flags.lean ====
section
/-! DEFINITION. Floating status and traps (R135-R138), and the lane words built on them: every active lane whose guard
holds computes from the values at issue, flags are ORed in, and an enabled IV or DZ takes FP_TRAP with nothing written. -/
namespace Sys2Proof.Machine

/-- The lane raised an enabled exception (R136, R138). -/
def traps (fpcr : BitVec 2) (fl : Flags5) : Bool :=
  (fpcr.getLsbD 0 && fl.getLsbD 0) || (fpcr.getLsbD 1 && fl.getLsbD 1)
/-- The flags of several lanes together (R135). -/
def orFlags (l : List Flags5) : Flags5 := l.foldl (· ||| ·) 0
/-- The lanes whose flags trap. -/
def trapLanes (fpcr : BitVec 2) (l : List (Nat × Flags5)) : Lanes :=
  ofBits 32 ((l.filter fun p => traps fpcr p.2).map Prod.fst)
/-- OR flags into %fpsr (R137). -/
def orFpsr (g : Gang) (fl : Flags5) : Gang := { g with fpsr := g.fpsr ||| fl }

/-- The clause's flag for an SA or SB operation (R72, R78). -/
def Iss.flag (u : Iss) (sb : Bool) : Nat :=
  match u.f.clause with
  | some c => fld c.word.toNat (if sb then 20 else 16) 4
  | none => 0
/-- One more operation would raise the flag's count to 64: the fragment is not ready (R78). -/
def Iss.full (u : Iss) (sb : Bool) : Bool := decide (63 ≤ smGet u.g.flags (u.flag sb) 0)
/-- A long-latency group word: at a full flag it does not issue, whatever its guard (R78); a false guard has no effect but
moving on, the operation counted and completed at once. -/
def groupOp (i : Instr) (sb : Bool) (gd : Guard) (s : State) (k : Iss → State → State) : Host.Outcome State Fault Refusal :=
  issue i s (fun u s => if u.full sb then s else if guardQ u.g.q gd then k u s else u.adv s) none
/-- A new operation of the issuing fragment. -/
def Iss.op (u : Iss) (sb : Bool) (k : OpKind) : Op :=
  ⟨u.gid, u.e, u.flag sb, u.f.pc, u.word, k, [], [], [], [], [], 0, 0, [], 0, false, false, 0, []⟩

/-- The results of a lane word in each participating lane, from the values at issue. -/
def laneOuts (u : Iss) (gd : Guard) (f : LaneIn → LaneOut) : List (Nat × LaneOut) :=
  (bitList (partLanes u.g u.f gd)).map fun l => (l, f (gangIn u.g l))

/-- Write every lane's results and OR the flags in, or trap (R137, R138). -/
def finishLanes (u : Iss) (outs : List (Nat × LaneOut)) (s : State) : State :=
  let tr := trapLanes u.g.fpcr (outs.map fun p => (p.1, p.2.fl))
  if tr ≠ 0 then u.term .fpTrap s tr
  else
    let fl := orFlags (outs.map fun p => p.2.fl)
    u.adv (s.adjGang u.gid fun g => orFpsr (outs.foldl (fun g p => applyLane g p.1 p.2) g) fl)

/-- A computing lane word (R166), in a fragment or in an executor's single lane (R287: no flag, no trap). `subset` says
whether executors may run it. -/
def laneWord (i : Instr) (gd : Guard) (subset : Bool) (s : State) (f : LaneIn → LaneOut) :
    Host.Outcome State Fault Refusal :=
  issue i s (fun u s => finishLanes u (laneOuts u gd f) s)
    (if subset then some fun r x s =>
      s.adjRun r fun _ => (if guardByte (runPred x) gd then applyRun x (f (runIn x)) else x).step
    else none)

/-- The unguarded guard. -/
def noGuard : Guard := ⟨7, 0⟩

end Sys2Proof.Machine
end

