-- ==== Sys2Proof/Machine/Fp.lean ====
section
/-! DEFINITION. Number formats, rounding and special values (R119-R142): exact values, RoundTo, NaN rules, conversions
and the block conversions to HX4. Encodings are natural numbers below 2^width; exact values are ratios of naturals. -/
namespace Sys2Proof.Machine

/-- A binary floating format: exponent and fraction widths; e4m3 departs from R120 in its top exponent (R121). -/
structure Fmt where
  ew : Nat
  fw : Nat
  e4 : Bool := false
  deriving DecidableEq, Repr

def f64 : Fmt := ⟨11, 52, false⟩
def f32 : Fmt := ⟨8, 23, false⟩
def f16 : Fmt := ⟨5, 10, false⟩
def bf16 : Fmt := ⟨8, 7, false⟩
def e5m2 : Fmt := ⟨5, 2, false⟩
def e4m3 : Fmt := ⟨4, 3, true⟩
def a36 : Fmt := ⟨8, 27, false⟩

def Fmt.bias (f : Fmt) : Nat := 2 ^ (f.ew - 1) - 1
/-- Precision, the hidden bit counted (R131). -/
def Fmt.prec (f : Fmt) : Nat := f.fw + 1
def Fmt.emin (f : Fmt) : Int := 1 - (f.bias : Int)
def Fmt.signBit (f : Fmt) : Nat := 2 ^ (f.ew + f.fw)
def Fmt.expOf (f : Fmt) (x : Nat) : Nat := x / 2 ^ f.fw % 2 ^ f.ew
def Fmt.fracOf (f : Fmt) (x : Nat) : Nat := x % 2 ^ f.fw
def Fmt.neg (f : Fmt) (x : Nat) : Bool := x / f.signBit % 2 == 1
def Fmt.mag (f : Fmt) (x : Nat) : Nat := x % f.signBit
def Fmt.sgn (f : Fmt) (neg : Bool) : Nat := if neg then f.signBit else 0
/-- The encoding of infinity's magnitude (R119). -/
def Fmt.infMag (f : Fmt) : Nat := (2 ^ f.ew - 1) * 2 ^ f.fw
/-- The encoding of the largest finite magnitude (R119, R121). -/
def Fmt.maxMag (f : Fmt) : Nat := if f.e4 then f.signBit - 2 else f.infMag - 1
/-- DefaultNaN (R119). -/
def Fmt.dflt (f : Fmt) : Nat := if f.e4 then f.signBit - 1 else f.infMag + 2 ^ (f.fw - 1)

def isNaN (f : Fmt) (x : Nat) : Bool := if f.e4 then f.mag x == f.signBit - 1 else f.infMag < f.mag x
def isSNaN (f : Fmt) (x : Nat) : Bool := isNaN f x && !f.e4 && f.fracOf x / 2 ^ (f.fw - 1) == 0
def isInf (f : Fmt) (x : Nat) : Bool := !f.e4 && f.mag x == f.infMag
def isZero (f : Fmt) (x : Nat) : Bool := f.mag x == 0
def isSub (f : Fmt) (x : Nat) : Bool := f.expOf x == 0 && f.fracOf x != 0
/-- Quiet (R120). -/
def quiet (f : Fmt) (x : Nat) : Nat := if f.e4 || !isSNaN f x then x else x + 2 ^ (f.fw - 1)

/-- The flags of R135 as a five-bit vector: IV, DZ, OF, UF, IX from bit 0. -/
abbrev Flags := BitVec 5
def fIV : Flags := 1
def fDZ : Flags := 2
def fOF : Flags := 4
def fUF : Flags := 8
def fIX : Flags := 16

/-- An exact finite value: sign and magnitude num / den. Zero has num = 0. -/
structure Ex where
  neg : Bool
  num : Nat
  den : Nat
  deriving DecidableEq, Repr

/-- x times 2^s. -/
def Ex.scale (x : Ex) (s : Int) : Ex :=
  match s with
  | .ofNat n => { x with num := x.num * 2 ^ n }
  | .negSucc n => { x with den := x.den * 2 ^ (n + 1) }

/-- Decode of a finite encoding (R120, R121, R128). -/
def decodeFp (f : Fmt) (x : Nat) : Ex :=
  let e := f.expOf x
  let m := if e = 0 then f.fracOf x else f.fracOf x + 2 ^ f.fw
  let e' : Int := (if e = 0 then 1 else (e : Int)) - f.bias - f.fw
  Ex.scale ⟨f.neg x, m, 1⟩ e'

def Ex.toInt (x : Ex) : Int := if x.neg then -(x.num : Int) else x.num
def Ex.ofInt (n : Int) (den : Nat) : Ex := ⟨decide (n < 0), n.natAbs, den⟩
def Ex.add (x y : Ex) : Ex := Ex.ofInt (x.toInt * y.den + y.toInt * x.den) (x.den * y.den)
def Ex.mul (x y : Ex) : Ex := ⟨xor x.neg y.neg, x.num * y.num, x.den * y.den⟩
def Ex.negate (x : Ex) : Ex := { x with neg := !x.neg }
/-- x < y as exact values. -/
def Ex.lt (x y : Ex) : Bool := decide (x.toInt * y.den < y.toInt * x.den)
def Ex.eq (x y : Ex) : Bool := decide (x.toInt * y.den = y.toInt * x.den)

/-- floor(log2 (num / den)) of a positive ratio. -/
def ilog2 (num den : Nat) : Int :=
  let k : Int := (Nat.log2 num : Int) - Nat.log2 den
  let ge := match k with
    | .ofNat n => decide (den * 2 ^ n ≤ num)
    | .negSucc n => decide (den ≤ num * 2 ^ (n + 1))
  if ge then k else k - 1

/-- RoundInt of a magnitude num / den with sign (R131): modes 0 rn, 1 rz, 2 rp, 3 rm. -/
def roundMag (mode : Nat) (neg : Bool) (num den : Nat) : Nat :=
  let q := num / den
  let r := num % den
  if r = 0 then q
  else match mode with
    | 0 => if 2 * r < den then q else if den < 2 * r then q + 1 else q + q % 2
    | 1 => q
    | 2 => if neg then q else q + 1
    | _ => if neg then q + 1 else q

/-- m * 2^a compared with n * 2^b: strictly above. -/
def gtPow (m : Nat) (a : Int) (n : Nat) (b : Int) : Bool :=
  match a - b with
  | .ofNat k => decide (n < m * 2 ^ k)
  | .negSucc k => decide (n * 2 ^ (k + 1) < m)

/-- Encode of the exact value r * 2^q of magnitude below or at the largest finite one (R131). -/
def encodeMag (f : Fmt) (r : Nat) (q : Int) : Nat :=
  if r = 0 then 0
  else
    let l := Nat.log2 r
    let e : Int := l + q
    if e < f.emin then
      match q - (f.emin - f.fw) with
      | .ofNat k => r * 2 ^ k
      | .negSucc k => r / 2 ^ (k + 1)
    else
      let m := if l ≤ f.fw then r * 2 ^ (f.fw - l) else r / 2 ^ (l - f.fw)
      (e + f.bias).toNat * 2 ^ f.fw + (m - 2 ^ f.fw)

/-- The infinity of a sign, as e4m3 replaces it (R121). -/
def infEnc (f : Fmt) (neg : Bool) : Nat := f.sgn neg + (if f.e4 then f.dflt else f.infMag)

/-- Overflow (R131). -/
def overflowEnc (f : Fmt) (neg : Bool) (mode : Nat) (sat : Bool) : Nat :=
  let big := f.sgn neg + f.maxMag
  if sat then big
  else match mode with
    | 0 => infEnc f neg
    | 1 => big
    | 2 => if neg then big else infEnc f neg
    | _ => if neg then infEnc f neg else big

/-- The largest finite magnitude as significand and exponent (R131). -/
def Fmt.vmax (f : Fmt) : Nat × Int :=
  if f.e4 then (14, 5) else (2 ^ f.prec - 1, (f.bias : Int) - f.fw)

/-- RoundTo of a nonzero finite exact value at precision `p` (R131, R132, and R180's Round12 with p = 12). -/
def roundFin (f : Fmt) (p : Nat) (mode : Nat) (sat ftz : Bool) (x : Ex) : Nat × Flags :=
  let e := ilog2 x.num x.den
  let at_ := fun (s : Int) => let y := x.scale (-s); roundMag mode x.neg y.num y.den
  let qt := e - p + 1
  let t := at_ qt
  let tiny := gtPow 1 f.emin t qt
  let q := (if e < f.emin then f.emin else e) - p + 1
  let y := at_ q
  let back := x.scale (-q)
  let inexact := decide (y * back.den ≠ back.num)
  if tiny && ftz then (f.sgn x.neg, fUF ||| fIX)
  else
    let fl : Flags := (if inexact then fIX else 0) ||| (if tiny && inexact then fUF else 0)
    let v := f.vmax
    if gtPow y q v.1 v.2 then (overflowEnc f x.neg mode sat, fl ||| fOF ||| fIX)
    else (f.sgn x.neg + encodeMag f y q, fl)

/-- RoundTo of a finite exact value; a zero keeps its sign (R131). -/
def roundTo (f : Fmt) (mode : Nat) (sat ftz : Bool) (x : Ex) : Nat × Flags :=
  if x.num = 0 then (f.sgn x.neg, 0) else roundFin f f.prec mode sat ftz x

/-- Round12 of R180: twelve bits, overflow alone raised. -/
def round12 (f : Fmt) (ftz : Bool) (x : Ex) : Nat × Flags :=
  let r := roundFin f 12 0 false ftz x
  (r.1, r.2 &&& fOF)

/-- ConvertNaN (R133). -/
def convertNaN (g f : Fmt) (x : Nat) : Nat :=
  let s := f.sgn (g.neg x)
  if f.e4 || g.e4 then s + f.dflt
  else
    let pay := g.fracOf x % 2 ^ (g.fw - 1)
    let pay' := if f.fw ≤ g.fw then pay / 2 ^ (g.fw - f.fw) else pay * 2 ^ (f.fw - g.fw)
    s + f.dflt + pay'

/-- ProcessNaN over operands of one format (R133). -/
def processNaN (g f : Fmt) (xs : List Nat) : Nat × Flags :=
  let fl : Flags := if xs.any (isSNaN g) then fIV else 0
  match xs.find? (isNaN g) with
  | some n => (convertNaN g f (quiet g n), fl)
  | none => (f.dflt, fl)

/-- A subnormal operand under `.ftz` (R132). -/
def flush (f : Fmt) (ftz : Bool) (x : Nat) : Nat := if ftz && isSub f x then f.sgn (f.neg x) else x

/-- The end of a sum: exact zeros by R177, else RoundTo. `zs` is the sign when every addend is a zero of it. -/
def finishSum (f : Fmt) (mode : Nat) (ftz : Bool) (zs : Option Bool) (x : Ex) : Nat × Flags :=
  if x.num = 0 then
    (f.sgn (match zs with | some s => s | none => mode == 3), 0)
  else roundTo f mode false ftz x

/-- The common sign of two zeros, if they are two zeros of one sign (R177). -/
def zeroSign (az : Bool) (as : Bool) (bz : Bool) (bs : Bool) : Option Bool :=
  if az && bz && (as == bs) then some as else none

/-- FADD of R177, and FSUB with `sub`. -/
def fpAdd (f : Fmt) (mode : Nat) (ftz sub : Bool) (a0 b0 : Nat) : Nat × Flags :=
  let a := flush f ftz a0
  let b := flush f ftz b0
  if isNaN f a || isNaN f b then processNaN f f [a, b]
  else
    let an := f.neg a
    let bn := xor (f.neg b) sub
    if isInf f a then (if isInf f b && an != bn then (f.dflt, fIV) else (infEnc f an, 0))
    else if isInf f b then (infEnc f bn, 0)
    else
      let y := decodeFp f b
      finishSum f mode ftz (zeroSign (isZero f a) an (isZero f b) bn) ((decodeFp f a).add { y with neg := bn })

/-- FMUL of R177. -/
def fpMul (f : Fmt) (mode : Nat) (ftz : Bool) (a0 b0 : Nat) : Nat × Flags :=
  let a := flush f ftz a0
  let b := flush f ftz b0
  if isNaN f a || isNaN f b then processNaN f f [a, b]
  else
    let s := xor (f.neg a) (f.neg b)
    if isInf f a || isInf f b then
      if isZero f a || isZero f b then (f.dflt, fIV) else (infEnc f s, 0)
    else roundTo f mode false ftz ((decodeFp f a).mul (decodeFp f b))

/-- FFMA of R177: a * b + d. -/
def fpFma (f : Fmt) (mode : Nat) (ftz : Bool) (a0 b0 d0 : Nat) : Nat × Flags :=
  let a := flush f ftz a0
  let b := flush f ftz b0
  let d := flush f ftz d0
  if isNaN f a || isNaN f b then processNaN f f [a, b, d]
  else if (isZero f a && isInf f b) || (isInf f a && isZero f b) then
    (if isNaN f d then convertNaN f f (quiet f d) else f.dflt, fIV)
  else if isNaN f d then processNaN f f [d]
  else
    let s := xor (f.neg a) (f.neg b)
    if isInf f a || isInf f b then
      if isInf f d && f.neg d != s then (f.dflt, fIV) else (infEnc f s, 0)
    else if isInf f d then (infEnc f (f.neg d), 0)
    else
      finishSum f mode ftz (zeroSign (isZero f a || isZero f b) s (isZero f d) (f.neg d))
        (((decodeFp f a).mul (decodeFp f b)).add (decodeFp f d))

/-- FDIV of R178. -/
def fpDiv (f : Fmt) (mode : Nat) (ftz : Bool) (a0 b0 : Nat) : Nat × Flags :=
  let a := flush f ftz a0
  let b := flush f ftz b0
  if isNaN f a || isNaN f b then processNaN f f [a, b]
  else
    let s := xor (f.neg a) (f.neg b)
    if isInf f a then (if isInf f b then (f.dflt, fIV) else (infEnc f s, 0))
    else if isInf f b then (f.sgn s, 0)
    else if isZero f b then (if isZero f a then (f.dflt, fIV) else (infEnc f s, fDZ))
    else
      let x := decodeFp f a
      let y := decodeFp f b
      roundTo f mode false ftz ⟨s, x.num * y.den, x.den * y.num⟩

/-- Integer square root by Newton's steps from above; the fuel covers every operand width used. -/
def isqrtGo : Nat → Nat → Nat → Nat
  | 0, _, x => x
  | k + 1, n, x => let y := (x + n / x) / 2; if y < x then isqrtGo k n y else x
def isqrt (n : Nat) : Nat := if n = 0 then 0 else isqrtGo 64 n (2 ^ (Nat.log2 n / 2 + 1))

/-- The square root of num / den, exact or strictly between its neighbours on a grid of 2^-k that every rounding
boundary of the result lies on, so that RoundTo of it is RoundTo of the root. -/
def sqrtEx (num den : Nat) (k : Nat) : Ex :=
  let n := num * den * 4 ^ k
  let s := isqrt n
  if s * s = n then ⟨false, s, den * 2 ^ k⟩ else ⟨false, 2 * s + 1, den * 2 ^ (k + 1)⟩
def Fmt.grid (f : Fmt) : Nat := 2 ^ f.ew

/-- FSQRT of R178. -/
def fpSqrt (f : Fmt) (mode : Nat) (ftz : Bool) (a0 : Nat) : Nat × Flags :=
  let a := flush f ftz a0
  if isNaN f a then processNaN f f [a]
  else if isZero f a then (a, 0)
  else if f.neg a then (f.dflt, fIV)
  else if isInf f a then (a, 0)
  else let x := decodeFp f a; roundTo f mode false ftz (sqrtEx x.num x.den f.grid)

/-- FRCPA of R180. -/
def fpRcp (f : Fmt) (ftz : Bool) (a0 : Nat) : Nat × Flags :=
  let a := flush f ftz a0
  if isNaN f a then processNaN f f [a]
  else if isZero f a then (infEnc f (f.neg a), fDZ)
  else if isInf f a then (f.sgn (f.neg a), 0)
  else let x := decodeFp f a; round12 f ftz ⟨x.neg, x.den, x.num⟩

/-- FRSQA of R180. -/
def fpRsq (f : Fmt) (ftz : Bool) (a0 : Nat) : Nat × Flags :=
  let a := flush f ftz a0
  if isNaN f a then processNaN f f [a]
  else if isZero f a then (infEnc f (f.neg a), fDZ)
  else if f.neg a then (f.dflt, fIV)
  else if isInf f a then (0, 0)
  else let x := decodeFp f a; round12 f ftz (sqrtEx x.den x.num f.grid)

/-- The order of two non-NaN encodings as integers; -0 and +0 are both 0. -/
def fpKey (f : Fmt) (x : Nat) : Int := if f.neg x then -(f.mag x : Int) else f.mag x

/-- FMIN and FMAX of R179 (minimumNumber, maximumNumber of R133). -/
def fpMinMax (f : Fmt) (mx ftz : Bool) (a0 b0 : Nat) : Nat × Flags :=
  let a := flush f ftz a0
  let b := flush f ftz b0
  let fl : Flags := if isSNaN f a || isSNaN f b then fIV else 0
  if isNaN f a then (if isNaN f b then processNaN f f [a, b] else (b, fl))
  else if isNaN f b then (a, fl)
  else
    let aLess := decide (fpKey f a < fpKey f b) || (fpKey f a == fpKey f b && f.neg a)
    (if aLess != mx then a else b, 0)

/-- FSETP of R181. -/
def fpCmp (f : Fmt) (c : Nat) (ftz : Bool) (a0 b0 : Nat) : Bool × Flags :=
  let a := flush f ftz a0
  let b := flush f ftz b0
  let nan := isNaN f a || isNaN f b
  let sn := isSNaN f a || isSNaN f b
  let x := fpKey f a
  let y := fpKey f b
  let fl : Flags := if (if 2 ≤ c && c ≤ 5 then nan else sn) then fIV else 0
  (match c with
    | 0 => !nan && x == y
    | 1 => nan || x != y
    | 2 => !nan && decide (x < y)
    | 3 => !nan && decide (x ≤ y)
    | 4 => !nan && decide (y < x)
    | 5 => !nan && decide (y ≤ x)
    | 6 => nan
    | _ => !nan, fl)

/-- FCLASS of R182. -/
def fpClass (f : Fmt) (ftz : Bool) (a0 : Nat) : Nat :=
  let a := flush f ftz a0
  let n := f.neg a
  2 ^ (if isNaN f a then (if isSNaN f a then 8 else 9)
    else if isInf f a then (if n then 0 else 7)
    else if isZero f a then (if n then 3 else 4)
    else if isSub f a then (if n then 2 else 5)
    else if n then 1 else 6)

/-- The float named by the two-bit code of R184. -/
def cvtFmt (c : Nat) : Fmt := match c % 4 with | 0 => f64 | 1 => f32 | 2 => f16 | _ => bf16

/-- Float to float (R134, R185). -/
def cvtFF (g f : Fmt) (mode : Nat) (sat ftz : Bool) (x0 : Nat) : Nat × Flags :=
  let flS := ftz && (g == f32 || g == f16)
  let flD := ftz && (f == f32 || f == f16)
  let x := flush g flS x0
  if isNaN g x then processNaN g f [x]
  else if isInf g x then
    if sat then (f.sgn (g.neg x) + f.maxMag, 0)
    else (infEnc f (g.neg x), if f.e4 then fIV else 0)
  else roundTo f mode sat flD (decodeFp g x)

/-- Float rounded to integral in its own format (R185). -/
def cvtIntegral (f : Fmt) (mode : Nat) (x : Nat) : Nat × Flags :=
  if isNaN f x then processNaN f f [x]
  else if isInf f x || isZero f x then (x, 0)
  else
    let v := decodeFp f x
    let r := roundMag mode v.neg v.num v.den
    let fl : Flags := if r * v.den = v.num then 0 else fIX
    if r = 0 then (f.sgn v.neg, fl) else (f.sgn v.neg + encodeMag f r 0, fl)

/-- An integer in two's complement of n bits. -/
def toTwos (n : Nat) (v : Int) : Nat := (v % (2 ^ n : Nat)).toNat
/-- Sat (R134) to a signed or unsigned range of n bits. -/
def satTo (sgn : Bool) (n : Nat) (v : Int) : Int :=
  let lo : Int := if sgn then -(2 ^ (n - 1) : Nat) else 0
  let hi : Int := if sgn then (2 ^ (n - 1) : Nat) - 1 else (2 ^ n : Nat) - 1
  if v < lo then lo else if hi < v then hi else v
/-- The integer value of n bits. -/
def ofTwos (sgn : Bool) (n : Nat) (x : Nat) : Int :=
  let y := x % 2 ^ n
  if sgn && 2 ^ (n - 1) ≤ y then (y : Int) - (2 ^ n : Nat) else y

/-- Float to integer (R134, R185): CVTSAT raises no flag where CVT raises IV for range. -/
def cvtFI (g : Fmt) (sgn : Bool) (n : Nat) (mode : Nat) (satForm : Bool) (x : Nat) : Nat × Flags :=
  if isNaN g x then (0, fIV)
  else
    let big : Int := if g.neg x then -(2 ^ 70 : Nat) else (2 ^ 70 : Nat)
    let v := decodeFp g x
    let r := roundMag mode v.neg v.num v.den
    let ri : Int := if isInf g x then big else if v.neg then -(r : Int) else r
    let s := satTo sgn n ri
    if s = ri then (toTwos n s, if r * v.den = v.num then 0 else fIX)
    else (toTwos n s, if satForm then 0 else fIV)

/-- Integer to float (R134, R185): a conversion that does not saturate gives the infinity of its sign when it overflows, in
every rounding mode. -/
def cvtIF (f : Fmt) (mode : Nat) (sat : Bool) (v : Int) : Nat × Flags :=
  let r := roundTo f mode sat false (Ex.ofInt v 1)
  if !sat && r.2 &&& fOF != 0 then (infEnc f (decide (v < 0)), r.2) else r

/-- CVT and CVTSAT by conversion code (R184, R185): the source's bits in, the result's bits and flags out. Narrow
integer results come out extended to 32 bits. -/
def cvtOp (sat : Bool) (b m : Nat) (x : Nat) : Nat × Flags :=
  let ftz := m == 1
  let ffx := fun (g f : Fmt) (e : Bool) => cvtFF g f (if e then 0 else m) sat (e && ftz) (x % (2 * g.signBit))
  if b < 16 then
    let f := cvtFmt (b / 4)
    let g := cvtFmt b
    if b / 4 = b % 4 then cvtIntegral f m (x % (2 * f.signBit))
    else ffx g f (b == 0x01 || b == 0x02 || b == 0x03 || b == 0x06 || b == 0x07)
  else if b < 32 then
    let g := cvtFmt (b / 4)
    let c := b % 4
    cvtFI g (c % 2 == 0) (if c < 2 then 32 else 64) m sat (x % (2 * g.signBit))
  else if b < 48 then
    let f := cvtFmt (b / 4)
    let c := b % 4
    cvtIF f (if b == 0x20 || b == 0x21 then 0 else m) sat (ofTwos (c % 2 == 0) (if c < 2 then 32 else 64) x)
  else match b with
    | 0x30 => ffx e4m3 f32 true
    | 0x31 => ffx e5m2 f32 true
    | 0x32 => ffx f32 e4m3 false
    | 0x33 => ffx f32 e5m2 false
    | 0x34 => ffx e4m3 f16 true
    | 0x35 => ffx e5m2 f16 true
    | 0x36 => ffx f16 e4m3 false
    | 0x37 => ffx f16 e5m2 false
    | 0x38 => (toTwos 32 (if sat then satTo true 32 (ofTwos true 64 x) else ofTwos true 64 x), 0)
    | 0x39 => (toTwos 32 (if sat then satTo false 32 (ofTwos false 64 x) else ofTwos false 64 x), 0)
    | 0x3a => (toTwos 64 (ofTwos true 32 x), 0)
    | 0x3b => (toTwos 64 (ofTwos false 32 x), 0)
    | 0x3c => (toTwos 32 (if sat then satTo true 16 (ofTwos true 32 x) else ofTwos true 16 x), 0)
    | 0x3d => (toTwos 32 (if sat then satTo true 8 (ofTwos true 32 x) else ofTwos true 8 x), 0)
    | 0x3e => (toTwos 32 (if sat then satTo false 16 (ofTwos false 32 x) else ofTwos false 16 x), 0)
    | _ => (toTwos 32 (if sat then satTo false 8 (ofTwos false 32 x) else ofTwos false 8 x), 0)

/-- One 16-bit element of a packed register (R122). -/
def half (x : BitVec 32) (j : Nat) : Nat := x.toNat / 2 ^ (16 * j) % 65536
/-- A packed operation on both elements, flags ORed (R183). -/
def packed (op : Nat → Nat × Flags) : Nat × Flags :=
  let a := op 0
  let b := op 1
  (a.1 % 65536 + 65536 * (b.1 % 65536), a.2 ||| b.2)

/-! HX4 (R125-R127, R140, R141). -/

/-- The magnitude of an element code in halves: 0, 0.5, 1, 1.5, 2, 3, 4, 6 (R125). -/
def hxHalves (c : Nat) : Nat := match c % 8 with
  | 0 => 0 | 1 => 1 | 2 => 2 | 3 => 3 | 4 => 4 | 5 => 6 | 6 => 8 | _ => 12
/-- The extra value X of a header's low six bits (R126), in quarters of its power: an exact value. -/
def hxExtra (x : Nat) : Ex :=
  let e := x / 4 % 8
  if e = 0 then ⟨false, 0, 1⟩ else ⟨x / 32 % 2 == 1, 2 ^ (e - 1) * (4 + x % 4), 4⟩
/-- DecodeHX4 of a code under a header, without the scale (R125, R126). A zero is +0. -/
def hxDecode (c h : Nat) : Ex :=
  if c % 16 = 8 then hxExtra (h % 64)
  else if c % 8 = 0 then ⟨false, 0, 1⟩ else ⟨8 ≤ c % 16, hxHalves c, 2⟩
/-- ScaleOf a header (R126): 2^(E-127) * (1 + F/4). -/
def hxScale (h : Nat) : Ex := Ex.scale ⟨false, 4 + h / 64 % 4, 4⟩ ((h / 256 % 256 : Nat) - 127 : Int)
/-- E = 255: a NaN block (R126). -/
def hxNaN (h : Nat) : Bool := h / 256 % 256 == 255

/-- SCeil of R140 as E * 4 + F: the smallest scale at or above y. -/
def sCeil (y : Ex) : Nat :=
  if y.num = 0 then 0
  else
    let e := ilog2 y.num y.den
    let z := y.scale (-e)
    -- z lies in [1, 2): the quarter steps above 1 that it needs
    let f := (4 * z.num + z.den - 1) / z.den - 4
    let n := (e + 127) * 4 + f
    if n < 0 then 0 else if 254 * 4 + 3 < n then 254 * 4 + 3
    else if e < -127 then 0 else n.toNat

/-- |a - b| of exact values. -/
def Ex.dist (a b : Ex) : Ex := let d := a.add b.negate; { d with neg := false }

/-- Nearest of R140: candidates as (code, value, is the X candidate); ties go to an element code over X, then to a
clear bit [0]. -/
def hxNearest (q : Ex) : List (Nat × Ex × Bool) → Option (Nat × Ex × Bool)
  | [] => none
  | c :: cs =>
    match hxNearest q cs with
    | none => some c
    | some b =>
      let dc := Ex.dist q c.2.1
      let db := Ex.dist q b.2.1
      if dc.lt db then some c
      else if db.lt dc then some b
      else if c.2.2 != b.2.2 then (if c.2.2 then some b else some c)
      else if c.1 % 2 == 0 then some c else some b

/-- The element codes of R125 other than the extra value's, as candidates; a zero is code 0. -/
def hxCodes : List (Nat × Ex × Bool) :=
  [1, 2, 3, 4, 5, 6, 7, 9, 10, 11, 12, 13, 14, 15].map (fun c => (c, hxDecode c 0, false)) ++ [(0, ⟨false, 0, 1⟩, false)]
/-- The X values of R126 with e at least 1, as candidates. -/
def hxExtras : List (Nat × Ex × Bool) := (List.range 64).filterMap fun x =>
  if x / 4 % 8 = 0 then none else some (x, hxExtra x, false)

/-- The quotient of an exact value by a positive one. -/
def Ex.divBy (x s : Ex) : Ex := ⟨x.neg, x.num * s.den, x.den * s.num⟩
/-- |x| > n. -/
def Ex.absGt (x : Ex) (n : Nat) : Bool := decide (n * x.den < x.num)

/-- The end of both block procedures: header, codes and flags from the chosen header and codes. -/
def hxFinish (h : Nat) (xs : List Ex) (codes : List Nat) : Nat × List Nat × Flags :=
  let s := hxScale h
  let inexact := (xs.zip codes).any fun p => !((hxDecode p.2 h).mul s).eq p.1
  let big := (xs.zip codes).any fun p => (p.1.divBy s).absGt (if p.2 = 8 then 112 else 6)
  (h, codes, (if inexact then fIX else 0) ||| (if big then fOF else 0))

/-- The flags and result of a block that holds a NaN or an infinity (R140). -/
def hxBad (h : Nat) (xs : List Nat) : Nat × List Nat × Flags :=
  (h, xs.map (fun _ => 0), if xs.any (fun x => isSNaN f32 x || isInf f32 x) then fIV else 0)

/-- CvtBlkBasic of R140 on f32 encodings. -/
def cvtBlkBasic (xs : List Nat) : Nat × List Nat × Flags :=
  if xs.any (fun x => isNaN f32 x || isInf f32 x) then hxBad 0xff00 xs
  else
    let mags := xs.map (f32.mag ·)
    let m1 := mags.foldl max 0
    let i1 := mags.idxOf m1
    let m2 := (mags.set i1 0).foldl max 0
    if m1 = 0 then (0, xs.map (fun _ => 0), 0)
    else
      let v1 := decodeFp f32 m1
      let v2 := decodeFp f32 m2
      let ef := max (sCeil ⟨false, v2.num, v2.den * 6⟩) (sCeil ⟨false, v1.num, v1.den * 112⟩)
      let h0 := ef * 64
      let s := hxScale h0
      let vs := xs.map (decodeFp f32)
      let big := (v1.divBy s).absGt 6
      let q1 := ((vs[i1]?).getD ⟨false, 0, 1⟩).divBy s
      let x := if big then (match hxNearest q1 hxExtras with | some c => c.1 | none => 0) else 0
      let codes := (vs.zipIdx).map fun p =>
        if big && p.2 == i1 then 8
        else match hxNearest (p.1.divBy s) hxCodes with | some c => c.1 | none => 0
      hxFinish (h0 + x) vs codes

/-- The expert procedure of R141: header h from the g operand. -/
def cvtBlkExpert (h : Nat) (xs : List Nat) : Nat × List Nat × Flags :=
  if hxNaN h then hxBad h xs
  else if xs.any (fun x => isNaN f32 x || isInf f32 x) then hxBad 0xff00 xs
  else
    let s := hxScale h
    let vs := xs.map (decodeFp f32)
    let cands := hxCodes ++ (if h / 4 % 8 = 0 then [] else [(8, hxExtra (h % 64), true)])
    let codes := vs.map fun v => match hxNearest (v.divBy s) cands with | some c => c.1 | none => 0
    hxFinish h vs codes

end Sys2Proof.Machine
end

