-- ==== Sys2Proof/Machine/LaneInt.lean ====
section
/-! DEFINITION. Lane integer, logic and predicate instructions (R167-R175). One definition per instruction over shared
operations on values. -/
namespace Sys2Proof.Machine

/-- An exact integer result in a 32-bit register: wrapped, or saturated signed or unsigned, by M (R167). -/
def narrow32 (m : Nat) (v : Int) : B32 :=
  BitVec.ofNat 32 (toTwos 32 (match m with | 1 => satTo true 32 v | 2 => satTo false 32 v | _ => v))
/-- The same in a pair. -/
def narrow64 (m : Nat) (v : Int) : B64 :=
  BitVec.ofNat 64 (toTwos 64 (match m with | 1 => satTo true 64 v | 2 => satTo false 64 v | _ => v))
/-- An operand read as M saturates: unsigned only under `.sat.n`. -/
def intOf {w : Nat} (sgn : Bool) (x : BitVec w) : Int := if sgn then x.toInt else x.toNat
/-- IADD and ISUB of R167: the exact sum, then the narrowing that M names. -/
def addSub {w : Nat} (sub : Bool) (m : Nat) (a b : BitVec w) : Int :=
  let x := intOf (m != 2) a
  let y := intOf (m != 2) b
  if sub then x - y else x + y
/-- Bits [63:32] of the exact product (R167). -/
def mulHi (uns : Bool) (a b : B32) : B32 := BitVec.ofNat 32 (toTwos 64 (intOf (!uns) a * intOf (!uns) b) / 2 ^ 32)
/-- The smaller or larger, compared by type (R147, R167). -/
def pickMinMax {w : Nat} (mx uns : Bool) (a b : BitVec w) : BitVec w :=
  let le := decide (intOf (!uns) a ≤ intOf (!uns) b)
  if le != mx then a else b
/-- IABS (R167). -/
def absVal {w : Nat} (sat : Bool) (a : BitVec w) : BitVec w :=
  if a.toInt < 0 then (if sat && a == BitVec.intMin w then BitVec.intMax w else -a) else a
/-- Shifts by a count read as unsigned; SAR fills with the sign (R147, R167). -/
def shiftL {w : Nat} (a : BitVec w) (c : Nat) : BitVec w := if w ≤ c then 0 else a <<< c
def shiftR {w : Nat} (a : BitVec w) (c : Nat) : BitVec w := if w ≤ c then 0 else a >>> c
def shiftA {w : Nat} (a : BitVec w) (c : Nat) : BitVec w :=
  a.sshiftRight (if w ≤ c then w - 1 else c)
/-- Leading zeros, the width for zero (R167). -/
def leadZeros {w : Nat} (a : BitVec w) : Nat := if a = 0 then w else w - 1 - Nat.log2 a.toNat
/-- Compare under a condition code 0-5 (R150, R168). -/
def condInt (c : Nat) (x y : Int) : Bool :=
  match c with
  | 0 => x == y | 1 => x != y | 2 => decide (x < y) | 3 => decide (x ≤ y) | 4 => decide (y < x) | _ => decide (y ≤ x)
/-- BFE and BFI positions (R169): pos and effective length. -/
def bfPos (b : B32) : Nat × Nat :=
  let pos := fld b.toNat 0 8
  (pos, if 32 ≤ pos then 0 else min (fld b.toNat 8 8) (32 - pos))
/-- The two-operand predicate operations (R151, R174). -/
def predOp (m : Nat) (a b : Bool) : Bool := match m with | 0 => a && b | 1 => a || b | 2 => xor a b | _ => a && !b

/-- A two-source word in 32 or 64 bits by a width bit (R167). -/
def bin (w : BitVec 1) (d a b : BitVec 6) (f : (n : Nat) → BitVec n → BitVec n → BitVec n) (x : LaneIn) : LaneOut :=
  if w = 1 then out2 d.toNat (f 64 (x.rd2 a.toNat) (x.rd2 b.toNat)) else out1 d.toNat (f 32 (x.rd a.toNat) (x.rd b.toNat))
/-- A one-source word in 32 or 64 bits. -/
def una (w : BitVec 1) (d a : BitVec 6) (f : (n : Nat) → BitVec n → BitVec n) (x : LaneIn) : LaneOut :=
  if w = 1 then out2 d.toNat (f 64 (x.rd2 a.toNat)) else out1 d.toNat (f 32 (x.rd a.toNat))
/-- A shift: the count is one register in both widths. -/
def shf (w : BitVec 1) (d a b : BitVec 6) (f : (n : Nat) → BitVec n → Nat → BitVec n) (x : LaneIn) : LaneOut :=
  let c := (x.rd b.toNat).toNat
  if w = 1 then out2 d.toNat (f 64 (x.rd2 a.toNat) c) else out1 d.toNat (f 32 (x.rd a.toNat) c)
/-- A count of one source into a single register. -/
def cnt (w : BitVec 1) (d a : BitVec 6) (f : (n : Nat) → BitVec n → Nat) (x : LaneIn) : LaneOut :=
  out1 d.toNat (BitVec.ofNat 32 (if w = 1 then f 64 (x.rd2 a.toNat) else f 32 (x.rd a.toNat)))
/-- A destructive short-immediate word (R171). -/
def imm (d : BitVec 6) (i : BitVec 12) (f : B32 → B32 → B32) (x : LaneIn) : LaneOut :=
  out1 d.toNat (f (x.rd d.toNat) (i.signExtend 32))

abbrev Res := Host.Outcome State Fault Refusal

def execIadd (g : Guard) (m : BitVec 2) (d a b : BitVec 6) (s : State) : Res :=
  laneWord (.iadd g m d a b) g true s fun x =>
    out1 d.toNat (narrow32 m.toNat (addSub false m.toNat (x.rd a.toNat) (x.rd b.toNat)))
def execIsub (g : Guard) (m : BitVec 2) (d a b : BitVec 6) (s : State) : Res :=
  laneWord (.isub g m d a b) g true s fun x =>
    out1 d.toNat (narrow32 m.toNat (addSub true m.toNat (x.rd a.toNat) (x.rd b.toNat)))
def execImul (g : Guard) (d a b : BitVec 6) (s : State) : Res :=
  laneWord (.imul g d a b) g true s fun x => out1 d.toNat (x.rd a.toNat * x.rd b.toNat)
def execImulh (g : Guard) (sg : BitVec 1) (d a b : BitVec 6) (s : State) : Res :=
  laneWord (.imulh g sg d a b) g true s fun x => out1 d.toNat (mulHi (sg == 1) (x.rd a.toNat) (x.rd b.toNat))
/-- R173. -/
def execImad (g : Guard) (m : BitVec 2) (d a b : BitVec 6) (s : State) : Res :=
  laneWord (.imad g m d a b) g true s fun x =>
    let p := fun (sgn : Bool) =>
      out2 d.toNat (BitVec.ofNat 64 (toTwos 64 (intOf sgn (x.rd a.toNat) * intOf sgn (x.rd b.toNat))) + x.rd2 d.toNat)
    if m = 0 then out1 d.toNat (x.rd a.toNat * x.rd b.toNat + x.rd d.toNat) else p (m == 2)
def execImin (g : Guard) (m : BitVec 2) (d a b : BitVec 6) (s : State) : Res :=
  laneWord (.imin g m d a b) g true s
    (bin (if 2 ≤ m.toNat then 1 else 0) d a b fun _ => pickMinMax false (m.toNat % 2 == 1))
def execImax (g : Guard) (m : BitVec 2) (d a b : BitVec 6) (s : State) : Res :=
  laneWord (.imax g m d a b) g true s
    (bin (if 2 ≤ m.toNat then 1 else 0) d a b fun _ => pickMinMax true (m.toNat % 2 == 1))
def execIabs (g : Guard) (m : BitVec 2) (d a : BitVec 6) (s : State) : Res :=
  laneWord (.iabs g m d a) g true s (una (if 2 ≤ m.toNat then 1 else 0) d a fun _ => absVal (m.toNat % 2 == 1))
def execAndL (g : Guard) (w : BitVec 1) (d a b : BitVec 6) (s : State) : Res :=
  laneWord (.andL g w d a b) g true s (bin w d a b fun _ x y => x &&& y)
def execOrL (g : Guard) (w : BitVec 1) (d a b : BitVec 6) (s : State) : Res :=
  laneWord (.orL g w d a b) g true s (bin w d a b fun _ x y => x ||| y)
def execXorL (g : Guard) (w : BitVec 1) (d a b : BitVec 6) (s : State) : Res :=
  laneWord (.xorL g w d a b) g true s (bin w d a b fun _ x y => x ^^^ y)
def execNotL (g : Guard) (w : BitVec 1) (d a : BitVec 6) (s : State) : Res :=
  laneWord (.notL g w d a) g true s (una w d a fun _ x => ~~~x)
def execShl (g : Guard) (w : BitVec 1) (d a b : BitVec 6) (s : State) : Res :=
  laneWord (.shl g w d a b) g true s (shf w d a b fun _ => shiftL)
def execShr (g : Guard) (w : BitVec 1) (d a b : BitVec 6) (s : State) : Res :=
  laneWord (.shr g w d a b) g true s (shf w d a b fun _ => shiftR)
def execSar (g : Guard) (w : BitVec 1) (d a b : BitVec 6) (s : State) : Res :=
  laneWord (.sar g w d a b) g true s (shf w d a b fun _ => shiftA)
def execMov (g : Guard) (w : BitVec 1) (d a : BitVec 6) (s : State) : Res :=
  laneWord (.mov g w d a) g true s (una w d a fun _ x => x)
/-- R169. -/
def execBfe (g : Guard) (sg : BitVec 1) (d a b : BitVec 6) (s : State) : Res :=
  laneWord (.bfe g sg d a b) g true s fun x =>
    let pl := bfPos (x.rd b.toNat)
    let f := fld (x.rd a.toNat).toNat pl.1 pl.2
    out1 d.toNat (if pl.2 = 0 then 0 else if sg = 1 then (sext64 pl.2 f).setWidth 32 else BitVec.ofNat 32 f)
/-- R169. -/
def execBfi (g : Guard) (d a b : BitVec 6) (s : State) : Res :=
  laneWord (.bfi g d a b) g true s fun x =>
    let pl := bfPos (x.rd b.toNat)
    let old := x.rd d.toNat
    out1 d.toNat (if pl.2 = 0 then old else BitVec.ofNat 32 (setFld old.toNat pl.1 pl.2 (x.rd a.toNat).toNat))
def execPopc (g : Guard) (w : BitVec 1) (d a : BitVec 6) (s : State) : Res :=
  laneWord (.popc g w d a) g true s (cnt w d a fun _ => popCount)
def execClz (g : Guard) (w : BitVec 1) (d a : BitVec 6) (s : State) : Res :=
  laneWord (.clz g w d a) g true s (cnt w d a fun _ => leadZeros)
def execBrev (g : Guard) (w : BitVec 1) (d a : BitVec 6) (s : State) : Res :=
  laneWord (.brev g w d a) g true s (una w d a fun _ x => x.reverse)
/-- R170: the predicate selects and is no guard. -/
def execSel (p : BitVec 3) (n w : BitVec 1) (d a b : BitVec 6) (s : State) : Res :=
  laneWord (.sel p n w d a b) noGuard true s fun x =>
    bin w d a b (fun _ y z => if guardQ x.pr ⟨p, n⟩ then y else z) x
/-- R168. -/
def execIsetp (g : Guard) (t : BitVec 2) (c q : BitVec 3) (a b : BitVec 6) (s : State) : Res :=
  laneWord (.isetp g t c q a b) g true s fun x =>
    let sgn := t.toNat % 2 == 0
    outP q.toNat (if 2 ≤ t.toNat then condInt c.toNat (intOf sgn (x.rd2 a.toNat)) (intOf sgn (x.rd2 b.toNat))
      else condInt c.toNat (intOf sgn (x.rd a.toNat)) (intOf sgn (x.rd b.toNat)))
def execIadd64 (g : Guard) (m : BitVec 2) (d a b : BitVec 6) (s : State) : Res :=
  laneWord (.iadd64 g m d a b) g true s fun x =>
    out2 d.toNat (narrow64 m.toNat (addSub false m.toNat (x.rd2 a.toNat) (x.rd2 b.toNat)))
def execIsub64 (g : Guard) (m : BitVec 2) (d a b : BitVec 6) (s : State) : Res :=
  laneWord (.isub64 g m d a b) g true s fun x =>
    out2 d.toNat (narrow64 m.toNat (addSub true m.toNat (x.rd2 a.toNat) (x.rd2 b.toNat)))
def execIaddi (g : Guard) (d : BitVec 6) (i : BitVec 12) (s : State) : Res :=
  laneWord (.iaddi g d i) g true s (imm d i fun x k => x + k)
def execImuli (g : Guard) (d : BitVec 6) (i : BitVec 12) (s : State) : Res :=
  laneWord (.imuli g d i) g true s (imm d i fun x k => x * k)
def execAndi (g : Guard) (d : BitVec 6) (i : BitVec 12) (s : State) : Res :=
  laneWord (.andi g d i) g true s (imm d i fun x k => x &&& k)
def execOri (g : Guard) (d : BitVec 6) (i : BitVec 12) (s : State) : Res :=
  laneWord (.ori g d i) g true s (imm d i fun x k => x ||| k)
def execXori (g : Guard) (d : BitVec 6) (i : BitVec 12) (s : State) : Res :=
  laneWord (.xori g d i) g true s (imm d i fun x k => x ^^^ k)
def execShli (g : Guard) (d : BitVec 6) (i : BitVec 12) (s : State) : Res :=
  laneWord (.shli g d i) g true s (imm d i fun x _ => shiftL x i.toNat)
def execShri (g : Guard) (d : BitVec 6) (i : BitVec 12) (s : State) : Res :=
  laneWord (.shri g d i) g true s (imm d i fun x _ => shiftR x i.toNat)
def execSari (g : Guard) (d : BitVec 6) (i : BitVec 12) (s : State) : Res :=
  laneWord (.sari g d i) g true s (imm d i fun x _ => shiftA x i.toNat)
/-- R172. -/
def execMovi (d : BitVec 6) (i : BitVec 18) (s : State) : Res :=
  laneWord (.movi d i) noGuard true s fun _ => out1 d.toNat (i.signExtend 32)
/-- R172. -/
def execMovhi (d : BitVec 6) (i : BitVec 18) (s : State) : Res :=
  laneWord (.movhi d i) noGuard true s fun x => out1 d.toNat (x.rd d.toNat <<< 18 ||| i.setWidth 32)
/-- R174. -/
def execPlop (g : Guard) (m : BitVec 2) (d a b : BitVec 3) (s : State) : Res :=
  laneWord (.plop g m d a b) g true s fun x => outP d.toNat (predOp m.toNat (x.p a.toNat) (x.p b.toNat))
/-- R175: p7 reads 1. -/
def execPmovTov (g : Guard) (d : BitVec 6) (s : State) : Res :=
  laneWord (.pmovTov g d) g true s fun x => out1 d.toNat ((x.pr ||| 0x80#8).setWidth 32)
/-- R175. -/
def execPmovFromv (g : Guard) (a : BitVec 6) (s : State) : Res :=
  laneWord (.pmovFromv g a) g true s fun x =>
    ⟨[], (List.range 7).map fun n => (n, (x.rd a.toNat).getLsbD n), 0⟩
/-- R175: from a group predicate; outside the executor subset (R287). -/
def execPmovFromq (g : Guard) (d a : BitVec 3) (s : State) : Res :=
  issue (.pmovFromq g d a) s
    (fun u s => finishLanes u (laneOuts u g fun _ => outP d.toNat (qReg u.g a.toNat)) s) none

end Sys2Proof.Machine
end

