-- ==== Sys2Proof/Machine/LaneFp.lean ====
section
/-! DEFINITION. Lane floating, packed and conversion instructions (R176-R186). -/
namespace Sys2Proof.Machine

/-- An f32 result with its flags. -/
def outF (d : BitVec 6) (r : Nat × Flags) : LaneOut := (out1 d.toNat (BitVec.ofNat 32 r.1)).flags r.2
/-- An f64 result with its flags. -/
def outD (d : BitVec 6) (r : Nat × Flags) : LaneOut := (out2 d.toNat (BitVec.ofNat 64 r.1)).flags r.2
def LaneIn.n (x : LaneIn) (r : BitVec 6) : Nat := (x.rd r.toNat).toNat
def LaneIn.n2 (x : LaneIn) (r : BitVec 6) : Nat := (x.rd2 r.toNat).toNat

def execFaddF32 (g : Guard) (m : BitVec 2) (d a b : BitVec 6) (s : State) : Res :=
  laneWord (.faddF32 g m d a b) g true s fun x => outF d (fpAdd f32 m.toNat false false (x.n a) (x.n b))
def execFsubF32 (g : Guard) (m : BitVec 2) (d a b : BitVec 6) (s : State) : Res :=
  laneWord (.fsubF32 g m d a b) g true s fun x => outF d (fpAdd f32 m.toNat false true (x.n a) (x.n b))
def execFmulF32 (g : Guard) (m : BitVec 2) (d a b : BitVec 6) (s : State) : Res :=
  laneWord (.fmulF32 g m d a b) g true s fun x => outF d (fpMul f32 m.toNat false (x.n a) (x.n b))
def execFfmaF32 (g : Guard) (m : BitVec 2) (d a b : BitVec 6) (s : State) : Res :=
  laneWord (.ffmaF32 g m d a b) g true s fun x => outF d (fpFma f32 m.toNat false (x.n a) (x.n b) (x.n d))
def execFminF32 (g : Guard) (f : BitVec 1) (d a b : BitVec 6) (s : State) : Res :=
  laneWord (.fminF32 g f d a b) g true s fun x => outF d (fpMinMax f32 false (f == 1) (x.n a) (x.n b))
def execFmaxF32 (g : Guard) (f : BitVec 1) (d a b : BitVec 6) (s : State) : Res :=
  laneWord (.fmaxF32 g f d a b) g true s fun x => outF d (fpMinMax f32 true (f == 1) (x.n a) (x.n b))
def execFrcpaF32 (g : Guard) (f : BitVec 1) (d a : BitVec 6) (s : State) : Res :=
  laneWord (.frcpaF32 g f d a) g false s fun x => outF d (fpRcp f32 (f == 1) (x.n a))
def execFrsqaF32 (g : Guard) (f : BitVec 1) (d a : BitVec 6) (s : State) : Res :=
  laneWord (.frsqaF32 g f d a) g false s fun x => outF d (fpRsq f32 (f == 1) (x.n a))
def execFsetpF32 (g : Guard) (f : BitVec 1) (c q : BitVec 3) (a b : BitVec 6) (s : State) : Res :=
  laneWord (.fsetpF32 g f c q a b) g true s fun x =>
    let r := fpCmp f32 c.toNat (f == 1) (x.n a) (x.n b)
    (outP q.toNat r.1).flags r.2
def execFclassF32 (g : Guard) (f : BitVec 1) (d a : BitVec 6) (s : State) : Res :=
  laneWord (.fclassF32 g f d a) g true s fun x => outF d (fpClass f32 (f == 1) (x.n a), 0)
def execFaddF64 (g : Guard) (m : BitVec 2) (d a b : BitVec 6) (s : State) : Res :=
  laneWord (.faddF64 g m d a b) g true s fun x => outD d (fpAdd f64 m.toNat false false (x.n2 a) (x.n2 b))
def execFsubF64 (g : Guard) (m : BitVec 2) (d a b : BitVec 6) (s : State) : Res :=
  laneWord (.fsubF64 g m d a b) g true s fun x => outD d (fpAdd f64 m.toNat false true (x.n2 a) (x.n2 b))
def execFmulF64 (g : Guard) (m : BitVec 2) (d a b : BitVec 6) (s : State) : Res :=
  laneWord (.fmulF64 g m d a b) g true s fun x => outD d (fpMul f64 m.toNat false (x.n2 a) (x.n2 b))
def execFfmaF64 (g : Guard) (m : BitVec 2) (d a b : BitVec 6) (s : State) : Res :=
  laneWord (.ffmaF64 g m d a b) g true s fun x => outD d (fpFma f64 m.toNat false (x.n2 a) (x.n2 b) (x.n2 d))
def execFminF64 (g : Guard) (d a b : BitVec 6) (s : State) : Res :=
  laneWord (.fminF64 g d a b) g true s fun x => outD d (fpMinMax f64 false false (x.n2 a) (x.n2 b))
def execFmaxF64 (g : Guard) (d a b : BitVec 6) (s : State) : Res :=
  laneWord (.fmaxF64 g d a b) g true s fun x => outD d (fpMinMax f64 true false (x.n2 a) (x.n2 b))
def execFrcpaF64 (g : Guard) (d a : BitVec 6) (s : State) : Res :=
  laneWord (.frcpaF64 g d a) g false s fun x => outD d (fpRcp f64 false (x.n2 a))
def execFrsqaF64 (g : Guard) (d a : BitVec 6) (s : State) : Res :=
  laneWord (.frsqaF64 g d a) g false s fun x => outD d (fpRsq f64 false (x.n2 a))
def execFsetpF64 (g : Guard) (c q : BitVec 3) (a b : BitVec 6) (s : State) : Res :=
  laneWord (.fsetpF64 g c q a b) g true s fun x =>
    let r := fpCmp f64 c.toNat false (x.n2 a) (x.n2 b)
    (outP q.toNat r.1).flags r.2
def execFclassF64 (g : Guard) (d a : BitVec 6) (s : State) : Res :=
  laneWord (.fclassF64 g d a) g true s fun x => outF d (fpClass f64 false (x.n2 a), 0)

/-! FDIV and FSQRT: SA class (R77, R178). Operands, results and the trap decision are fixed at issue (R80, R138); the
registers and %fpsr change at completion. -/

/-- Issue an FDIV or FSQRT: an operation under the clause's SA flag. A lane word that no lane takes is counted and
completed at issue (R78). While IVE or DZE is set the fragment issues nothing until it completes (R138). -/
def divWord (i : Instr) (gd : Guard) (s : State) (f : LaneIn → LaneOut) : Res :=
  issue i s (fun u s =>
    let outs := laneOuts u gd f
    if u.full false then s
    else if outs.isEmpty then u.adv s
    else
      let tr := trapLanes u.g.fpcr (outs.map fun p => (p.1, p.2.fl))
      let out : SMap B32 := outs.foldl (fun m p => p.2.wr.foldl (fun m w => smPut m (w.1 * 32 + p.1) w.2) m) []
      let o : Op := { u.op false .fdiv with out := out, trap := tr, fl := orFlags (outs.map fun p => p.2.fl) }
      let (s, k) := openOp s o
      let s := u.adv s
      if u.g.fpcr ≠ 0 then u.block (.op k) s else s) none

def execFdivF32 (g : Guard) (m : BitVec 2) (d a b : BitVec 6) (s : State) : Res :=
  divWord (.fdivF32 g m d a b) g s fun x => outF d (fpDiv f32 m.toNat false (x.n a) (x.n b))
def execFsqrtF32 (g : Guard) (m : BitVec 2) (d a : BitVec 6) (f : BitVec 1) (s : State) : Res :=
  divWord (.fsqrtF32 g m d a f) g s fun x => outF d (fpSqrt f32 m.toNat (f == 1) (x.n a))
def execFdivF64 (g : Guard) (m : BitVec 2) (d a b : BitVec 6) (s : State) : Res :=
  divWord (.fdivF64 g m d a b) g s fun x => outD d (fpDiv f64 m.toNat false (x.n2 a) (x.n2 b))
def execFsqrtF64 (g : Guard) (m : BitVec 2) (d a : BitVec 6) (s : State) : Res :=
  divWord (.fsqrtF64 g m d a) g s fun x => outD d (fpSqrt f64 m.toNat false (x.n2 a))

/-- Write an operation's lane results. -/
def applyOut (g : Gang) (out : SMap B32) : Gang := { g with v := out.foldl (fun v p => smSet v p.1 p.2 0) g.v }

/-- FDIV_FSQRT_COMPLETE (R178): writes the results and ORs the flags in, or takes FP_TRAP at the word, but for a gang that
has ended (R362). -/
def execFdivFsqrtComplete (op : Nat) (s : State) : Res :=
  match smFind s.ops op with
  | none => .next s
  | some o =>
    match o.kind with
    | .fdiv =>
      let s' := closeOp s op
      let s' := s'.adjFrag o.gid o.entry fun f =>
        if f.wait = .op op then { f with st := .ready, wait := .none } else f
      let ended := match smFind s.gangs o.gid with | some g => g.ending.isSome | none => true
      if o.trap ≠ 0 then .next (if ended then s' else terminate s' o.gid .fpTrap o.pc o.word o.trap 0)
      else .next (s'.adjGang o.gid fun g => orFpsr (applyOut g o.out) o.fl)
    | _ => .next s

/-! Packed 16-bit (R183). -/

/-- A packed word of two or three sources. -/
def pk (d : BitVec 6) (a b : BitVec 6) (f : Nat → Nat → Nat → Nat × Flags) (x : LaneIn) : LaneOut :=
  outF d (packed fun j => f (half (x.rd a.toNat) j) (half (x.rd b.toNat) j) (half (x.rd d.toNat) j))
/-- Rounding and `.ftz` of an f16x2 word by M (R183): 0 rn, 1 rz, then the same with `.ftz`. -/
def hRnd (m : BitVec 2) : Nat := m.toNat % 2
def hFtz (m : BitVec 2) : Bool := 2 ≤ m.toNat
/-- FSETP of a packed format (R183). -/
def pkCmp (f : Fmt) (m : BitVec 2) (c q : BitVec 3) (a b : BitVec 6) (x : LaneIn) : LaneOut :=
  let r := fun j => fpCmp f c.toNat false (half (x.rd a.toNat) j) (half (x.rd b.toNat) j)
  let l := (r 0).1
  let h := (r 1).1
  (outP q.toNat (match m.toNat with | 0 => l | 1 => h | 2 => l && h | _ => l || h)).flags ((r 0).2 ||| (r 1).2)

def execFaddF16x2 (g : Guard) (m : BitVec 2) (d a b : BitVec 6) (s : State) : Res :=
  laneWord (.faddF16x2 g m d a b) g true s (pk d a b fun x y _ => fpAdd f16 (hRnd m) (hFtz m) false x y)
def execFmulF16x2 (g : Guard) (m : BitVec 2) (d a b : BitVec 6) (s : State) : Res :=
  laneWord (.fmulF16x2 g m d a b) g true s (pk d a b fun x y _ => fpMul f16 (hRnd m) (hFtz m) x y)
def execFfmaF16x2 (g : Guard) (m : BitVec 2) (d a b : BitVec 6) (s : State) : Res :=
  laneWord (.ffmaF16x2 g m d a b) g true s (pk d a b fun x y z => fpFma f16 (hRnd m) (hFtz m) x y z)
def execFminF16x2 (g : Guard) (f : BitVec 1) (d a b : BitVec 6) (s : State) : Res :=
  laneWord (.fminF16x2 g f d a b) g true s (pk d a b fun x y _ => fpMinMax f16 false (f == 1) x y)
def execFmaxF16x2 (g : Guard) (f : BitVec 1) (d a b : BitVec 6) (s : State) : Res :=
  laneWord (.fmaxF16x2 g f d a b) g true s (pk d a b fun x y _ => fpMinMax f16 true (f == 1) x y)
def execFsetpF16x2 (g : Guard) (m : BitVec 2) (c q : BitVec 3) (a b : BitVec 6) (s : State) : Res :=
  laneWord (.fsetpF16x2 g m c q a b) g true s (pkCmp f16 m c q a b)
def execFaddBf16x2 (g : Guard) (m : BitVec 2) (d a b : BitVec 6) (s : State) : Res :=
  laneWord (.faddBf16x2 g m d a b) g true s (pk d a b fun x y _ => fpAdd bf16 m.toNat false false x y)
def execFmulBf16x2 (g : Guard) (m : BitVec 2) (d a b : BitVec 6) (s : State) : Res :=
  laneWord (.fmulBf16x2 g m d a b) g true s (pk d a b fun x y _ => fpMul bf16 m.toNat false x y)
def execFfmaBf16x2 (g : Guard) (m : BitVec 2) (d a b : BitVec 6) (s : State) : Res :=
  laneWord (.ffmaBf16x2 g m d a b) g true s (pk d a b fun x y z => fpFma bf16 m.toNat false x y z)
def execFminBf16x2 (g : Guard) (d a b : BitVec 6) (s : State) : Res :=
  laneWord (.fminBf16x2 g d a b) g true s (pk d a b fun x y _ => fpMinMax bf16 false false x y)
def execFmaxBf16x2 (g : Guard) (d a b : BitVec 6) (s : State) : Res :=
  laneWord (.fmaxBf16x2 g d a b) g true s (pk d a b fun x y _ => fpMinMax bf16 true false x y)
def execFsetpBf16x2 (g : Guard) (m : BitVec 2) (c q : BitVec 3) (a b : BitVec 6) (s : State) : Res :=
  laneWord (.fsetpBf16x2 g m c q a b) g true s (pkCmp bf16 m c q a b)

/-! Conversions (R184-R186). -/

/-- CVT and CVTSAT in one lane. -/
def cvtLane (sat : Bool) (m : BitVec 2) (d a b : BitVec 6) (x : LaneIn) : LaneOut :=
  let c := b.toNat
  let r := cvtOp sat c m.toNat (if cvtWideSrc c then x.n2 a else x.n a)
  if cvtWideDst c then outD d r else outF d r
def execCvt (g : Guard) (m : BitVec 2) (d a b : BitVec 6) (s : State) : Res :=
  laneWord (.cvt g m d a b) g true s (cvtLane false m d a b)
def execCvtsat (g : Guard) (m : BitVec 2) (d a b : BitVec 6) (s : State) : Res :=
  laneWord (.cvtsat g m d a b) g true s (cvtLane true m d a b)

/-- The packed words of a block's codes (R127): word k holds codes 8k to 8k + 7, the first in the low nibble. -/
def hxWord (codes : List Nat) (k : Nat) : Nat :=
  ((codes.drop (8 * k)).take 8).foldr (fun c acc => c + 16 * acc) 0
/-- A source code as an f32 code, widened exactly; a NaN keeps its payload and stays signalling or quiet. -/
def widenCode (g : Fmt) (w : Nat) : Nat :=
  if g == f32 then w
  else if isNaN g w then convertNaN g f32 w % 2 ^ 32 - (if isSNaN g w then 2 ^ 22 else 0)
  else (cvtFF g f32 0 false false w).1
/-- What a block of lanes writes (R186): word k of the packed elements in its lane k, then the header, then zeros. R140 raises
IV for the block, and every lane of the block counts as having raised it: the model's choice (R138, log 54). -/
def blkOuts (u : Iss) (l : Nat) (d a : BitVec 6) (g : Fmt) (conv : List Nat → Nat × List Nat × Flags) (b : List Nat) :
    List (Nat × LaneOut) :=
  let r := conv (b.map fun i => widenCode g ((laneReg u.g i a.toNat).toNat % (2 * g.signBit)))
  b.zipIdx.map fun p =>
    let k := p.2
    let v := if k < l / 8 then hxWord r.2.1 k else if k = l / 8 then r.1 else 0
    (p.1, (out1 d.toNat (BitVec.ofNat 32 v)).flags r.2.2)
/-- The lanes of each block (R186). -/
def blocks (l : Nat) : List (List Nat) := (List.range (32 / l)).map fun b => (List.range l).map fun i => b * l + i
/-- CVTBLK (R186) over blocks of L lanes: a block all active is converted, one with none is skipped, a mixed one takes
ILLEGAL_CONVERGENCE, before any FP_TRAP of another block: the model's choice (log 54). -/
def blkWord (u : Iss) (gd : Guard) (l : Nat) (d a : BitVec 6) (g : Fmt) (conv : List Nat → Nat × List Nat × Flags)
    (s : State) : State :=
  let part := partLanes u.g u.f gd
  let on := fun (b : List Nat) => b.all (part.getLsbD ·)
  let off := fun (b : List Nat) => b.all fun i => !part.getLsbD i
  if (blocks l).any fun b => !on b && !off b then u.term .illegalConvergence s
  else finishLanes u (((blocks l).filter on).flatMap (blkOuts u l d a g conv)) s
def execCvtblk (g : Guard) (l : BitVec 1) (d a : BitVec 6) (sr : BitVec 2) (s : State) : Res :=
  issue (.cvtblk g l d a sr) s (fun u s =>
    blkWord u g (if l = 1 then 32 else 16) d a (match sr.toNat with | 0 => f32 | 1 => f16 | _ => bf16) cvtBlkBasic s)
    none
/-- The expert form reads gB at issue; bits [63:16] must be zero (R186), which is tested before the blocks' lanes: the model's
choice (log 54). -/
def execCvtblkX (g : Guard) (l : BitVec 1) (d a b : BitVec 6) (s : State) : Res :=
  issue (.cvtblkX g l d a b) s (fun u s =>
    let h := (gReg u.g b.toNat).toNat
    if 65536 ≤ h then u.term .illegalInstr s
    else blkWord u g (if l = 1 then 32 else 16) d a f32 (cvtBlkExpert h) s) none

/-! Lane crossing (R187-R189): outside the executor subset (R287). -/

/-- R187: the q forms. -/
def execVote (g : Guard) (m : BitVec 2) (d a : BitVec 3) (s : State) : Res :=
  issue (.vote g m d a) s (fun u s =>
    let part := partLanes u.g u.f g
    let on := part &&& predMask u.g a.toNat
    let r := match m.toNat with
      | 0 => on != 0
      | 1 => on == part
      | _ => on == part || on == 0
    u.adv (s.adjGang u.gid fun x => setQReg x d.toNat r)) none
/-- R187: `.ballot`. -/
def execVoteBallot (g : Guard) (d : BitVec 6) (a : BitVec 3) (s : State) : Res :=
  issue (.voteBallot g d a) s (fun u s =>
    u.adv (s.adjGang u.gid fun x =>
      setGReg x d.toNat ((partLanes u.g u.f g &&& predMask u.g a.toNat).setWidth 64))) none
/-- R188. -/
def execShfl (g : Guard) (m : BitVec 2) (d a b : BitVec 6) (s : State) : Res :=
  issue (.shfl g m d a b) s (fun u s =>
    let part := partLanes u.g u.f g
    let outs := (bitList part).map fun l =>
      let c := (laneReg u.g l b.toNat).toNat
      let src : Int := match m.toNat with
        | 0 => (c % 32 : Nat)
        | 1 => (l : Int) - c
        | 2 => (l + c : Nat)
        | _ => (l ^^^ (c % 32) : Nat)
      let ok := decide (0 ≤ src ∧ src ≤ 31) && part.getLsbD src.toNat
      (l, out1 d.toNat (laneReg u.g (if ok then src.toNat else l) a.toNat))
    finishLanes u outs s) none
/-- R189. -/
def execVfromg (g : Guard) (m : BitVec 2) (d a : BitVec 6) (s : State) : Res :=
  issue (.vfromg g m d a) s (fun u s =>
    let v := gReg u.g a.toNat
    finishLanes u (laneOuts u g fun _ =>
      match m.toNat with
      | 0 => out1 d.toNat (v.setWidth 32)
      | 1 => out1 d.toNat (v.extractLsb' 32 32)
      | _ => out2 d.toNat v) s) none
/-- R189, R9, R17. -/
def execLsr (g : Guard) (d sr : BitVec 6) (s : State) : Res :=
  issue (.lsr g d sr) s (fun u s =>
    let outs := (bitList (partLanes u.g u.f g)).map fun l =>
      (l, match sr.toNat with
        | 0 => out1 d.toNat (BitVec.ofNat 32 l)
        | 1 => out1 d.toNat (BitVec.ofNat 32 (l / 4))
        | _ => out2 d.toNat (smGet u.g.owid l 0))
    finishLanes u outs s) none

end Sys2Proof.Machine
end

