-- ==== Sys2Proof/Machine/GroupAlu.lean ====
section
/-! DEFINITION. Group arithmetic, predicates, special registers and moves between lanes and the group file
(R143 NOP, R146-R155). -/
namespace Sys2Proof.Machine

/-- Write a group register and move on. -/
def Iss.setG (u : Iss) (d : Nat) (x : B64) (s : State) : State := u.adv (s.adjGang u.gid (setGReg · d x))
/-- Write a group predicate and move on. -/
def Iss.setQ (u : Iss) (d : Nat) (b : Bool) (s : State) : State := u.adv (s.adjGang u.gid (setQReg · d b))
/-- A register form gD := gA op gB (R147). -/
def gBin (i : Instr) (g : Guard) (d a b : BitVec 6) (s : State) (f : B64 → B64 → B64) : Res :=
  group i g s fun u => u.setG d.toNat (f (gReg u.g a.toNat) (gReg u.g b.toNat))
/-- A short-immediate form gD := gD op k (R148). -/
def gImm (i : Instr) (g : Guard) (d : BitVec 6) (k : BitVec 12) (s : State) (f : B64 → B64 → B64) : Res :=
  group i g s fun u => u.setG d.toNat (f (gReg u.g d.toNat) (k.signExtend 64))

/-- R143: the only instruction that does nothing. -/
def execNop (s : State) : Res := issue .nop s (fun u s => u.adv s) none
def execGadd (g : Guard) (d a b : BitVec 6) (s : State) : Res := gBin (.gadd g d a b) g d a b s fun x y => x + y
def execGsub (g : Guard) (d a b : BitVec 6) (s : State) : Res := gBin (.gsub g d a b) g d a b s fun x y => x - y
def execGmul (g : Guard) (d a b : BitVec 6) (s : State) : Res := gBin (.gmul g d a b) g d a b s fun x y => x * y
def execGmulh (g : Guard) (sg : BitVec 1) (d a b : BitVec 6) (s : State) : Res :=
  gBin (.gmulh g sg d a b) g d a b s fun x y =>
    BitVec.ofNat 64 (toTwos 128 (intOf (sg == 0) x * intOf (sg == 0) y) / 2 ^ 64)
def execGmin (g : Guard) (sg : BitVec 1) (d a b : BitVec 6) (s : State) : Res :=
  gBin (.gmin g sg d a b) g d a b s (pickMinMax false (sg == 1))
def execGmax (g : Guard) (sg : BitVec 1) (d a b : BitVec 6) (s : State) : Res :=
  gBin (.gmax g sg d a b) g d a b s (pickMinMax true (sg == 1))
def execGmov (g : Guard) (d a : BitVec 6) (s : State) : Res :=
  group (.gmov g d a) g s fun u => u.setG d.toNat (gReg u.g a.toNat)
def execGand (g : Guard) (d a b : BitVec 6) (s : State) : Res := gBin (.gand g d a b) g d a b s fun x y => x &&& y
def execGor (g : Guard) (d a b : BitVec 6) (s : State) : Res := gBin (.gor g d a b) g d a b s fun x y => x ||| y
def execGxor (g : Guard) (d a b : BitVec 6) (s : State) : Res := gBin (.gxor g d a b) g d a b s fun x y => x ^^^ y
def execGshl (g : Guard) (d a b : BitVec 6) (s : State) : Res :=
  gBin (.gshl g d a b) g d a b s fun x y => shiftL x y.toNat
def execGshr (g : Guard) (d a b : BitVec 6) (s : State) : Res :=
  gBin (.gshr g d a b) g d a b s fun x y => shiftR x y.toNat
def execGsar (g : Guard) (d a b : BitVec 6) (s : State) : Res :=
  gBin (.gsar g d a b) g d a b s fun x y => shiftA x y.toNat
def execGaddi (g : Guard) (d : BitVec 6) (i : BitVec 12) (s : State) : Res :=
  gImm (.gaddi g d i) g d i s fun x k => x + k
def execGandi (g : Guard) (d : BitVec 6) (i : BitVec 12) (s : State) : Res :=
  gImm (.gandi g d i) g d i s fun x k => x &&& k
def execGori (g : Guard) (d : BitVec 6) (i : BitVec 12) (s : State) : Res :=
  gImm (.gori g d i) g d i s fun x k => x ||| k
def execGxori (g : Guard) (d : BitVec 6) (i : BitVec 12) (s : State) : Res :=
  gImm (.gxori g d i) g d i s fun x k => x ^^^ k
def execGshli (g : Guard) (d : BitVec 6) (i : BitVec 12) (s : State) : Res :=
  gImm (.gshli g d i) g d i s fun x _ => shiftL x i.toNat
def execGshri (g : Guard) (d : BitVec 6) (i : BitVec 12) (s : State) : Res :=
  gImm (.gshri g d i) g d i s fun x _ => shiftR x i.toNat
def execGsari (g : Guard) (d : BitVec 6) (i : BitVec 12) (s : State) : Res :=
  gImm (.gsari g d i) g d i s fun x _ => shiftA x i.toNat
/-- R149. -/
def execGmovi (d : BitVec 6) (i : BitVec 18) (s : State) : Res :=
  issue (.gmovi d i) s (fun u => u.setG d.toNat (i.signExtend 64)) none
/-- R149. -/
def execGmovhi (d : BitVec 6) (i : BitVec 18) (s : State) : Res :=
  issue (.gmovhi d i) s (fun u => u.setG d.toNat (gReg u.g d.toNat <<< 18 ||| i.setWidth 64)) none
/-- R150. -/
def execGcmp (g : Guard) (t : BitVec 2) (c q : BitVec 3) (a b : BitVec 6) (s : State) : Res :=
  group (.gcmp g t c q a b) g s fun u =>
    let x := gReg u.g a.toNat
    let y := gReg u.g b.toNat
    let sgn := t.toNat % 2 == 0
    u.setQ q.toNat (if 2 ≤ t.toNat then condInt c.toNat (intOf sgn (x.setWidth 32)) (intOf sgn (y.setWidth 32))
      else condInt c.toNat (intOf sgn x) (intOf sgn y))
/-- R151. -/
def execQlop (g : Guard) (m : BitVec 2) (d a b : BitVec 3) (s : State) : Res :=
  group (.qlop g m d a b) g s fun u => u.setQ d.toNat (predOp m.toNat (qReg u.g a.toNat) (qReg u.g b.toNat))

/-- A special register's value (R152, R153). -/
def specialReg (s : State) (u : Iss) (n : Nat) : B64 :=
  match n with
  | 0 => u.g.wid
  | 1 => u.g.launchId
  | 2 => BitVec.ofNat 64 s.now
  | 3 => u.g.fpcr.setWidth 64
  | 4 => u.g.fpsr.setWidth 64
  | 5 => ofBits 64 ((List.range 12).filter fun k => smGet u.g.flags k 0 != 0)
  | 6 => (laneSlices u.g.live ++ u.f.smask).setWidth 64
  | 7 => (u.f.rpc &&& 0x01fffffffffffffc#64) ||| (if u.f.rv then 1 else 0)
  | 8 => u.g.stream.setWidth 64
  | 9 => match smFind s.ctxs u.g.ctx with
    | some c => c.dies.setWidth 64
    | none => 0
  | 10 => BitVec.ofNat 64 u.g.core
  | 11 => BitVec.ofNat 64 u.g.quarter
  | _ => BitVec.ofNat 64 u.g.slot
/-- R152. -/
def execGsr (g : Guard) (d n : BitVec 6) (s : State) : Res :=
  group (.gsr g d n) g s fun u s => u.setG d.toNat (specialReg s u n.toNat) s
/-- R152: %fpcr, %fpsr and %stream are writable; bits of reserved fields are ignored. -/
def execGsw (g : Guard) (n a : BitVec 6) (s : State) : Res :=
  group (.gsw g n a) g s fun u s =>
    let v := gReg u.g a.toNat
    u.adv (s.adjGang u.gid fun x => match n.toNat with
      | 3 => { x with fpcr := v.setWidth 2 }
      | 4 => { x with fpsr := v.setWidth 5 }
      | _ => { x with stream := v.setWidth 4 })
/-- R154: the named lane's register, whatever its mask or state. -/
def execGfromv (g : Guard) (t : BitVec 2) (d a b : BitVec 6) (s : State) : Res :=
  group (.gfromv g t d a b) g s fun u =>
    let l := (gReg u.g b.toNat).toNat % 32
    u.setG d.toNat (match t.toNat with
      | 0 => (laneReg u.g l a.toNat).setWidth 64
      | 1 => (laneReg u.g l a.toNat).signExtend 64
      | _ => lanePair u.g l a.toNat)

/-- Identity(op, type) of R155 for an empty set of lanes: op 0 add, 1 min, 2 max, 3 or. -/
def redIdentity (op typ : Nat) : Nat :=
  match op, typ with
  | 1, 2 => 2 ^ 31 - 1 | 1, 6 => 2 ^ 32 - 1 | 1, 3 => 2 ^ 63 - 1 | 1, 7 => 2 ^ 64 - 1
  | 1, 10 => 0x7f800000 | 1, 11 => 0x7ff0000000000000
  | 2, 2 => toTwos 64 (-(2 ^ 31 : Int)) | 2, 3 => 2 ^ 63 | 2, 10 => 0xff800000 | 2, 11 => 0xfff0000000000000
  | _, _ => 0
/-- One integer reduction step, exact (R155). -/
def redInt (op : Nat) (x y : Int) : Int :=
  match op with
  | 0 => x + y | 1 => min x y | 2 => max x y
  | _ => ofTwos true 64 (toTwos 64 x ||| toTwos 64 y)
/-- GReduce over the lanes' values in ascending order (R155): the 64-bit result and the flags. -/
def gReduce (op typ : Nat) (vs : List Nat) : B64 × Flags5 :=
  match vs with
  | [] => (BitVec.ofNat 64 (redIdentity op typ), 0)
  | v :: rest =>
    if typ = 10 || typ = 11 then
      let f := if typ = 10 then f32 else f64
      let r := rest.foldl (fun acc x =>
        let y := if op = 0 then fpAdd f 0 false false acc.1 x else fpMinMax f (op == 2) false acc.1 x
        (y.1, acc.2 ||| y.2)) (v, 0)
      (BitVec.ofNat 64 r.1, r.2)
    else
      let n := if typ = 2 || typ = 6 then 32 else 64
      let sgn := typ == 2 || typ == 3
      let dec := ofTwos sgn n
      (BitVec.ofNat 64 (toTwos 64 (rest.foldl (fun acc x => redInt op acc (dec x)) (dec v))), 0)
/-- R155: a float reduction raises flags and traps under R137 and R138, its mask every active lane. -/
def execGreduce (g : Guard) (o : BitVec 2) (d a : BitVec 6) (t : BitVec 4) (s : State) : Res :=
  group (.greduce g o d a t) g s fun u s =>
    let act := activeLanes u.g u.f
    let vs := (bitList act).map fun l =>
      if redWide t then (lanePair u.g l a.toNat).toNat else (laneReg u.g l a.toNat).toNat
    let r := gReduce o.toNat t.toNat vs
    if traps u.g.fpcr r.2 then u.term .fpTrap s act
    else u.setG d.toNat r.1 (s.adjGang u.gid (orFpsr · r.2))

end Sys2Proof.Machine
end

