-- ==== Sys2Proof/Machine/Control.lean ====
section
/-! DEFINITION. Control transfer, divergence and convergence, ending and fusing (R104-R116, R144-R146). -/
namespace Sys2Proof.Machine

/-- A branch target (R86). -/
def Iss.target (u : Iss) (f : BitVec 20) : B64 := u.f.pc + 4 * f.signExtend 64
/-- The fragment continues at a header. -/
def Iss.go (u : Iss) (t : B64) (s : State) : State := s.adjFrag u.gid u.e (·.jump t)
/-- A register target: MISALIGNED at the branch when bits [1:0] are not zero (R86). -/
def Iss.goReg (u : Iss) (t : B64) (s : State) : State :=
  if t &&& 3 ≠ 0 then u.term .misaligned s else u.go t s
/-- The word that a fragment's PC names in its clause. -/
def Frag.wordAt (f : Frag) : Option B32 :=
  f.clause.bind fun c => if f.pc = c.hdr then none else c.words[((f.pc - c.hdr).toNat / 4 - 1)]?

/-- R144. -/
def execBra (f : BitVec 20) (s : State) : Res := issue (.bra f) s (fun u => u.go (u.target f)) none
/-- R144. -/
def execBrq (p : BitVec 3) (n : BitVec 1) (f : BitVec 20) (s : State) : Res :=
  issue (.brq p n f) s (fun u => u.go (if guardQ u.g.q ⟨p, n⟩ then u.target f else u.f.nextHdr)) none
/-- R144. -/
def execBrx (g : Guard) (a : BitVec 6) (s : State) : Res :=
  group (.brx g a) g s fun u => u.goReg (gReg u.g a.toNat)
/-- R144: the link register is g(56 + L). -/
def execCallG (l : BitVec 3) (f : BitVec 20) (s : State) : Res :=
  issue (.callG l f) s (fun u s =>
    u.go (u.target f) (s.adjGang u.gid (setGReg · (56 + l.toNat) u.f.nextHdr))) none
/-- R144. -/
def execRetG (g : Guard) (a : BitVec 6) (s : State) : Res :=
  group (.retG g a) g s fun u => u.goReg (gReg u.g a.toNat)
/-- R145: precise-parked; the address field holds imm12. -/
def execTrapG (g : Guard) (i : BitVec 12) (s : State) : Res :=
  group (.trapG g i) g s fun u s => u.park .trap .trap s 0 (i.setWidth 64)
/-- The issuing gang's workgroup leaves its idempotent region (R146). -/
def endRegion (s : State) (g : Gang) : State :=
  match g.wg with
  | some w => if g.idem then s.adjWg w fun x => { x with regionEnded := true } else s
  | none => s
/-- R146. -/
def execIdemend (s : State) : Res := issue .idemend s (fun u s => u.adv (endRegion s u.g)) none
/-- R104: a running penalty is replaced. -/
def execPauseG (n : BitVec 18) (s : State) : Res :=
  issue (.pauseG n) s (fun u s => u.adv (s.adjFrag u.gid u.e fun f => { f with penalty := n.toNat })) none
/-- PAUSE_PENALTY_END (R104). -/
def execPausePenaltyEnd (gid e : Nat) (s : State) : Res := .next (s.adjFrag gid e fun f => { f with penalty := 0 })
/-- FRAGMENT_URGENT (R103): the bypass count has reached 32. -/
def execFragmentUrgent (gid e : Nat) (s : State) : Res :=
  .next (s.adjFrag gid e fun f => if 32 ≤ f.bypass then { f with urgent := true } else f)

/-! Divergence stacks (R107, R108). -/

def stackOf (g : Gang) (sl : Nat) : List SEntry := smGet g.stk sl []
def spillCount (g : Gang) (sl : Nat) : Nat := (smKeys (fun _ r => r.slice == sl) g.spills).length
/-- The lowest record with V = 0. -/
def freeSpill (g : Gang) : Option Nat := (List.range g.spillN).find? fun k => (smFind g.spills k).isNone
/-- Push an entry on a slice's stack; a full hardware stack first spills its bottom entry (R108). -/
def pushSlice (g : Gang) (sl : Nat) (e : SEntry) : Gang :=
  let st := stackOf g sl
  if st.length < 8 then { g with stk := smPut g.stk sl (e :: st) }
  else
    match freeSpill g, st.getLast? with
    | some k, some b =>
      { g with stk := smPut g.stk sl (e :: st.dropLast), spills := smPut g.spills k ⟨sl, spillCount g sl, b⟩ }
    | _, _ => g
/-- Whether pushing one entry on each of some slices overflows (R108). -/
def pushOverflows (g : Gang) (sls : List Nat) : Bool :=
  let full := sls.filter fun sl => 8 ≤ (stackOf g sl).length
  g.spillN - List.length g.spills < full.length || full.any fun sl => 256 ≤ spillCount g sl
/-- Pop a slice's top entry; an emptied hardware stack refills from the newest record (R108). -/
def popSlice (g : Gang) (sl : Nat) : Option (SEntry × Gang) :=
  match stackOf g sl with
  | [] => none
  | e :: rest =>
    if rest ≠ [] then some (e, { g with stk := smPut g.stk sl rest })
    else
      let n := spillCount g sl
      match smKeys (fun _ r => r.slice == sl && r.depth + 1 == n) g.spills with
      | k :: _ =>
        match smFind g.spills k with
        | some r => some (e, { g with stk := smPut g.stk sl [r.e], spills := smDel g.spills k })
        | none => some (e, { g with stk := smDel g.stk sl })
      | [] => some (e, { g with stk := smDel g.stk sl })
/-- A slice's entries, hardware then spilled. -/
def allEntries (g : Gang) (sl : Nat) : List SEntry :=
  stackOf g sl ++ (g.spills.filter fun p => p.2.slice == sl).map fun p => p.2.e
/-- A slice's four-lane mask in place. -/
def sliceMask (sl : Nat) (m : BitVec 4) : Lanes := (m.setWidth 32) <<< (4 * sl)
def setSliceMask (g : Gang) (sl : Nat) (m : BitVec 4) : Gang :=
  { g with mask := (g.mask &&& ~~~(sliceMask sl 15)) ||| (sliceMask sl m &&& g.live) }
/-- The pending removals of a slice take effect: its exited lanes leave the masks of its entries (R114). -/
def removeGone (g : Gang) (sl : Nat) : Gang :=
  let out : BitVec 4 := (g.gone >>> (4 * sl)).setWidth 4
  let cut := fun (e : SEntry) => { e with lmask := e.lmask &&& ~~~out }
  { g with
    gone := g.gone &&& ~~~(sliceMask sl 15)
    stk := smAdj g.stk sl (List.map cut)
    spills := smMap (fun _ r => if r.slice = sl then { r with e := cut r.e } else r) g.spills }
/-- The same for every slice. -/
def removeAll (g : Gang) : Gang := (List.range 8).foldl removeGone g
def maskOf (g : Gang) (sl : Nat) : BitVec 4 := (g.mask >>> (4 * sl)).setWidth 4
def liveOf (g : Gang) (sl : Nat) : BitVec 4 := (g.live >>> (4 * sl)).setWidth 4
def slices (f : Frag) : List Nat := bitList f.smask

/-- The lowest FREE split-table entry (R106). -/
def freeEntry (g : Gang) : Nat := ((List.range 8).find? fun e => (smFind g.frags e).isNone).getD 0
/-- A new fragment of some slices in the lowest FREE entry (R106). No penalty of a PAUSE runs in it: R104 says nothing of the
fragments that a split makes, and this is the model's choice (log 51). -/
def newFrag (g : Gang) (sm : BitVec 8) (pc rpc : B64) (rv : Bool) : Gang :=
  { g with frags := smPut g.frags (freeEntry g) ⟨.ready, sm, pc, rpc, rv, pc, none, 0, 0, false, 0, .none⟩ }

/-- Slices that leave for one place together: their mask, PC, RPC and RV. -/
structure Leave where
  sm : BitVec 8
  pc : B64
  rpc : B64
  rv : Bool

/-- Add a slice to the group that shares its place. -/
def addLeave (sl : Nat) (e : SEntry) : List Leave → List Leave
  | [] => [⟨1#8 <<< sl, e.pc, e.rpc, e.rv⟩]
  | x :: xs =>
    if x.pc = e.pc ∧ x.rpc = e.rpc ∧ x.rv = e.rv then { x with sm := x.sm ||| (1#8 <<< sl) } :: xs
    else x :: addLeave sl e xs

/-- Pop divergence entries of a slice until one has a live lane (R111). Answers the entry to leave for, if any. -/
def popAway : Nat → Gang → Nat → Gang × Option SEntry
  | 0, g, _ => (g, none)
  | n + 1, g, sl =>
    match popSlice g sl with
    | none => (g, none)
    | some (e, g') =>
      if e.join then (g, none)
      else
        let g' := setSliceMask g' sl e.lmask
        if maskOf g' sl = 0 then popAway n g' sl else (g', some e)

/-- Let each of some slices whose top is a divergence entry leave; answers the gang, who left and the groups. At a JOIN or
REGANG (`rm`) the slices' pending removals take effect (R114). -/
def leaveAll (g : Gang) (sls : List Nat) (rm : Bool) : Gang × BitVec 8 × List Leave :=
  sls.foldl (fun acc sl =>
    match (stackOf acc.1 sl).head? with
    | some e =>
      if e.join then acc
      else match popAway 264 acc.1 sl with
        | (g, some e) => (if rm then removeGone g sl else g, acc.2.1 ||| (1#8 <<< sl), addLeave sl e acc.2.2)
        | (g, none) => (if rm then removeGone g sl else g, acc.2)
    | none => acc) (g, 0#8, [])

/-- Make fragments of the groups that left, in the order of their lowest slices; where every slice leaves, the fragment's own
entry has been freed before. R106 gives neither order: the model's choice (log 40). -/
def placeLeaves (g : Gang) (ls : List Leave) : Gang := ls.foldl (fun g x => newFrag g x.sm x.pc x.rpc x.rv) g
/-- Take slices out of a fragment; an entry with none left is freed (R106). -/
def shrinkFrag (g : Gang) (e : Nat) (out : BitVec 8) : Gang :=
  match smFind g.frags e with
  | none => g
  | some f =>
    let sm := f.smask &&& ~~~out
    if sm = 0 then { g with frags := smDel g.frags e } else { g with frags := smPut g.frags e { f with smask := sm } }

/-! Completing waits (R111-R113). -/

def fragsOf (g : Gang) : List (Nat × Frag) := g.frags
/-- The slices of a gang that hold a live lane. -/
def liveSlices (g : Gang) : List Nat := bitList (laneSlices g.live)

/-- A ready fragment at a header; `penalty` cycles of a PAUSE remain (R104). -/
def readyFrag (sm : BitVec 8) (pc rpc : B64) (rv : Bool) (penalty : Nat) : Frag :=
  ⟨.ready, sm, pc, rpc, rv, pc, none, penalty, 0, false, 0, .none⟩
/-- Put groups in some entries, in order; groups beyond them take the lowest FREE entries (log 40). -/
def placeGroups (penalty : Nat) : List Leave → List Nat → Gang → Gang
  | x :: xs, e :: es, g =>
    placeGroups penalty xs es { g with frags := smPut g.frags e (readyFrag x.sm x.pc x.rpc x.rv penalty) }
  | xs, [], g => placeLeaves g xs
  | [], _, g => g
/-- Complete a JOIN wait at J if it can (R111). A PAUSE ends when fragments fuse, not for one that waited alone (R104). -/
def tryJoin (g : Gang) (j : B64) : Gang :=
  let ws := (fragsOf g).filter fun p => p.2.st == .joinWait && p.2.rpc == j
  let waiting := ws.foldl (fun m p => m ||| p.2.smask) 0#8
  let all := (liveSlices g).all fun sl =>
    !((allEntries g sl).any fun e => e.join && e.pc == j) || waiting.getLsbD sl
  match ws with
  | [] => g
  | w :: rest =>
    if !all then g
    else
      let next := w.2.nextHdr
      let g := { g with frags := smKeep (fun k _ => !(ws.any fun p => p.1 == k)) g.frags }
      let r := (bitList waiting).foldl (fun (acc : Gang × List Leave) sl =>
        match popSlice acc.1 sl with
        | some (e, g) => (removeGone (setSliceMask g sl e.lmask) sl, addLeave sl { e with pc := next } acc.2)
        | none => acc) (g, [])
      -- groups stand in the order of their lowest slices, entries ascending
      placeGroups (if rest.isEmpty then w.2.penalty else 0) r.2 (ws.map Prod.fst) r.1

/-- Complete a REGANG rendezvous if every live fragment waits at one address (R112). -/
def tryRegang (g : Gang) : Gang :=
  match fragsOf g with
  | [] => g
  | (e, f) :: rest =>
    if f.st == .regangWait && rest.all (fun p => p.2.st == .regangWait && p.2.pc == f.pc) then
      let sm := rest.foldl (fun m p => m ||| p.2.smask) f.smask
      let g := removeAll g
      { g with frags := [(e, readyFrag sm f.nextHdr f.rpc f.rv (if rest.isEmpty then f.penalty else 0))] }
    else g

/-- Slices with every lane exited and no divergence entry leave their fragments (R114). Their hardware stacks go with them;
records that they have spilled stay, and count for GFUSE's test: R114 is silent, and this is the model's choice (log 53). -/
def dropDead (g : Gang) : Gang :=
  (List.range 8).foldl (fun g sl =>
    if liveOf g sl = 0 && !((allEntries g sl).any fun e => !e.join) then
      (fragsOf g).foldl (fun g p =>
        if p.2.smask.getLsbD sl && p.2.st != .joinWait && p.2.st != .regangWait then
          shrinkFrag { g with stk := smDel g.stk sl } p.1 (1#8 <<< sl) else g) g
    else g) g

/-- No wait of the gang can complete (R113): every fragment is in JOINWAIT or REGANGWAIT. -/
def stuck (g : Gang) : Bool :=
  !(fragsOf g).isEmpty && (fragsOf g).all fun p => p.2.st == .joinWait || p.2.st == .regangWait

/-- Let the gang's convergence waits complete; a gang that cannot go on takes ILLEGAL_CONVERGENCE (R112, R113), and one
with no live lane ends as EXIT does (R114). -/
def settle (s : State) (gid : Nat) : State :=
  match smFind s.gangs gid with
  | none => s
  | some g =>
    if g.live = 0 then endGang s gid .exit
    else
      let js := ((fragsOf g).filter fun p => p.2.st == .joinWait).map fun p => p.2.rpc
      let g := tryRegang (js.foldl tryJoin g)
      let s := s.setGang gid g
      if stuck g then
        match fragsOf g with
        | (_, f) :: _ => terminate s gid .illegalConvergence f.pc ((f.wordAt).getD 0) 0 0
        | [] => s
      else s

/-- R109. Where several slices spill at once they take the free records in ascending order: the model's choice (log 62). -/
def execJoinat (f : BitVec 20) (s : State) : Res :=
  issue (.joinat f) s (fun u s =>
    let j := u.target f
    let sls := slices u.f
    if pushOverflows u.g sls then u.term .divergenceOverflow s
    else
      u.adv (s.adjGang u.gid fun g =>
        let g := sls.foldl (fun g sl => pushSlice g sl ⟨true, maskOf g sl, u.f.rpc, u.f.rv, j⟩) g
        { g with frags := smAdj g.frags u.e fun x => { x with rpc := j, rv := true } })) none

/-- DBR in a fragment (R110). -/
def dbrFrag (p : BitVec 3) (n : BitVec 1) (f : BitVec 20) (u : Iss) (s : State) : State :=
  let t := u.target f
  let ft := u.f.nextHdr
  let act := activeLanes u.g u.f
  let tk := act &&& guardLanes u.g ⟨p, n⟩
  let part := fun (m : Lanes) (sl : Nat) => (m >>> (4 * sl)).setWidth 4
  let sls := slices u.f
  let full := sls.filter fun sl => part (act &&& ~~~tk) sl = 0#4
  let none_ := sls.filter fun sl => part (act &&& ~~~tk) sl ≠ 0#4 ∧ part tk sl = 0#4
  let split := sls.filter fun sl => part (act &&& ~~~tk) sl ≠ 0#4 ∧ part tk sl ≠ 0#4
  if pushOverflows u.g split then u.term .divergenceOverflow s
  else
    s.adjGang u.gid fun g =>
      let g := split.foldl (fun g sl =>
        setSliceMask (pushSlice g sl ⟨false, part (act &&& ~~~tk) sl, u.f.rpc, u.f.rv, ft⟩) sl (part tk sl)) g
      let toT := ofBits 8 (full ++ split)
      let toF := ofBits 8 none_
      if toT = 0 then { g with frags := smAdj g.frags u.e (·.jump ft) }
      else
        let g := { g with frags := smAdj g.frags u.e fun x => { x.jump t with smask := toT } }
        if toF = 0 then g else newFrag g toF ft u.f.rpc u.f.rv
/-- R110; in an executor a plain jump (R288). -/
def execDbr (p : BitVec 3) (n : BitVec 1) (f : BitVec 20) (s : State) : Res :=
  issue (.dbr p n f) s (dbrFrag p n f)
    (some fun r x s => s.adjRun r fun _ =>
      if guardQ (runPred x) ⟨p, n⟩ then x.jump (x.pc + 4 * f.signExtend 64) else x.step)

/-- R111: the checks come before any slice acts. -/
def joinFrag (u : Iss) (s : State) : State :=
  let bad := (slices u.f).any fun sl => match (stackOf u.g sl).head? with
    | none => true
    | some e => e.join && e.pc != u.f.rpc
  if !(u.f.rv && u.f.hdr == u.f.rpc && u.f.pc == u.f.hdr + 4) || bad then u.term .illegalConvergence s
  else
    let s := s.adjGang u.gid fun g =>
      let r := leaveAll g (slices u.f) true
      let g := { r.1 with frags := smAdj r.1.frags u.e fun f => { f with st := .joinWait } }
      placeLeaves (shrinkFrag g u.e r.2.1) r.2.2
    settle s u.gid
def execJoinG (g : Guard) (s : State) : Res := group (.joinG g) g s joinFrag

/-- R112. -/
def regangFrag (u : Iss) (s : State) : State :=
  let bad := (slices u.f).any fun sl => match (stackOf u.g sl).head? with
    | none => false
    | some e => e.join || e.rv
  if u.f.rv || bad then u.term .illegalConvergence s
  else
    let s := s.adjGang u.gid fun g =>
      let r := leaveAll g (slices u.f) true
      let g := { r.1 with frags := smAdj r.1.frags u.e fun f => { f with st := .regangWait } }
      placeLeaves (shrinkFrag g u.e r.2.1) r.2.2
    settle s u.gid
def execRegang (g : Guard) (s : State) : Res := group (.regang g) g s regangFrag

/-- EXITL in a fragment (R114). A slice that it empties stays in its fragment, its mask empty, where the top join entry has no
live lane and a lower entry has one: R114 names no such case, and this is the model's choice (log 52). -/
def exitlFrag (gd : Guard) (u : Iss) (s : State) : State :=
  let out := partLanes u.g u.f gd
  let s := u.adv s
  let s := s.adjGang u.gid fun g =>
    let before := g.mask
    let g := { g with live := g.live &&& ~~~out, gone := g.gone ||| out, mask := g.mask &&& ~~~out }
    let hit := (slices u.f).filter fun sl => maskOf g sl = 0 ∧ (before >>> (4 * sl)).setWidth 4 ≠ 0#4
    let r := leaveAll g hit false
    dropDead (placeLeaves (shrinkFrag r.1 u.e r.2.1) r.2.2)
  settle s u.gid
/-- R114; in an executor the run ends (R288, R295). -/
def execExitl (g : Guard) (s : State) : Res :=
  issue (.exitl g) s (exitlFrag g)
    (some fun r x s => if guardByte (runPred x) g then s.adjRun r fun x => { x with wait := .release (some .ended) }
      else s.adjRun r fun _ => x.step)

/-- R115. -/
def execExitG (g : Guard) (s : State) : Res := group (.exitG g) g s fun u s => endGang s u.gid .exit

/-! GFUSE (R116). -/

/-- The gang of a workgroup with a field 1. -/
def partner (s : State) (g : Gang) (n : B64) : Option Nat :=
  match g.wg with
  | none => none
  | some w => (smKeys (fun _ x => x.wg == some w && x.f1 == n.toNat) s.gangs).head?
/-- What a gang in FUSEWAIT asked for. -/
def fuseOf (g : Gang) : Option (Nat × Frag × Bool × B64 × B64 × Nat) :=
  match fragsOf g with
  | [(e, f)] => match f.wait with
    | .fuse r m p d => some (e, f, r, m, p, d)
    | _ => none
  | _ => none
def fuseTerm (s : State) (gid : Nat) : State :=
  match (smFind s.gangs gid).bind fuseOf with
  | some (_, f, _) => terminate s gid .illegalConvergence f.pc ((f.wordAt).getD 0) 0 0
  | none => s
/-- Gangs in FUSEWAIT whose partner names another gang, or names them back with the same role or another mask, take
ILLEGAL_CONVERGENCE (R116). -/
def fuseCheck (s : State) (gid : Nat) : State :=
  match (smFind s.gangs gid).bind fun g => if g.ending.isSome then none else some g with
  | none => s
  | some g =>
    match fuseOf g with
    | none => s
    | some (_, _, r, m, p, _) =>
      match partner s g p with
      | none => s
      | some q =>
        match (smFind s.gangs q).bind fuseOf with
        | none => s
        | some (_, _, r', m', p', _) =>
          if p'.toNat ≠ g.f1 then fuseTerm s gid
          else if q = gid then fuseTerm s gid
          else if r == r' || m != m' then fuseTerm (fuseTerm s gid) q
          else s
/-- Enter FUSEWAIT (R116). A mask bit at or above REGS is tested before the gang's convergence: the model's choice, R116 giving
the two faults no order (log 60). -/
def fuseFrag (rcv : Bool) (d a b : Nat) (u : Iss) (s : State) : State :=
  let m := gReg u.g a
  let p := gReg u.g b
  if m >>> u.g.regs ≠ 0 then u.term .illegalInstr s
  else if List.length u.g.frags ≠ 1 ∨ u.f.rv ∨ (List.range 8).any (fun sl => !(allEntries u.g sl).isEmpty)
      ∨ u.g.mask &&& u.g.live ≠ u.g.live then u.term .illegalConvergence s
  else
    let s := s.adjGang u.gid fun g =>
      let g := removeAll g
      { g with frags := smAdj g.frags u.e fun f => { f with st := .fuseWait, wait := .fuse rcv m p d } }
    let others := smKeys (fun k x => x.wg.isSome && x.wg == u.g.wg && k != u.gid) s.gangs
    others.foldl fuseCheck (fuseCheck s u.gid)
def execGfuseRcv (g : Guard) (d a b : BitVec 6) (s : State) : Res :=
  group (.gfuseRcv g d a b) g s (fuseFrag true d.toNat a.toNat b.toNat)
def execGfuseDon (g : Guard) (d a b : BitVec 6) (s : State) : Res :=
  group (.gfuseDon g d a b) g s (fuseFrag false d.toNat a.toNat b.toNat)

/-- Copy lane `a` of `x` to lane `b` of `g`: the masked registers, predicates and %owid (R116). -/
def moveLane (x : Gang) (a : Nat) (m : B64) (g : Gang) (b : Nat) : Gang :=
  let g := (List.range g.regs).foldl (fun g n => setLaneReg g b n (if m.getLsbD n then laneReg x a n else 0)) g
  let g := (List.range 7).foldl (fun g n => setPredLane g b n ((predMask x n).getLsbD a)) g
  { g with owid := smSet g.owid b (smGet x.owid a 0) 0, live := g.live ||| (1#32 <<< b) }
/-- A gang after a fusion: one fragment of its live slices, every live lane active, past the GFUSE (R116). -/
def fusedGang (g : Gang) (e : Nat) (f : Frag) (d : Nat) : Gang :=
  let g := setGReg { g with mask := g.live } d (BitVec.ofNat 64 (popCount g.live))
  { g with frags := [(e, { f.jump f.nextHdr with st := .ready, wait := .none, smask := laneSlices g.live, penalty := 0 })] }
/-- The lanes move (R116): receiver and donor after the fusion. -/
def fuseMove (r d : Gang) (m : B64) : Gang × Gang :=
  let free := bitList (~~~r.live)
  let src := bitList d.live
  let k := min free.length src.length
  let r' := (free.zip src).foldl (fun g p => moveLane d p.2 m g p.1) r
  let rest := src.drop k
  let all := BitVec.allOnes 64
  let d' := rest.zipIdx.foldl (fun g p => moveLane d p.1 all g p.2) { d with live := 0 }
  (r', { d' with live := ofBits 32 (List.range rest.length) })
/-- GFUSE_COMPLETE (R116): with `rcv = don`, the completion with no movement of a gang whose partner is not there. -/
def execGfuseComplete (rcv don : Nat) (s : State) : Res :=
  .next (
    match smFind s.gangs rcv, smFind s.gangs don with
    | some r, some d =>
      match fuseOf r, fuseOf d with
      | some (e, f, isR, m, p, dr), some (e', f', isR', m', p', dd) =>
        if rcv = don then
          let gone := match partner s r p with
            | none => true
            | some q => match smFind s.gangs q with
              | some x => x.ending.isSome
              | none => true
          if gone && r.ending.isNone then s.setGang rcv (fusedGang r e f dr) else s
        else if isR && !isR' && m == m' && partner s r p == some don && partner s d p' == some rcv
            && flagsClear r && flagsClear d && r.ending.isNone && d.ending.isNone then
          let x := fuseMove r d m
          let s := s.setGang rcv (fusedGang x.1 e f dr)
          let s := s.setGang don (fusedGang x.2 e' f' dd)
          if x.2.live = 0 then endGang s don .exit else s
        else s
      | _, _ => s
    | _, _ => s)

end Sys2Proof.Machine
end

