-- ==== Sys2Proof/Config.lean ====
section
/-! DEFINITION. Config: the constants of the part that the spec gives, and the free values, which the spec leaves
open: opaque constants with no body, so nothing can be proved of their values. -/
namespace Sys2Proof.Config

/-- A choice the spec leaves open (R224: which lanes a terminating fault leaves performed; R377: which writes of a
lost context are performed), drawn by a counter that State holds. Free value (log 2). -/
opaque freeBit : Nat → Bool
/-- An open natural number, drawn by the same counter: the seed of a nonce, a sensor reading. Free value (log 2). -/
opaque freeNat : Nat → Nat
/-- SHA3-256 of an image's bytes (R387). The spec names the function and gives no table of it: free value (log 7). -/
opaque sha3 : List (BitVec 8) → Nat
/-- ML-DSA-44 verification of (public-key hash, message hash, signature) (R387). Free value (log 7). -/
opaque mldsaVerify : Nat → Nat → Nat → Bool
/-- ML-DSA-44 signing of a message by the device key (R388). Free value (log 7). -/
opaque mldsaSign : List Nat → Nat
/-- The measurement of the boot ROM (R388), which the spec does not give. Free value (log 7). -/
opaque bootRom : Nat
/-- The digest of a descriptor's shared fields that two engines compare (R31). The spec does not give the digest:
the model compares the fields themselves and puts this free value in messages (log 7). -/
opaque gridDigest : List (BitVec 64) → Nat

/-- The AES-256-GCM tag of a flit's header and payload under a key (R327), which the spec names and gives no table of. Free
value (log 7). -/
opaque gcmTag : Nat → List (BitVec 8) → Nat
/-- The payload of a flit as AES-256-GCM encrypts it under a key, from the flit's header and payload (R327). Free value (log 7). -/
opaque gcmSeal : Nat → List (BitVec 8) → Nat
/-- The link CRC of a flit's first 252 bytes (R327); the spec does not give its polynomial. Free value (log 7). -/
opaque linkCrc : List (BitVec 8) → Nat

/-- Compute dies and cores of each (R54). -/
def cores : Nat := 512
/-- Executor units, one per pseudo-channel (R286). -/
def units : Nat := 768
/-- Gang slots per quarter (R58). -/
def slotsPerQuarter : Nat := 16
/-- Lane register slots per lane position per quarter (R58). -/
def regSlots : Nat := 1024
/-- Tiles per core (R58). -/
def tilesPerCore : Nat := 128
/-- Accumulator slots per core (R58). -/
def accsPerCore : Nat := 32
/-- Scratchpad bytes per core (R58). -/
def scratchPerCore : Nat := 524288
/-- Pending launches of one queue (R46). -/
def queueDepth : Nat := 1024
/-- Copies that a core's copy unit holds (R243). -/
def copiesPerCore : Nat := 64
/-- Matrix instructions that an engine holds (R260). -/
def matrixDepth : Nat := 8
/-- Bindings of one context (R271). -/
def bindingsPerCtx : Nat := 64
/-- Send and arrival entries of a package (R334). -/
def streamEntries : Nat := 8192
/-- Queued requests of one migration (R216). -/
def migrationQueue : Nat := 1024
/-- Device snoop-filter entries (R352): 16 Mi. -/
def snoopEntries : Nat := 16777216

end Sys2Proof.Config
end

