-- ==== Sys2Proof/Machine/Memory.lean ====
section
/-! DEFINITION. The memory system: frames and hash profiles (R200-R202), windows (R63), the page walk and its checks
(R206-R212), home slices (R194), L1, L2 and frame copies by coherence class (R196-R198, R308), memory-side scopes (R230),
host bits and pool halves (R351-R355), poison (R378), and touched dies (R55). -/
namespace Sys2Proof.Machine

/-! Frames and their locations. -/

/-- A physical address that is a frame's (R200). -/
def isFrame (pa : Nat) : Bool := decide (pa / 2 ^ 38 < 3) && decide (pa % 2 ^ 38 < 3 * 2 ^ 36)
/-- Profile 0's mask for bit b of V (R201). -/
def mask0 (b : Nat) : Nat :=
  if b < 3 then 2 ^ b else if b < 8 then 2 ^ (b + 8) + 2 ^ (b + 13) else if b < 16 then 2 ^ (b + 8)
  else 2 ^ (b - 13) + 2 ^ b
/-- Profile 1's mask for bit b of V (R201). -/
def mask1 (b : Nat) : Nat := 2 ^ b
/-- A stack group's mask for bit b of a profile (R201, R202). -/
def profMask (pf : Pf) (grp prof b : Nat) : Nat :=
  if prof = 0 then mask0 b else if prof = 1 then mask1 b
  else (smGet pf.masks ((grp * 8 + prof) * 24 + b) (BitVec.ofNat 24 (mask1 b))).toNat
/-- The profile of the region that a physical address lies in (R202). -/
def regionProf (pf : Pf) (pa : Nat) : Nat := (smGet pf.region (pa / 2 ^ 31) 0).toNat % 8
/-- Parity of the bits that two words share. -/
def parityAnd (x m : Nat) : Bool := (List.range 24).foldl (fun p i => xor p (x.testBit i && m.testBit i)) false
/-- Bits [lo + n - 1 : lo] of the location vector V (R201). -/
def locBits (pf : Pf) (pa lo n : Nat) : Nat :=
  let prof := regionProf pf pa
  (List.range n).foldl (fun v i =>
    v + if parityAnd (fld pa 7 24) (profMask pf (pa / 2 ^ 38) prof (lo + i)) then 2 ^ i else 0) 0
/-- The stack of a frame's line (R200). -/
def stackOfPa (pf : Pf) (pa : Nat) : Nat := 4 * (pa / 2 ^ 38) + locBits pf pa 22 2
/-- The unit number U of the pseudo-channel that holds a line (R286). -/
def unitOf (pf : Pf) (pa : Nat) : Nat := 64 * stackOfPa pf pa + 2 * locBits pf pa 16 5 + locBits pf pa 21 1
/-- The bank of a line, numbered through the package. -/
def bankOf (pf : Pf) (pa : Nat) : Nat := 32 * unitOf pf pa + locBits pf pa 3 5
/-- A line's row in its bank and its place in the row (R200). -/
def rowOf (pf : Pf) (pa : Nat) : Nat := fld pa 31 7 * 256 + locBits pf pa 8 8
def lineOf (pf : Pf) (pa : Nat) : Nat := locBits pf pa 0 3
/-- Two lines lie in one part at memory-side scope 8 BANK, 9 PCH or 10 STK (R301). -/
def samePart (pf : Pf) (scope pa pb : Nat) : Bool :=
  match scope with
  | 8 => bankOf pf pa == bankOf pf pb
  | 9 => unitOf pf pa == unitOf pf pb
  | _ => stackOfPa pf pa == stackOfPa pf pb
def memSide (scope : Nat) : Bool := decide (8 ≤ scope)

/-! Windows (R62-R64). -/

/-- Whether a window lets a kind of access through; `none` asks for no permission (CCTL, R232). -/
def winAllows (w : BitVec 192) : Option AccKind → Bool
  | none => true
  | some .fetch => w.getLsbD 178
  | some .load | some .xload => w.getLsbD 176
  | some .store | some .xstore => w.getLsbD 177
  | some .atomic | some .xatomic => w.getLsbD 176 && w.getLsbD 177
/-- A window covers a VA block. -/
def winCovers (w : BitVec 192) (blk : Nat) : Bool :=
  w.getLsbD 179 && decide (fld w.toNat 0 41 ≤ blk) && decide (blk ≤ fld w.toNat 64 41)
/-- Translate (R63): the IA and the home set. -/
def translate (win : SMap (BitVec 192)) (va : Nat) (k : Option AccKind) : Except Code (Nat × Nat) :=
  if 2 ^ 57 ≤ va then .error .windowMiss
  else
    match ((List.range 8).map fun i => smGet win i 0#192).find? (winCovers · (va / 2 ^ 16)) with
    | none => .error .windowMiss
    | some w =>
      let ia := fld w.toNat 128 36 * 2 ^ 16 + (va - fld w.toNat 0 41 * 2 ^ 16)
      let home := fld w.toNat 184 8
      if 2 ^ 52 ≤ ia then .error .windowMiss
      else if !winAllows w k then .error .permission
      else if ia / 2 ^ 40 ≠ 0xfff ∧ home = 0 then .error .windowMiss
      else .ok (ia, home)
/-- The on-chip map (R66). -/
def isMap (ia : Nat) : Bool := ia / 2 ^ 40 == 0xfff
/-- The dies in the home sets of valid windows. -/
def winDies (win : SMap (BitVec 192)) : Nat :=
  win.foldl (fun d p => if p.2.getLsbD 179 then d ||| fld p.2.toNat 184 8 else d) 0

/-! The walk (R206-R210). -/

/-- A translation: the leaf's fields and the place of the addressed byte. -/
structure Page where
  /-- STATE: 0 normal, 1 mirror, 2 migrating, 3 remote, 4 pool. -/
  st : Nat
  cls : Nat
  xa : Bool
  x : Bool
  w : Bool
  rd : Bool
  /-- log2 of the page size. -/
  size : Nat
  /-- The byte's PA, pool address, or offset at the peer. -/
  at_ : Nat
  peer : Nat
  exp : Nat
  /-- CMP (R208): the page's lines may be compressed. -/
  cmp : Bool

/-- The translation home of an IA (R206). -/
def transHome (ia : Nat) : Nat := ia / 2 ^ 30 % 12
/-- Levels 1 to 3: index position and width, and the table's alignment. -/
def levels : List (Nat × Nat × Nat) := [(30, 9, 4096), (21, 9, 4096), (16, 5, 256)]
/-- The steps of the walk: the leaf entry, the page size and the entry's PA. A malformed table pointer ends it with PERMISSION,
whatever the entry beneath would say: the model's choice (log 63). -/
def walkFrom (m : Memory) (ia : Nat) : List (Nat × Nat × Nat) → Nat → Nat → Nat → Except Code (Nat × Nat × Nat)
  | rest, sh, n, tbl =>
    let a := tbl + 8 * fld ia sh n
    let e := leNat (readBytes m a 8)
    if e % 2 = 0 then .error .pageNotPresent
    else if e / 2 % 2 = 1 then (if sh = 39 then .error .permission else .ok (e, sh, a))
    else
      match rest with
      | [] => .error .permission
      | (sh', n', al) :: rest' =>
        let next := fld e 8 32 * 256
        if fld e 2 6 ≠ 0 ∨ fld e 40 24 ≠ 0 ∨ next % al ≠ 0 ∨ !isFrame next then .error .permission
        else walkFrom m ia rest' sh' n' next
/-- The leaf for an IA (R207), read beneath every cache. A TROOT that names no frame gives PERMISSION: the model's choice (log
63). -/
def walk (s : State) (ia : Nat) : Except Code (Nat × Nat × Nat) :=
  let root := s.pf.troot.toNat % 2 ^ 40
  if isFrame root then walkFrom s.mem.frames ia levels 39 13 root else .error .permission

/-- The frame of a leaf that lies in this package. -/
def leafFrame (e : Nat) : Nat := fld e 16 24 * 2 ^ 16
/-- The second row of R210 for a leaf of a size. -/
def leafOk (pf : Pf) (e sh : Nat) : Bool :=
  let st := fld e 61 3
  let frame := leafFrame e
  let onFrame := isFrame frame && frame % 2 ^ sh == 0 && fld e 56 3 == regionProf pf frame && fld e 8 8 == 0
  fld e 2 6 == 0 && fld e 59 2 != 3 &&
    match st with
    | 0 | 2 => onFrame && fld e 40 11 == 0
    | 1 => onFrame && fld e 49 2 == 0
    | 3 => fld e 49 2 == 0 && fld e 25 24 * 2 ^ 16 % 2 ^ sh == 0 && fld e 55 6 == 0
    | 4 => fld e 8 8 == 0 && fld e 16 35 * 2 ^ 16 % 2 ^ sh == 0 && decide (fld e 48 3 ≤ 2)
    | _ => false
/-- A scrub runs over part of a range of frames (R215). -/
def scrubbing (s : State) (pa size : Nat) : Bool :=
  List.any s.pf.slots fun p => match p.2.stage with
    | .scrubbing a n => decide (a < pa + size) && decide (pa < a + n)
    | _ => false
/-- A leaf as a page, for the byte at an IA. -/
def leafPage (e sh ia : Nat) : Page :=
  let st := fld e 61 3
  let base := match st with
    | 3 => fld e 25 24 * 2 ^ 16
    | 4 => fld e 16 35 * 2 ^ 16
    | _ => leafFrame e
  ⟨st, fld e 59 2, fld e 54 1 == 1, fld e 53 1 == 1, fld e 52 1 == 1, fld e 51 1 == 1, sh, base + ia % 2 ^ sh,
    if st = 3 then fld e 8 9 else fld e 40 9, if st = 3 then fld e 17 8 else 0, st != 4 && fld e 55 1 == 1⟩
/-- A page whose collapse this package serves as the twin (R219). -/
def twinOf (s : State) (ia sh : Nat) : Option TwinJob :=
  (List.find? (fun p : Nat × TwinJob => p.2.begun && p.2.m.ia / 2 ^ sh == ia / 2 ^ sh) s.mem.twins).map Prod.snd
/-- A valid leaf found for an IA: rows 1 and 2 of R210. Requests to a page whose collapse this package serves as the twin
are queued, as a migrating page's are (R219). -/
def checkLeaf (s : State) (ia e sh : Nat) : Except Code (Nat × Nat) :=
  if fld e 61 3 < 3 && scrubbing s (leafFrame e) (2 ^ sh) then .error .pageNotPresent
  else if leafOk s.pf e sh then
    match twinOf s ia sh with
    | some j => .ok (setFld j.old.toNat 61 3 2, sh)
    | none => .ok (e, sh)
  else .error .permission
/-- The leaf for an IA, by a walk: its value and log2 of the page size. -/
def leafOf (s : State) (ia : Nat) : Except Code (Nat × Nat) :=
  match walk s ia with
  | .error c => .error c
  | .ok (e, sh, _) => checkLeaf s ia e sh
/-- The page of an IA by a walk. -/
def pageOf (s : State) (ia : Nat) : Except Code Page := (leafOf s ia).map fun x => leafPage x.1 x.2 ia
/-- Rows 3 to 5 of R210. -/
def pageFault (k : AccKind) (p : Page) : Option Code :=
  let need := fun (r w x : Bool) => (r && !p.rd) || (w && !p.w) || (x && !p.x)
  match k with
  | .fetch => if need false false true then some .permission else none
  | .load => if need true false false then some .permission else none
  | .store => if need false true false then some .permission else if p.st = 1 then some .writeProtect else none
  | .atomic => if need true true false then some .permission else if p.st = 1 then some .writeProtect else none
  | .xload => if !p.xa || need true false false then some .permission else none
  | .xstore =>
    if !p.xa then some .permission else if p.st = 1 then some .writeProtect
    else if need false true false then some .permission else none
  | .xatomic =>
    if !p.xa then some .permission else if p.st = 1 then some .writeProtect
    else if need true true false then some .permission else none

/-! Holders and leases (R206, R211). The holders: L2 slices by their home unit, then core copy units, executor units and
I/O dies. -/

def copyHolder (core : Nat) : Nat := 4096 + core
def unitHolder (u : Nat) : Nat := 8192 + u
def ioHolder (d : Nat) : Nat := 12288 + d
/-- The key of the page of 2^sh bytes that holds an IA. -/
def pageKey (ia sh : Nat) : Nat := ia / 2 ^ sh * 2 ^ (sh - 16)
def heldKey (h ia sh : Nat) : Nat := h * 2 ^ 36 + pageKey ia sh
/-- The entry of a map of translations that covers an IA, if it passes a test. -/
def coverOf (m : SMap Held) (h ia : Nat) (ok : Held → Bool) : Option Held :=
  [16, 21, 30].findSome? fun sh =>
    (smFind m (heldKey h ia sh)).bind fun x => if x.size == sh && ok x then some x else none
/-- A leaf's frame is not under scrub (R215). -/
def unscrubbed (s : State) (x : Held) : Bool :=
  !(decide (fld x.leaf.toNat 61 3 < 3) && scrubbing s (leafFrame x.leaf.toNat) (2 ^ x.size))
/-- A holder's unexpired translation of an IA (R211); a frame under scrub refuses its requests (R215). -/
def heldLeaf (s : State) (h ia : Nat) : Option Held := coverOf s.mem.held h ia fun x => decide (s.now < x.expiry) && unscrubbed s x
/-- The entry that the translation home caches for an IA (R206). -/
def cachedPte (s : State) (ia : Nat) : Option Held :=
  coverOf s.mem.ptes 0 ia fun x => unscrubbed s x && leafOk s.pf x.leaf.toNat x.size && (twinOf s ia x.size).isNone
/-- The key of a page's lease record: pages of each size have records of their own. -/
def leaseKey (ia sh : Nat) : Nat := 4 * pageKey ia sh + (if sh = 16 then 0 else if sh = 21 then 1 else 2)
/-- Grant a lease on a page (R211): the holder keeps the translation, the agent the entry, and of its expiries the latest.
A migrating page gets none (R216). -/
def grant (s : State) (h ten ia e sh : Nat) : State :=
  if fld e 61 3 = 2 then s
  else
    let k := leaseKey ia sh
    let old := smGet s.mem.leases k ⟨1, 0, ten⟩
    let x : Held := ⟨BitVec.ofNat 64 e, sh, s.now + 1000 * (s.tenant ten).lmax⟩
    s.setMem { s.mem with
      leases := smPut s.mem.leases k ⟨2 ^ (sh - 16), max old.expiry x.expiry, ten⟩
      held := smPut s.mem.held (heldKey h ia sh) x
      ptes := smPut s.mem.ptes (pageKey ia sh) x }
/-- Forget the cached entries of pages that overlap a range of IAs: the agent changes them. -/
def dropPtes (m : Mem) (ia size : Nat) : Mem :=
  { m with ptes := smKeep (fun k x => !(decide (k * 2 ^ 16 < ia + size) && decide (ia < k * 2 ^ 16 + 2 ^ x.size))) m.ptes }
/-- A leaf that passes rows 3 to 5 of R210. -/
def passes (k : Option AccKind) (ia : Nat) (x : Held) : Bool :=
  ((k.bind (pageFault · (leafPage x.leaf.toNat x.size ia)))).isNone
/-- A CXL port: host ports 0 and 1, pool ports 2 to 5. -/
def hport (s : State) (p : Nat) : HPort := smGet s.host.ports p ⟨false, 0, 0, 0, 0, false, 0⟩
/-- A page as its accesses are made: host memory behind a port that runs plain PCIe is reached through CXL.io, uncached
(R347, R356, log 47). -/
def portPage (s : State) (p : Page) : Page :=
  let x := hport s (p.at_ / 2 ^ 48)
  if p.st = 4 ∧ p.at_ / 2 ^ 48 < 2 ∧ x.live ∧ x.cxl = 0 then { p with cls := 2 } else p
/-- A translation for a holder by kind (R210, R211): its own unexpired one; else the home's, from the home's cache or by a
walk, with a lease. An entry that does not pass is never answered from a cache. -/
def lookup (s : State) (h ten ia : Nat) (k : Option AccKind) : Except Code (State × Page) :=
  match (heldLeaf s h ia).filter (passes k ia) with
  | some x => .ok (s, portPage s (leafPage x.leaf.toNat x.size ia))
  | none =>
    match (cachedPte s ia).filter (passes k ia) with
    | some x => .ok (grant s h ten ia x.leaf.toNat x.size, portPage s (leafPage x.leaf.toNat x.size ia))
    | none =>
      match leafOf s ia with
      | .error c => .error c
      | .ok (e, sh) =>
        match k.bind (pageFault · (leafPage e sh ia)) with
        | some c => .error c
        | none => .ok (grant s h ten ia e sh, portPage s (leafPage e sh ia))

/-! Touched dies (R55, R56). -/

/-- The stacks that a page's offsets reach under its profile: its interleave group (R201). -/
def interleave (pf : Pf) (pa size : Nat) : List Nat :=
  let base := pa / 2 ^ size * 2 ^ size
  let prof := regionProf pf base
  let g := pa / 2 ^ 38
  let col := fun i => (if (profMask pf g prof 22).testBit i then 1 else 0) + if (profMask pf g prof 23).testBit i then 2 else 0
  ((List.range (min (size - 7) 24)).foldl (fun l i => (l ++ l.map (Nat.xor · (col i))).dedup) [locBits pf base 22 2]).map
    (4 * g + ·)
/-- The bits of the dies that an access to a page touches; host memory is beside them bit 22 + i for host port i. -/
def pageDies (pf : Pf) (p : Page) : B32 :=
  if p.st = 4 ∧ p.at_ / 2 ^ 48 < 2 then 0x300000 ||| 1#32 <<< (22 + p.at_ / 2 ^ 48)
  else if 3 ≤ p.st then 0x300000 else ofBits 32 ((interleave pf p.at_ p.size).map (8 + ·))
/-- Set touched-dies bits of a context, and what it has accessed of the hosts' memory. -/
def touch (s : State) (ctx : Nat) (bits : B32) : State :=
  s.adjCtx ctx fun c => { c with dies := c.dies ||| bits &&& 0x3fffff, hosts := c.hosts ||| bits.extractLsb' 22 2 }
/-- Live dies, and hosts' memory whose port has not failed (R357). -/
def liveBits (s : State) : B32 :=
  s.plat.live &&& 0x3fffff ||| ofBits 32 (([0, 1].filter fun i => !(hport s i).failed).map (22 + ·))
/-- Some of the dies are lost, or of the hosts' memory. -/
def lostDies (s : State) (bits : B32) : Bool := bits &&& ~~~(liveBits s) != 0
/-- The lowest lost socket of some; a failed host port counts as its I/O die (R357). -/
def lostSock (s : State) (bits : B32) : Nat :=
  let n := (bitList (bits &&& ~~~(liveBits s))).headD 0
  if 22 ≤ n then n - 2 else n

/-! Home slices (R194). -/

def homeSlice (la home : Nat) : Nat × Nat :=
  let dies := (List.range 8).filter home.testBit
  let h := (fld la 0 16).xor ((fld la 16 16).xor (fld la 32 13))
  let slice := (fld la 0 9).xor ((fld la 9 9).xor ((fld la 18 9).xor ((fld la 27 9).xor (fld la 36 9))))
  (dies.getD (h % max 1 dies.length) 0, slice)
/-- The key of a line at its home slice. -/
def homeKey (ia home : Nat) : Nat :=
  let la := ia / 128
  let h := homeSlice la home
  lineKey (h.1 * 512 + h.2) la
/-- The compute die of a home key. -/
def keyDie (k : Nat) : Nat := keyUnit k / 512

/-! Bytes of a copy. -/

/-- What an access does to the bytes it finds. -/
inductive Do where
  | load
  | store (bs : List Byte)
  /-- A read-modify-write: `none` where it stores nothing, as a compare that fails (R235). -/
  | rmw (f : List Byte → Option (List Byte))
def Do.writes : Do → Bool
  | .load => false
  | _ => true

/-- What an access found: the old bytes and the first poisoned one. -/
structure Found where
  data : List Byte
  psn : Option Nat

/-- The first poisoned byte of [off, off + n) under marks of granules of g bytes. -/
def poisonAt (mark : Nat → Bool) (g off n : Nat) : Option Nat := (List.range n).find? fun i => mark ((off + i) / g)
/-- The marks after a write: granules written whole are clear (R378). -/
def clear16 (p : BitVec 8) (off n : Nat) : BitVec 8 :=
  ofBits 8 ((List.range 8).filter fun i => p.getLsbD i && !wholeGranule 16 i off n)
/-- The bytes that an access writes, if any; a read-modify-write of poisoned data writes nothing. -/
def newBytes (d : Do) (f : Found) : Option (List Byte) :=
  match d with
  | .load => none
  | .store bs => some bs
  | .rmw g => if f.psn.isSome then none else g f.data
/-- Mark bytes dirty. -/
def dirtyBits (m : BitVec 128) (off n : Nat) : BitVec 128 := m ||| BitVec.ofNat 128 ((2 ^ n - 1) * 2 ^ off)

/-- An access to a home line's copy. -/
def onL2 (l : L2Line) (off n : Nat) (d : Do) : L2Line × Found :=
  let f : Found := ⟨(l.bytes.drop off).take n, poisonAt (l.poison.getLsbD ·) 16 off n⟩
  match newBytes d f with
  | none => (l, f)
  | some bs =>
    ({ l with bytes := patch l.bytes off bs, dirty := dirtyBits l.dirty off n, poison := clear16 l.poison off n }, f)
/-- An access to an L1 copy; `through` leaves it clean. -/
def onL1 (l : L1Line) (off n : Nat) (through : Bool) (d : Do) : L1Line × Found :=
  let f : Found := ⟨(l.bytes.drop off).take n, poisonAt (l.poison.getLsbD ·) 16 off n⟩
  match newBytes d f with
  | none => (l, f)
  | some bs =>
    ({ l with bytes := patch l.bytes off bs, dirty := if through then l.dirty else dirtyBits l.dirty off n
              poison := clear16 l.poison off n }, f)
/-- An access at the frame, beneath every cache. -/
def onFrame (m : Mem) (pa n : Nat) (d : Do) : Mem × Found :=
  let f : Found := ⟨readBytes m.frames pa n, poisonAt (fun g => smGet m.poison g false) 32 pa n⟩
  match newBytes d f with
  | none => (m, f)
  | some bs => ({ m with frames := writeBytes m.frames pa bs, poison := clear32 m.poison pa n }, f)
/-- A store to a word clears its poisoned-flag mark (R312). -/
def unmark (m : Mem) (ia n : Nat) : Mem :=
  { m with flagMarks := (List.range ((ia % 8 + n + 7) / 8)).foldl (fun p i => smDel p (ia / 8 + i)) m.flagMarks }

/-! Lines. -/

/-- The bank of a frame is under refresh (R203). -/
def bankBusy (s : State) (pa : Nat) : Bool := decide (s.now < smGet s.mem.refresh (bankOf s.pf pa) 0)
/-- The end of a busy bank's wait hint, in units of 8 ns (R203). -/
def hintEnd (s : State) (pa : Nat) : Nat := s.now + roundUp (smGet s.mem.refresh (bankOf s.pf pa) 0 - s.now) 8
/-- A frame's line as a fill brings it. -/
def fillLine (m : Mem) (pa prio : Nat) (cmp : Bool) : L2Line :=
  ⟨readBytes m.frames pa 128, 0,
    ofBits 8 ((List.range 8).filter fun i => smGet m.poison (pa / 32 + i / 2) false), .frame pa, prio, 0, .i, .i, 0, 0, cmp⟩
def L2Line.half (l : L2Line) (j : Nat) : HState := if j = 0 then l.h0 else l.h1
def L2Line.setHalf (l : L2Line) (j : Nat) (h : HState) : L2Line := if j = 0 then { l with h0 := h } else { l with h1 := h }
/-- The halves of its line that an access touches. -/
def halves (ia n : Nat) : List Nat := (List.range 2).filter fun j => decide (ia % 128 < 64 * j + 64) && decide (64 * j < ia % 128 + n)

/-- A host bit that a write must clear first. -/
def hostHalf (m : Mem) (ia n : Nat) : Option Nat :=
  ((halves ia n).map (ia / 128 * 2 + ·)).find? fun h => (smFind m.hostBits h).isSome

/-! Sets and ways (R191, R195, R199). -/

/-- Write back an L1 line's dirty bytes to its home line; it stays, clean. -/
def cleanL1 (m : Mem) (k : Nat) : Mem :=
  match smFind m.l1 k with
  | none => m
  | some x =>
    if x.dirty = 0 then m
    else
      match smFind m.l2 x.home with
      | none => m
      | some l => { m with l1 := smPut m.l1 k { x with dirty := 0 }, l2 := smPut m.l2 x.home (mergeDirty l x) }
/-- Make room in a core's L1 for a line: a full set of 16 ways gives up the line filled longest ago (R191, log 36). -/
def roomL1 (m : Mem) (core la : Nat) : Mem :=
  if (smFind m.l1 (lineKey core la)).isSome then m
  else
    let set := m.l1.filter fun p => keyUnit p.1 == core && keyLine p.1 % 256 == la % 256
    if set.length < 16 then m
    else match set.find? (fun p => set.all fun q => decide (p.2.stamp ≤ q.2.stamp)) with
      | some p => { cleanL1 m p.1 with l1 := smDel (cleanL1 m p.1).l1 p.1 }
      | none => m
/-- Words of w bytes that all lie within [-r, r) of the first (R195): the exact difference of unsigned words, the model's
choice (log 56). -/
def nearFirst (w : Nat) (r : Int) (bs : List Byte) : Bool :=
  let word := fun i => (leNat ((bs.drop (w * i)).take w) : Int)
  (List.range (128 / w)).all fun i => decide (-r ≤ word i - word 0) && decide (word i - word 0 < r)
/-- A line that may share a way: its page allows it and one of the encodings fits it: Zero, B8D1, B4D1 or B8D2 (R195). -/
def compressible (l : L2Line) : Bool :=
  l.cmp && (l.bytes.all (· == 0) || nearFirst 8 128 l.bytes || nearFirst 4 128 l.bytes || nearFirst 8 32768 l.bytes)
/-- The other lines of a line's set at its slice (log 36). -/
def setMates (m : Mem) (key : Nat) : List (Nat × L2Line) :=
  m.l2.filter fun p => p.1 != key && keyUnit p.1 == keyUnit key && keyLine p.1 / 512 % 64 == keyLine key / 512 % 64
def inWay (set : List (Nat × L2Line)) (w : Nat) : List (Nat × L2Line) := set.filter fun p => p.2.way == w
/-- The victim of a set (R199): the least recently used line of the lowest priority. -/
def victimOf (set : List (Nat × L2Line)) : Option (Nat × L2Line) :=
  set.find? fun p => set.all fun q => decide (p.2.prio < q.2.prio) || (p.2.prio == q.2.prio && decide (p.2.stamp ≤ q.2.stamp))
/-- The way that a line takes in its set, and the lines that leave it: shared with one compressed line, free, or a
victim's (R195, R199). -/
def wayFor (m : Mem) (key : Nat) (l : L2Line) : Nat × List Nat :=
  let set := setMates m key
  let share := if compressible l then (List.range 16).find? fun w => match inWay set w with
    | [q] => compressible q.2
    | _ => false else none
  match share, (List.range 16).find? (fun w => (inWay set w).isEmpty), victimOf set with
  | some w, _, _ => (w, [])
  | none, some w, _ => (w, [])
  | none, none, some v =>
    let stay := (inWay set v.2.way).filter (·.1 != v.1)
    (v.2.way, v.1 :: if compressible l && stay.all (compressible ·.2) then [] else stay.map Prod.fst)
  | none, none, none => (0, [])
/-- The ways in which the other lines of a line's set hold evict-last ones. -/
def lastWays (m : Mem) (key : Nat) : List Nat :=
  (List.range 16).filter fun w => (inWay (setMates m key) w).any (·.2.prio == 2)
/-- An evict-last line in a way would make it the thirteenth such way of its set (R199). -/
def lastFull (m : Mem) (key way : Nat) : Bool := decide (12 ≤ (lastWays m key).length) && !(lastWays m key).contains way
/-- The priority that an access's hint gives a line: a set that holds 12 evict-last ways takes no more (R199, log 36). -/
def raise (m : Mem) (key : Nat) (l : L2Line) (hint : Nat) : Nat := max l.prio (if hint = 2 && lastFull m key l.way then 1 else hint)

/-! Pool and host lines (R352-R355). -/

/-- The port that carries a pool address (R349, R357): its host port, or pool port PA'[13:12], or in its stead the next
live one in ascending order. -/
def poolPort (s : State) (pa : Nat) : Nat :=
  if pa / 2 ^ 48 < 2 then pa / 2 ^ 48
  else
    let p := fld pa 12 2
    2 + (((List.range 4).map fun i => (p + i) % 4).find? fun k => (hport s (2 + k)).live).getD p
/-- Send a write-back of a half (message kind 2), and await its completion (R357). -/
def writeBack (s : State) (key j pa : Nat) (bs : List Byte) (psn : Bool) : State :=
  let half := keyLine key * 2 + j
  let e := smGet s.mem.filter half (0, 0, 0)
  let r : CxlReq := ⟨half, pa, key, e.2.2, e.1, true, true, none, none, some (0, bs), s.now + 10000000, none, poolPort s pa, [], none⟩
  { s with next := s.next + 1
           host := { s.host with reqs := smPut s.host.reqs s.next r, out := s.host.out ++ [(2, pa, bs, psn)] } }
/-- A line's place in the pool or host memory. -/
def poolAt (l : L2Line) (j : Nat) : Nat := match l.under with | .pool a => a + 64 * j | .frame a => a + 64 * j
/-- Take a half out of state E, M or S: the line's L1 copies return to the slice first, and an M half is written back
(message kind 2). `keep` leaves it in S. -/
def surrender (s : State) (key j : Nat) (keep : Bool) : State :=
  match smFind s.mem.l2 key with
  | none => s
  | some l =>
    let r := recallL1 s.mem (keyLine key) l (fun _ _ => true)
    let l := r.2
    let mbytes := (l.bytes.drop (64 * j)).take 64
    let psn := (List.range 4).any fun i => l.poison.getLsbD (4 * j + i)
    let wb := l.half j == .m
    let clean := l.dirty &&& ~~~(BitVec.ofNat 128 ((2 ^ 64 - 1) * 2 ^ (64 * j)))
    let l' := (if keep && l.half j != .i then l.setHalf j .s else l.setHalf j .i)
    let l' := if wb then { l' with dirty := clean } else l'
    let m := r.1
    let m := if l'.h0 == .i && l'.h1 == .i then { m with l2 := smDel m.l2 key } else { m with l2 := smPut m.l2 key l' }
    let s := if wb then writeBack s key j (poolAt l j) mbytes psn else s
    s.setMem (if l'.half j == .i then { m with filter := smDel m.filter (keyLine key * 2 + j) } else m)
/-- Remove a home line whatever lies beneath it. -/
def dropHome (s : State) (all : Bool) (key : Nat) : State :=
  match smFind s.mem.l2 key with
  | some l => match l.under with
    | .pool _ => surrender (surrender s key 0 false) key 1 false
    | .frame _ => s.setMem (dropLine all s.mem key)
  | none => s.setMem (dropLine all s.mem key)
/-- A write-back of a home line would meet a bank under refresh: the slice reissues it after the hint (R203). -/
def wbBusy (s : State) (key : Nat) : Bool :=
  match smFind s.mem.l2 key with
  | none => false
  | some l => match l.under with
    | .frame pa => bankBusy s pa && (l.dirty != 0 || s.mem.l1.any fun p => keyLine p.1 == keyLine key && p.2.dirty != 0)
    | .pool _ => false
/-- The slice evicts a line (R196, R199); while the host holds a half of it, the host gives that half up first (R351), and a
line whose write-back is to be reissued stays until then (R203). -/
def evict (s : State) (key : Nat) : Except State State :=
  match (smFind s.mem.l2 key).bind fun l => match l.under with
    | .frame pa => (([0, 1].map (keyLine key * 2 + ·)).find? fun h => (smFind s.mem.hostBits h).isSome).map (·, pa)
    | .pool _ => none with
  | some (h, pa) => .error (askHost s h pa)
  | none => if wbBusy s key then .error s else .ok (dropHome s false key)
def evictAll : List Nat → State → Except State State
  | [], s => .ok s
  | k :: ks, s => match evict s k with
    | .ok s => evictAll ks s
    | .error s => .error s
/-- Make room for a line in its set; it gets its way. -/
def room (s : State) (key : Nat) (l : L2Line) : Except State (State × L2Line) :=
  let x := wayFor s.mem key l
  (evictAll x.2 s).map fun s => (s, { l with way := x.1 })
/-- Lines that no longer fit the way they share (R195). -/
def outgrown (m : Mem) : List Nat := smKeys (fun k l => !(inWay (setMates m k) l.way).isEmpty && !compressible l) m.l2
/-- Move such a line to a way of its own; it stays until the host and the banks let what that evicts go, and takes normal
priority where its way would be the thirteenth evict-last one (R199, log 36). -/
def refit (s : State) : State :=
  (outgrown s.mem).foldl (fun s k =>
    match smFind s.mem.l2 k with
    | none => s
    | some l => match room s k l with
      | .ok (s, l) =>
        let l := if l.prio = 2 && lastFull s.mem k l.way then { l with prio := 1 } else l
        s.setMem { s.mem with l2 := smPut s.mem.l2 k l }
      | .error s => s) s

/-- Whether a home line can serve an access now, with the state in which it is at hand. -/
inductive Ready where
  | ok (s : State) (l : L2Line)
  /-- A bank under refresh (R203). -/
  | refresh
  /-- The host has a half to give up first (R351): it has been asked. -/
  | host (s : State)
  /-- A half to fetch or upgrade (R354). -/
  | cxl (j : Nat) (excl : Bool)

/-- A line is used (R199). -/
def useLine (s : State) (key : Nat) (l : L2Line) (hint : Nat) : Ready :=
  .ok (s.setMem { s.mem with clock := s.mem.clock + 1 }) { l with prio := raise s.mem key l hint, stamp := s.mem.clock }
/-- Bring a line to its home slice for an access. -/
def prepL2 (s : State) (p : Page) (ia n key : Nat) (write : Bool) (hint : Nat) : Ready :=
  let m := s.mem
  if p.st = 4 then
    match smFind m.l2 key with
    | none => .cxl ((halves ia n).headD 0) write
    | some l =>
      match (halves ia n).find? fun j => l.half j == .i || (write && l.half j == .s) with
      | some j => .cxl j write
      | none => useLine s key l hint
  else
    match (if write then hostHalf m ia n else none) with
    | some h => .host (askHost s h p.at_)
    | none =>
      match smFind m.l2 key with
      | some l => useLine s key l hint
      | none =>
        if bankBusy s p.at_ then .refresh
        else match room s key (fillLine m (p.at_ / 128 * 128) 0 p.cmp) with
          | .error s => .host s
          | .ok (s, l) => useLine s key l hint

/-- Invalidate the L1 copies of a directory-tracked line in every core of every marked group but the requester (R196). -/
def takeOwn (m : Mem) (la : Nat) (l : L2Line) (me : Nat) : Mem × L2Line :=
  recallL1 m la l fun c x => !x.si && l.dir.getLsbD (c / 8) && c != me
/-- Bring dirty L1 bytes of other cores to the slice, the copies staying clean. -/
def shareFrom (m : Mem) (la : Nat) (l : L2Line) (me : Option Nat) : Mem × L2Line :=
  let hit := fun k (x : L1Line) => keyLine k == la && some (keyUnit k) != me && x.dirty != 0
  (({ m with l1 := smMap (fun k x => if hit k x then { x with dirty := 0 } else x) m.l1 } : Mem),
    List.foldl (fun l (q : Nat × L1Line) => if hit q.1 q.2 then mergeDirty l q.2 else l) l m.l1)
def dirBit (c : Nat) : B64 := 1#64 <<< (c / 8)

/-- An access of a core through its L1 by a page of class directory-tracked (0) or self-invalidating (1): R193, R196,
R197. The home line is at hand. -/
def coreAccess (m : Mem) (l : L2Line) (cls core ia n key : Nat) (d : Do) : Mem × Found :=
  let la := ia / 128
  let off := ia % 128
  let k1 := lineKey core la
  if cls = 0 then
    if d.writes then
      let r := takeOwn m la l core
      let x := smGet r.1.l1 k1 ⟨r.2.bytes, 0, r.2.poison, false, key, r.2.under, m.clock⟩
      let y := onL1 x off n false d
      (({ r.1 with l1 := smPut r.1.l1 k1 y.1, l2 := smPut r.1.l2 key { r.2 with dir := dirBit core } } : Mem), y.2)
    else
      match smFind m.l1 k1 with
      | some x => (({ m with l2 := smPut m.l2 key l } : Mem), (onL1 x off n false d).2)
      | none =>
        let r := shareFrom m la l (some core)
        let x : L1Line := ⟨r.2.bytes, 0, r.2.poison, false, key, r.2.under, m.clock⟩
        (({ r.1 with l1 := smPut r.1.l1 k1 x, l2 := smPut r.1.l2 key { r.2 with dir := r.2.dir ||| dirBit core } } : Mem),
          (onL1 x off n false d).2)
  else
    -- self-invalidating: write-through
    if d.writes then
      let r := onL2 l off n d
      let x := smGet m.l1 k1 ⟨l.bytes, 0, l.poison, true, key, l.under, m.clock⟩
      let y := (onL1 x off n true (match newBytes d r.2 with | some bs => .store bs | none => .load)).1
      (({ m with l1 := smPut m.l1 k1 y, l2 := smPut m.l2 key r.1 } : Mem), r.2)
    else
      let x := smGet m.l1 k1 ⟨l.bytes, 0, l.poison, true, key, l.under, m.clock⟩
      (({ m with l1 := smPut m.l1 k1 x, l2 := smPut m.l2 key l } : Mem), (onL1 x off n true d).2)

/-- An access at the home slice by a unit without an L1, or a home atomic (R198): L1 copies give way to a write. -/
def sliceAccess (m : Mem) (l : L2Line) (ia n key : Nat) (d : Do) : Mem × Found :=
  let la := ia / 128
  let r := if d.writes then recallL1 m la l (fun _ x => !x.si) else shareFrom m la l none
  let y := onL2 r.2 (ia % 128) n d
  (({ r.1 with l2 := smPut r.1.l2 key y.1 } : Mem), y.2)

/-- Bring the issuing core's self-invalidating copy of a line up to date with bytes of its home line (R310). -/
def updateSi (m : Mem) (core ia n key : Nat) : Mem :=
  let k := lineKey core (ia / 128)
  match smFind m.l1 k, smFind m.l2 key with
  | some x, some l =>
    if x.si then
      { m with l1 := smPut m.l1 k { x with
          bytes := patch x.bytes (ia % 128) ((l.bytes.drop (ia % 128)).take n)
          poison := ofBits 8 ((List.range 8).filter fun i =>
            if decide (16 * i < ia % 128 + n) && decide (ia % 128 < 16 * i + 16) then l.poison.getLsbD i else x.poison.getLsbD i) } }
    else m
  | _, _ => m
/-- Cached copies of bytes that a unit writes at the frame keep their values, but write those bytes back no more
(R294, R308). What a core has written of them its home line keeps for it, so that the core reads nothing older (R307). -/
def undirty (m : Mem) (ia n : Nat) : Mem :=
  let part := dirtyBits 0 (ia % 128) n
  let l2 := List.foldl (fun l2 (p : Nat × L1Line) =>
    if keyLine p.1 = ia / 128 ∧ p.2.dirty &&& part ≠ 0 then smAdj l2 p.2.home (mergeDirty · { p.2 with dirty := p.2.dirty &&& part })
    else l2) m.l2 m.l1
  { m with
    l1 := smMap (fun k x => if keyLine k = ia / 128 then { x with dirty := x.dirty &&& ~~~part } else x) m.l1
    l2 := smMap (fun k l => if keyLine k = ia / 128 then { l with dirty := l.dirty &&& ~~~part } else l) l2 }

/-- What became of an access. -/
inductive Perf where
  | done (s : State) (f : Found)
  /-- To be reissued, not before the time given: refresh, a migrating page, or a host bit whose BISnpInv is out. -/
  | wait (s : State) (until_ : Nat)
  /-- A half must be fetched from the pool or the host; `direct` for an uncached page. -/
  | cxl (s : State) (j : Nat) (excl direct : Bool)

/-- Finish an access: its memory, and the flag marks of words that it has stored to. -/
def finish (s : State) (ia n : Nat) (d : Do) (r : Mem × Found) : Perf :=
  .done (s.setMem (if (newBytes d r.2).isSome then unmark r.1 ia n else r.1)) r.2

/-- The context that has written bytes of a pool or host line: a write-back that fails is told to it (R357). -/
def noteWriter (s : State) (ctx ia n : Nat) : State :=
  s.setMem { s.mem with filter := (halves ia n).foldl (fun f j => smAdj f (ia / 128 * 2 + j) fun e => (e.1, e.2.1, ctx)) s.mem.filter }
/-- Halves of a pool or host line that have been written are M (R354). -/
def dirtyHalves (m : Mem) (key ia n : Nat) : Mem :=
  { m with l2 := smAdj m.l2 key fun l => (halves ia n).foldl (fun l j => l.setHalf j .m) l }
/-- Through the caches (R197, R198): `core` names the L1 used, if any; `home` forces the home slice. -/
def cached (s : State) (core : Option Nat) (home : Bool) (p : Page) (ia hset n hint : Nat) (d : Do) : Perf :=
  let key := homeKey ia hset
  let hit := match core with
    | some c => if p.st != 4 && !d.writes && !home then smFind s.mem.l1 (lineKey c (ia / 128)) else none
    | none => none
  if p.st = 2 then .wait s 0
  else match hit with
    | some x => .done s (onL1 x (ia % 128) n true d).2
    | none =>
      match prepL2 s p ia n key d.writes hint with
      | .refresh => .wait s (hintEnd s p.at_)
      | .host s => .wait s 0
      | .cxl j e => .cxl s j e false
      | .ok s l =>
        let r := match core with
          | some c =>
            if home then
              let r := sliceAccess s.mem l ia n key d
              (if d.writes then updateSi r.1 c ia n key else r.1, r.2)
            else coreAccess (roomL1 s.mem c (ia / 128)) l p.cls c ia n key d
          | none => sliceAccess s.mem l ia n key d
        match finish s ia n d (if p.st = 4 ∧ (newBytes d r.2).isSome then dirtyHalves r.1 key ia n else r.1, r.2) with
        | .done s f => .done (refit s) f
        | r => r

/-- At the frame, after every cached copy has been written back and removed (R198, R292): far atomics, executor atomics
and executor loads at DEV scope or wider. The host gives up both halves of the line first (R351). -/
def farAccess (s : State) (p : Page) (ia hset n : Nat) (d : Do) : Perf :=
  if p.st = 2 then .wait s 0
  else
    match hostHalf s.mem (ia / 128 * 128) 128 with
    | some h => .wait (askHost s h p.at_) 0
    | none =>
      if bankBusy s p.at_ then .wait s (hintEnd s p.at_)
      else finish s ia n d (onFrame (dropLine true s.mem (homeKey ia hset)) p.at_ n d)
/-- At the frame beneath the caches, whose copies stay (uncached pages, memory-side loads, executor plain accesses). -/
def frameAccess (s : State) (p : Page) (ia n : Nat) (d : Do) : Perf :=
  if p.st = 2 then .wait s 0
  else
    match (if d.writes then hostHalf s.mem ia n else none) with
    | some h => .wait (askHost s h p.at_) 0
    | none =>
      if bankBusy s p.at_ then .wait s (hintEnd s p.at_)
      else
        let r := onFrame s.mem p.at_ n d
        match finish s ia n d (if (newBytes d r.2).isSome then undirty r.1 ia n else r.1, r.2) with
        | .done s f => .done (refit s) f
        | r => r
/-- An uncached page: at the stack's home agent, or in the pool (R197, R352). -/
def uncached (s : State) (p : Page) (ia n : Nat) (d : Do) : Perf :=
  if p.st = 4 then .cxl s (ia / 64 % 2) (match d with | .rmw _ => true | _ => false) true else frameAccess s p ia n d

/-! Requests that wait (R203, R216). -/

/-- The owner of an engine's access is there: by the first number of its mark, the dispatcher's launch, a binding, a
fragment of a running gang, a SIGNAL add, a run, an inbound flit, a flag still to be written, LGCMD, or a host's request. -/
def tokAlive (s : State) : List Nat → Bool
  | [] => false
  | n :: rest =>
    let k := rest.headD 0
    match n with
    | 1 => (smFind s.launches k).isSome
    | 2 => (smFind s.binds k).any (!·.broken)
    | 4 | 6 | 7 | 9 | 14 => (smFind s.gangs k).any fun g => g.ending.isNone && !g.held
    | 12 => (smFind s.gangs k).isSome
    | 5 => (smFind s.sigs k).isSome
    | 8 => (smFind s.runs k).isSome
    | 10 => (smFind s.fab.writes k).isSome
    | 11 => (smFind s.fab.arr k).any (fun e => (e.st != .refused || e.due) &&
        List.any e.slots fun p => p.2.flag.any fun x => x.1.count.toNat == rest.getD 1 0)
        || List.any s.fab.writes fun p => p.2.key == k && p.2.f.count.toNat == rest.getD 1 0
    | 13 => s.pf.lgwait.isSome
    | 15 => (smFind s.host.pend k).isSome
    | _ => false
/-- Who waits is still there. -/
def Who.alive (s : State) : Who → Bool
  | .lane k l off => match smFind s.ops k with
    | some o => o.todo.any fun q => q.lane == l && q.va.toNat % 64 == off
    | none => false
  | .chunk k _ => match smFind s.copies k with | some c => !c.parked | none => false
  | .run r => (smFind s.runs r).isSome
  | .eng tok => tokAlive s tok
/-- A waiting request's page, of the size that it was translated with, holds a line. -/
def Waiting.onPage (w : Waiting) (la : Nat) : Bool := la * 128 / 2 ^ w.size == w.la * 128 / 2 ^ w.size
/-- A page is migrating, or its collapse is served (R216, R219). -/
def migrating (s : State) (ia : Nat) : Bool := match leafOf s ia with | .ok (e, _) => fld e 61 3 == 2 | .error _ => false
/-- A request's own place. -/
def Waiting.isOf (w : Waiting) (unit la : Nat) (who : Who) : Bool := w.who == who && w.unit == unit && w.la == la
/-- The requests of one unit to one line that come before a request, itself not counted. -/
def earlier (s : State) (unit la : Nat) (who : Who) : List Waiting :=
  (s.mem.waiting.takeWhile fun w => !w.isOf unit la who).filter fun w => w.unit == unit && w.la == la && w.who.alive s
/-- The requests of a migration's queue that a request comes after: those before its own turn, or all of them (R216). -/
def queuedAhead (s : State) (unit la : Nat) (who : Who) : List Waiting :=
  let mine := (s.mem.waiting.find? (·.isOf unit la who)).bind (·.queued)
  s.mem.waiting.filter fun w => !w.isOf unit la who && w.onPage la && w.who.alive s
    && w.queued.any fun t => match mine with | some t' => decide (t < t') | none => true
/-- A request may be made: an earlier one of the same unit to the same line goes first, a wait hint runs out, and once its
page has stopped migrating so do the requests that the page's queue holds before it. -/
def mayIssue (s : State) (unit la : Nat) (who : Who) : Bool :=
  (earlier s unit la who).isEmpty && s.mem.waiting.all (fun w => !w.isOf unit la who || decide (w.until_ ≤ s.now))
    && ((queuedAhead s unit la who).isEmpty || migrating s (la * 128))
/-- A request must wait: it takes its place, or keeps the one it has, until a time; a retry before that time changes nothing
of it. A migration's queue holds 1,024 requests of its page in order of arrival, and a request that finds it full is to be
reissued (R216); one that has to wait for an earlier one of its own joins no queue before it. -/
def toWait (s : State) (unit la : Nat) (who : Who) (until_ : Nat) (p : Page) : State :=
  let ws := s.mem.waiting.filter fun w => w.isOf unit la who || w.who.alive s
  let w : Waiting := ⟨unit, la, p.size, who, until_, none⟩
  let queue := ws.filter fun x => x.queued.isSome && w.onPage x.la
  let turn := if p.st = 2 ∧ queue.length < Config.migrationQueue ∧ (earlier s unit la who).all (·.queued.isSome) then
      some (ws.foldl (fun t x => max t (x.queued.getD 0)) 0 + 1) else none
  let ws := if ws.any (·.isOf unit la who) then
      ws.map fun x => if x.isOf unit la who then { w with until_ := max x.until_ until_, queued := x.queued.or turn } else x
    else ws ++ [{ w with queued := turn }]
  s.setMem { s.mem with waiting := ws }
/-- A request waits no more. -/
def served (s : State) (unit la : Nat) (who : Who) : State :=
  if s.mem.waiting.isEmpty then s
  else s.setMem { s.mem with waiting := s.mem.waiting.filter fun w => !w.isOf unit la who }
/-- Perform a waiting unit's access in its turn. -/
def inTurn (s : State) (unit la : Nat) (who : Who) (p : Page) (act : State → Perf) : Perf :=
  if !mayIssue s unit la who then .wait (toWait s unit la who 0 p) 0
  else match act s with
    | .wait s t => .wait (toWait s unit la who t p) t
    | .done s f => .done (served s unit la who) f
    | .cxl s j e x => .cxl (served s unit la who) j e x

/-! Memory-side scopes (R230, R308). -/

/-- The frame beneath a line lies in a part; `none` names every part. -/
def underPart (pf : Pf) (part : Option (Nat × Nat)) : Under → Bool
  | .frame q => match part with
    | none => true
    | some (scope, pa) => samePart pf scope q pa
  | .pool _ => false
/-- A memory-side release (R308): the core's dirty lines of the part go to their home slices, then the slices of the
context's home sets write theirs to the frame. -/
def releasePart (s : State) (core : Option Nat) (dies : Nat) (part : Option (Nat × Nat)) : State :=
  let m := (smKeys (fun k x => some (keyUnit k) == core && underPart s.pf part x.under) s.mem.l1).foldl cleanL1 s.mem
  let ks := smKeys (fun k l => dies.testBit (keyDie k) && l.dirty != 0 && underPart s.pf part l.under) m.l2
  refit (s.setMem (ks.foldl (fun m k => match smFind m.l2 k with | some l => cleanLine m k l | none => m) m))
/-- A memory-side release of the slices of some dies has a write-back to reissue (R203). -/
def partBusy (s : State) (dies : Nat) (part : Option (Nat × Nat)) : Bool :=
  List.any s.mem.l2 fun p => dies.testBit (keyDie p.1) && underPart s.pf part p.2.under && wbBusy s p.1
/-- A memory-side acquire (R230): the core's L1 lines of the part leave it, dirty ones written to their home slices. -/
def acquirePart (s : State) (core : Nat) (part : Option (Nat × Nat)) : State :=
  let hit := fun k (x : L1Line) => keyUnit k == core && underPart s.pf part x.under
  let m := (smKeys hit s.mem.l1).foldl cleanL1 s.mem
  refit (s.setMem { m with l1 := smKeep (fun k x => !hit k x) m.l1 })
/-- A self-invalidating acquire (R197). -/
def acquireSi (s : State) (core : Nat) : State :=
  s.setMem { s.mem with l1 := smKeep (fun k x => !(keyUnit k == core && x.si)) s.mem.l1 }
/-- The acquire side of an ordered access or fence at a processor scope: CLUS (2) or wider. -/
def acquireAt (s : State) (core scope : Nat) : State :=
  if decide (2 ≤ scope) && !memSide scope then acquireSi s core else s
/-- STL at a memory-side scope: every dirty copy of the line reaches the frame and stays clean; the issuing core's copy
goes (R230). -/
def pushLine (s : State) (core : Nat) (ia hset : Nat) : State :=
  let la := ia / 128
  let m := (smKeys (fun k _ => keyLine k == la) s.mem.l1).foldl cleanL1 s.mem
  let key := homeKey ia hset
  let m := match smFind m.l2 key with
    | some l => cleanLine m key l
    | none => m
  refit (s.setMem { m with l1 := smDel m.l1 (lineKey core la) })

/-- A release at SYS scope (R207, R310): every dirty line reaches its frame, beneath the caches, and stays clean. -/
def syncSys (s : State) : State :=
  let m := (smKeys (fun _ x => x.dirty != 0) s.mem.l1).foldl cleanL1 s.mem
  let ks := smKeys (fun _ l => l.dirty != 0 && underPart s.pf none l.under) m.l2
  refit (s.setMem (ks.foldl (fun m k => match smFind m.l2 k with | some l => cleanLine m k l | none => m) m))
/-- A release at SYS scope has a write-back to reissue (R203): it waits until its banks are free. -/
def releaseBusy (s : State) (scope : Nat) : Bool := scope == 5 && List.any s.mem.l2 fun p => wbBusy s p.1
/-- The release side of an ordered access or fence at a processor scope. -/
def releaseAt (s : State) (scope : Nat) : State := if scope = 5 then syncSys s else s
/-- An atomic at the home slice on a pool page (R198); on an uncached page its read and its write go to the pool (R352). -/
def homeAtomic (s : State) (core : Option Nat) (p : Page) (ia hset n : Nat) (d : Do) : Perf :=
  if p.cls = 2 then .cxl s (ia / 64 % 2) true true else cached s core true p ia hset n 1 d
/-! Accesses by units without an L1: engines, the dispatcher, copies, inbound traffic (they meet lines at the home
slice), and clause fetches. -/

/-- A place that an engine has translated, with the replacement hint of its access (R199). -/
structure Spot where
  page : Page
  ia : Nat
  home : Nat
  prio : Nat

/-- An engine's access to bytes of one line. -/
def engineAccess (s : State) (x : Spot) (n : Nat) (d : Do) : Perf :=
  if x.page.cls = 2 then uncached s x.page x.ia n d else cached s none true x.page x.ia x.home n x.prio d
/-- Translate for a context: windows, page, dies (R63, R210, R56). Map addresses are told apart. The holder is the home
slice's miss unit unless it is named. -/
inductive Reach where
  | fault (c : Code)
  | map (ia : Nat)
  | spot (s : State) (x : Spot)
def reach (s : State) (ctx : Nat) (win : SMap (BitVec 192)) (va : Nat) (k : AccKind) (holder : Option Nat := none) : Reach :=
  match translate win va (some k) with
  | .error c => .fault c
  | .ok (ia, home) =>
    if isMap ia then .map ia
    else
      let ten := match smFind s.ctxs ctx with | some c => c.ten | none => 0
      match lookup s (holder.getD (keyUnit (homeKey ia home))) ten ia (some k) with
      | .error c => .fault c
      | .ok (s, p) =>
        let bits := pageDies s.pf p
        if lostDies s bits then .fault (.dieLost (lostSock s bits)) else .spot (touch s ctx bits) ⟨p, ia, home, 1⟩
def State.winOf (s : State) (ctx : Nat) : SMap (BitVec 192) := match smFind s.ctxs ctx with | some c => c.win | none => []
def State.tenOf (s : State) (ctx : Nat) : Nat := match smFind s.ctxs ctx with | some c => c.ten | none => 0

end Sys2Proof.Machine
end

