-- ==== Sys2Proof/Machine/Remote.lean ====
section
/-! DEFINITION. The sending side of the fabric: planes (R325, R326), flits (R327), ports' replay buffers (R329), send
entries and counted writes (R334-R336), requests (R341) and the checks that an access to a peer passes (R341, R345). -/
namespace Sys2Proof.Machine

/-- Keys of entries: a context's pair, and an arrival (source peer, source context, stream). -/
def pairKey (ctx stream peer : Nat) : Nat := (ctx * 16 + stream) * 512 + peer
def arrKey (peer sctx stream : Nat) : Nat := (peer * 1024 + sctx) * 16 + stream
/-- The live planes, ascending (R325). -/
def livePlanes (s : State) : List Nat := smKeys (fun _ p => p.live) s.fab.ports
/-- The plane of a peer-relative address (R326). -/
def planeOf (s : State) (dst addr : Nat) : Option Nat :=
  let off := addr % 2 ^ 40
  let ex := addr / 2 ^ 40 % 256
  let h := (fld off 7 16).xor ((fld off 23 16).xor ((fld off 39 1 * 2 ^ 15).xor ((ex * 2 ^ 7).xor dst)))
  let l := livePlanes s
  l[h % max 1 l.length]?
/-- A flit's header (R327). -/
def flitHeader (f : Flit) : BitVec 128 :=
  BitVec.ofNat 128 (f.type.toNat * 2 ^ 122 + f.src.toNat * 2 ^ 113 + f.dst.toNat * 2 ^ 104 + f.stream.toNat * 2 ^ 100
    + f.sctx.toNat * 2 ^ 90 + f.len.toNat * 2 ^ 84 + f.gen.toNat * 2 ^ 82 + f.kg.toNat * 2 ^ 81 + f.psn.toNat * 2 ^ 80
    + f.count.toNat * 2 ^ 48 + f.addr.toNat)
/-- The 256 bytes of a flit under a key (R327): header, the payload with its zeros, encrypted, then tag and link CRC. -/
def flitBytes (key : Nat) (f : Flit) : List Byte :=
  let head := toBytes 16 (flitHeader f).toNat
  let plain := (f.payload ++ List.replicate 224 0).take 224
  let sealed := head ++ toBytes 224 (Config.gcmSeal key (head ++ plain)) ++ toBytes 12 (Config.gcmTag key (head ++ plain))
  sealed ++ toBytes 4 (Config.linkCrc sealed)
/-- Send a flit on a live plane: counted by the port, kept for replay until acknowledged (R329), under the port's key bank.
A flit with no live plane is lost with its planes. -/
def sendOn (s : State) (plane : Option Nat) (f : Flit) : State :=
  match plane.bind fun p => (smFind s.fab.ports p).map (p, ·) with
  | none => s
  | some (p, port) =>
    if port.live then
      let f := { f with kg := BitVec.ofNat 1 port.kg }
      let port := { port with sent := port.sent + 1, replay := port.replay ++ [f] }
      { s with fab := { s.fab with ports := smPut s.fab.ports p port, out := s.fab.out ++ [(p, f)] } }
    else s
/-- Send a flit on the plane of its address. -/
def sendFlit (s : State) (f : Flit) : State := sendOn s (planeOf s f.dst.toNat f.addr.toNat) f
/-- A flit of this package. -/
def mkFlit (s : State) (type dst stream sctx gen count addr : Nat) (payload : List Byte) (psn : Bool) : Flit :=
  ⟨BitVec.ofNat 6 type, s.pf.peerid, BitVec.ofNat 9 dst, BitVec.ofNat 4 stream, BitVec.ofNat 10 sctx,
    BitVec.ofNat 6 ((payload.length + 3) / 4), BitVec.ofNat 2 gen, 0, if psn then 1 else 0, BitVec.ofNat 32 count,
    BitVec.ofNat 48 addr, payload⟩

/-- Count a write on a pair and send it (R335). -/
def sendCounted (s : State) (ctx stream peer type addr : Nat) (payload : List Byte) (psn : Bool) : State :=
  let k := pairKey ctx stream peer
  match smFind s.fab.send k with
  | none => s
  | some e =>
    let f := mkFlit s type peer stream ctx e.gen e.bn.toNat addr payload psn
    sendFlit { s with fab := { s.fab with send := smPut s.fab.send k { e with wc := e.wc + 1 } } } f
/-- Close the pair's batch: send REL or GREL with the value and the write count; bn steps, wc clears (R335, R343). -/
def closeBatch (s : State) (ctx stream peer type addr : Nat) (val : B64) : State :=
  let k := pairKey ctx stream peer
  match smFind s.fab.send k with
  | none => s
  | some e =>
    let f := mkFlit s type peer stream ctx e.gen e.bn.toNat addr (toBytes 8 val.toNat ++ toBytes 4 e.wc.toNat) false
    sendFlit { s with fab := { s.fab with send := smPut s.fab.send k { e with bn := e.bn + 1, wc := 0 } } } f
/-- The pair stands at its bound of 2^30 counted writes (R336). -/
def pairFull (s : State) (ctx stream peer : Nat) : Bool :=
  match smFind s.fab.send (pairKey ctx stream peer) with
  | some e => decide (2 ^ 30 ≤ e.wc.toNat)
  | none => false

/-- What the checks of R341 give for an access to a peer: a fault and whether it parks. -/
def peerCheck (s : State) (ctx stream : Nat) (counted : Bool) (peer addr : B64) (ten : Option Nat := none) :
    Option (Code × Bool) :=
  let t := s.tenant (ten.getD (s.tenOf ctx))
  let inTable := (smGet t.peers (peer.toNat % 512 / 64) 0).getLsbD (peer.toNat % 64)
  if peer >>> 9 ≠ 0 ∨ !inTable ∨ addr >>> 48 ≠ 0 then some (.remoteAccess, false)
  else if !counted then none
  else
    match smFind s.fab.send (pairKey ctx stream peer.toNat) with
    | none => some (.streamOverrun, false)
    | some e => if e.st = .refused then some (.streamOverrun, true) else none
/-- The address field that names a peer and a peer-relative address (R345). -/
def remAddr (peer addr : Nat) : B64 := BitVec.ofNat 64 (peer % 512 * 2 ^ 48 + addr % 2 ^ 48)

/-- Operation codes of an ATOM payload (log 8): the operation and its width in bytes, then the tag and two operands. -/
def AOp.num : AOp → Nat
  | .add => 0 | .fadd => 1 | .fadd2 => 2 | .minS => 3 | .minU => 4 | .maxS => 5 | .maxU => 6 | .and_ => 7 | .or_ => 8
  | .xor_ => 9 | .exch => 10 | .cas => 11 | .st => 12
def AOp.ofNum (n : Nat) : AOp :=
  [AOp.add, .fadd, .fadd2, .minS, .minU, .maxS, .maxU, .and_, .or_, .xor_, .exch, .cas, .st].getD n .add

/-- Requests of one issue for the same bytes. -/
def RReq.sameRead (r : RReq) (op : Option Nat) (peer addr : Nat) : Bool :=
  r.op == op && r.peer == peer && r.addr == addr && !r.atom
/-- Open a request for a response (R341): its tag. -/
def openReq (s : State) (op : Option Nat) (q : LaneReq) (ctx ten peer addr : Nat) (atom : Bool) (tok : List Nat) : State × Nat :=
  let tag := s.next
  let r : RReq := ⟨op, q, ctx, peer, addr, s.now + 1000 * (s.tenant ten).rtmo, atom, none, tok⟩
  ({ s with next := s.next + 1, fab := { s.fab with reqs := smPut s.fab.reqs tag r } }, tag)
/-- An RD request flit (R328): no payload. Its answer is the 16 bytes, aligned, that hold the address (log 8). -/
def sendRd (s : State) (ctx stream peer addr tag : Nat) : State :=
  let gen := match smFind s.fab.send (pairKey ctx stream peer) with | some e => e.gen | none => 0
  sendFlit s (mkFlit s 0x02 peer stream ctx gen tag addr [] false)
/-- Send one lane's remote access (R341); answers whether a response is awaited. Lanes of one issue that read the same
bytes share one request (R223). -/
def sendLane (s : State) (ctx stream peer addr : Nat) (m : MDesc) (op : Nat) (q : LaneReq) : State × Bool :=
  let s := touch s ctx 0x300000
  match m.dir with
  | .load =>
    let asked := List.any s.fab.reqs fun p => p.2.sameRead (some op) peer addr
    let r := openReq s (some op) q ctx (s.tenOf ctx) peer addr false []
    (if asked then r.1 else sendRd r.1 ctx stream peer addr r.2, true)
  | .store => (sendCounted s ctx stream peer 0x01 addr (toBytes m.size (q.lo.toNat + 2 ^ 64 * q.hi.toNat)) false, false)
  | .atom =>
    match m.form with
    | .atomic aop nr _ _ _ =>
      let r := if nr then (s, 0) else openReq s (some op) q ctx (s.tenOf ctx) peer addr true []
      let body := [BitVec.ofNat 8 (aop.num + if nr then 128 else 0), BitVec.ofNat 8 m.size] ++ toBytes 4 r.2
        ++ toBytes 8 q.lo.toNat ++ toBytes 8 q.hi.toNat
      (sendCounted r.1 ctx stream peer 0x04 addr body false, !nr)
    | _ => (s, false)

/-! An engine's remote accesses carry its own mark `tok` of the access that they belong to. -/

def RReq.isFor (q : RReq) (ctx peer addr : Nat) (tok : List Nat) : Bool :=
  q.op.isNone && q.ctx == ctx && q.peer == peer && q.addr == addr && q.tok == tok
/-- The answer to an engine's remote request. -/
def remAns (s : State) (ctx peer addr : Nat) (tok : List Nat) : Option RAns :=
  match smKeys (fun _ (q : RReq) => q.isFor ctx peer addr tok) s.fab.reqs with
  | [] => none
  | k :: _ => (smFind s.fab.reqs k).bind (·.ans)
/-- Send an engine's remote read of the 16 bytes at an address unless it has been sent. -/
def askRemote (s : State) (ctx ten peer addr : Nat) (tok : List Nat) : State :=
  if List.any s.fab.reqs fun p => p.2.isFor ctx peer addr tok then s
  else
    let r := openReq (touch s ctx 0x300000) none ⟨0, 0, 0, 0, peer⟩ ctx ten peer addr false tok
    sendRd r.1 ctx 0 peer addr r.2
/-- The aligned 16-byte blocks that [addr, addr + n) touches. -/
def blocks16 (addr n : Nat) : List Nat := (List.range ((addr % 16 + n + 15) / 16)).map fun i => addr / 16 * 16 + 16 * i
/-- An engine's remote read of some blocks: what they have answered, the rest being asked for. -/
def readRemote (ctx ten peer : Nat) (tok : List Nat) : List Nat → State → List Byte → Bool → State × Option RAns
  | [], s, acc, p => (s, some (.data acc p))
  | a :: l, s, acc, p =>
    match remAns s ctx peer a tok with
    | some (.data bs p') => readRemote ctx ten peer tok l s (acc ++ bs) (p || p')
    | some (.fault c k) => (s, some (.fault c k))
    | none => ((a :: l).foldl (fun s a => askRemote s ctx ten peer a tok) s, none)
/-- Send an engine's returning atomic unless it has been sent (R51): counted on the pair, its response awaited. -/
def askAtomic (s : State) (ctx stream peer addr : Nat) (aop : AOp) (lo : B64) (tok : List Nat) : State :=
  if List.any s.fab.reqs fun p => p.2.isFor ctx peer addr tok then s
  else
    let r := openReq (touch s ctx 0x300000) none ⟨0, 0, 0, 0, peer⟩ ctx (s.tenOf ctx) peer addr true tok
    let body := [BitVec.ofNat 8 aop.num, 8#8] ++ toBytes 4 r.2 ++ toBytes 8 lo.toNat ++ toBytes 8 0
    sendCounted r.1 ctx stream peer 0x04 addr body false

end Sys2Proof.Machine
end

