-- ==== Sys2Proof/Machine/Onchip.lean ====
section
/-! DEFINITION. The scratchpad (R59, R228) and the on-chip map (R66-R68): which registers, tiles, accumulators and
scratchpad bytes an address names, and reads and writes of them; and requests to the pool and the host (R352). -/
namespace Sys2Proof.Machine

/-- The codes that park (R224), beside those of peers and poisoned flags. -/
def parksAs (c : Code) : Bool := c == .pageNotPresent || c == .writeProtect

/-! The scratchpad. -/

/-- Mark of a poisoned scratchpad granule of 16 bytes (R379): kept in the memory's marks beside the frames', by
workgroup. -/
def scratchMark (wg a : Nat) : Nat := 2 ^ 41 + wg * 2 ^ 20 + a / 16
def readScratch (s : State) (wg a n : Nat) : Found :=
  match smFind s.wgs wg with
  | none => ⟨List.replicate n 0, none⟩
  | some w => ⟨readBytes w.scratch a n, poisonAt (fun g => smGet s.mem.poison (scratchMark wg (16 * g)) false) 16 a n⟩
/-- A plain store to [a, a + n) spoils the live barriers that it touches (R244). -/
def spoilBars (b : SMap Bool) (a n : Nat) : SMap Bool := smMap (fun k x => x || (decide (k < a + n) && decide (a < k + 16))) b
/-- Store bytes, barriers aside. -/
def putScratch (s : State) (wg a : Nat) (bs : List Byte) : State :=
  let s := s.adjWg wg fun w => { w with scratch := writeBytes w.scratch a bs }
  s.setMem { s.mem with
    poison := (List.range (bs.length / 16 + 1)).foldl (fun p i =>
      if wholeGranule 16 (a / 16 + i) a bs.length then smDel p (scratchMark wg (16 * (a / 16 + i))) else p) s.mem.poison }
/-- A plain store to scratchpad. -/
def writeScratch (s : State) (wg a : Nat) (bs : List Byte) : State :=
  (putScratch s wg a bs).adjWg wg fun w => { w with bars := spoilBars w.bars a bs.length }

/-! The map (R66, R67). -/

/-- What a map address names: a byte of scratchpad, registers, a tile or the cells of an accumulator. -/
inductive MapAt where
  | scratch (wg byte : Nat)
  | reg (gid n lane byte : Nat)
  | tile (gid t byte : Nat)
  | acc (gid a byte : Nat)

/-- The cluster that a workgroup belongs to. -/
def clusterOf (s : State) (wg : Option Nat) : Option (Nat × Nat) :=
  (wg.bind (smFind s.wgs ·)).map fun w => (w.launch, w.cluster)
/-- The place that [ia, ia + n) names for an issuer of a cluster; none where R67 gives PERMISSION. -/
def mapAt (s : State) (cl : Option (Nat × Nat)) (ia n : Nat) : Option MapAt :=
  let core := fld ia 31 9
  let res := fld ia 28 3
  let off := fld ia 0 28
  let slotNo := match res with | 0 => off / 2 ^ 19 | 1 => off / 2 ^ 13 | 2 => off / 2 ^ 15 | _ => off / 2 ^ 15
  let rest := match res with | 0 => off % 2 ^ 19 | 1 => off % 2 ^ 13 | 2 => off % 2 ^ 15 | _ => off % 2 ^ 15
  if 64 ≤ slotNo ∨ 4 ≤ res then none
  else
    match smKeys (fun _ (g : Gang) => g.core == core && g.quarter == slotNo / 16 && g.slot == slotNo % 16) s.gangs with
    | [] => none
    | gid :: _ =>
      match smFind s.gangs gid with
      | none => none
      | some g =>
        if cl.isNone || clusterOf s g.wg != cl then none
        else
          match res with
          | 0 => if rest + n ≤ g.scratchN then some (.scratch (g.wg.getD 0) rest) else none
          | 1 => if (rest + n - 1) / 128 < g.regs then some (.reg gid (rest / 128) (rest / 4 % 32) (rest % 4)) else none
          | 2 => if (rest + n - 1) / 2048 < g.tilesN then some (.tile gid (rest / 2048) (rest % 2048)) else none
          | _ => if (rest + n - 1) / 8192 < g.accsN then some (.acc gid (rest / 8192) (rest % 8192)) else none

/-- The tiles and accumulators that a matrix instruction in flight uses (R68); an MRDA may fill two tiles (R268). -/
def matTiles : MatOp → List Nat
  | .mma _ _ _ a b _ => [a, b]
  | .mmag _ _ b _ => [b]
  | .mldt t | .mstt t => [t]
  | .mza _ | .mrdaS .. => []
  | .mrdaT _ t _ _ _ _ => [t, t + 1]
def matAccs : MatOp → List Nat
  | .mma _ _ a _ _ _ => [a]
  | .mmag _ a _ _ => [a]
  | .mldt _ | .mstt _ => []
  | .mza a => [a]
  | .mrdaT a _ _ _ _ _ => [a]
  | .mrdaS a .. => [a]
/-- A matrix instruction of the target gang is in flight on the named tile or accumulator (R68). -/
def mapBusy (s : State) (m : MapAt) : Bool :=
  List.any s.ops fun p => match p.2.kind, m with
    | .mat o _, .tile gid t _ => p.2.gid == gid && (matTiles o).contains t
    | .mat o _, .acc gid a _ => p.2.gid == gid && (matAccs o).contains a
    | _, _ => false

/-- Tile and accumulator bytes. -/
def tileByte (g : Gang) (t i : Nat) : Byte := smGet g.tile (t * 2048 + i) 0
def setTileByte (g : Gang) (t i : Nat) (b : Byte) : Gang := { g with tile := smSet g.tile (t * 2048 + i) b 0 }
/-- Write bytes to a tile run from tile t up. -/
def putTile (g : Gang) (t : Nat) (bs : List (Nat × Byte)) : Gang :=
  bs.foldl (fun g p => setTileByte g (t + p.1 / 2048) (p.1 % 2048) p.2) g
def accCell (g : Gang) (a i : Nat) : BitVec 36 := smGet g.acc (a * 1024 + i) 0
def setAccCell (g : Gang) (a i : Nat) (x : BitVec 36) : Gang := { g with acc := smSet g.acc (a * 1024 + i) x 0 }

/-- Read n bytes through the map (R66). -/
def mapRead (s : State) (m : MapAt) (n : Nat) : Found :=
  match m with
  | .scratch wg a => readScratch s wg a n
  | .reg gid r lane b =>
    ⟨match smFind s.gangs gid with
      | none => List.replicate n 0
      | some g => (List.range n).map fun i =>
          let q := r * 128 + lane * 4 + b + i
          BitVec.ofNat 8 (fld (laneReg g (q / 4 % 32) (q / 128)).toNat (8 * (q % 4)) 8), none⟩
  | .tile gid t b =>
    ⟨match smFind s.gangs gid with
      | none => List.replicate n 0
      | some g => (List.range n).map fun i => tileByte g ((t * 2048 + b + i) / 2048) ((b + i) % 2048), none⟩
  | .acc gid a b =>
    ⟨match smFind s.gangs gid with
      | none => List.replicate n 0
      | some g => (List.range n).map fun i =>
          let q := a * 8192 + b + i
          BitVec.ofNat 8 (fld (accCell g (q / 8192) (q / 8 % 1024)).toNat (8 * (q % 8)) 8), none⟩
/-- Replace byte i of a word. -/
def setByteOf (x i : Nat) (b : Byte) : Nat := setFld x (8 * i) 8 b.toNat
/-- Write one byte of a gang through the map. A store to half of a cell's word keeps the cell's other bits (log 17). -/
def mapByte (g : Gang) (m : MapAt) (i : Nat) (x : Byte) : Gang :=
  match m with
  | .scratch _ _ => g
  | .reg _ r lane b =>
    let q := r * 128 + lane * 4 + b + i
    setLaneReg g (q / 4 % 32) (q / 128) (BitVec.ofNat 32 (setByteOf (laneReg g (q / 4 % 32) (q / 128)).toNat (q % 4) x))
  | .tile _ t b => setTileByte g ((t * 2048 + b + i) / 2048) ((b + i) % 2048) x
  | .acc _ a b =>
    let q := a * 8192 + b + i
    setAccCell g (q / 8192) (q / 8 % 1024) (BitVec.ofNat 36 (setByteOf (accCell g (q / 8192) (q / 8 % 1024)).toNat (q % 8) x))
/-- Write bytes through the map; bits above a cell's 36 are ignored (R66). -/
def mapWrite (s : State) (m : MapAt) (bs : List Byte) : State :=
  match m with
  | .scratch wg a => writeScratch s wg a bs
  | .reg gid .. | .tile gid .. | .acc gid .. =>
    s.adjGang gid fun g => (bs.zipIdx).foldl (fun g p => mapByte g m p.2 p.1) g

/-! Requests for halves of pool and host lines (R349, R352). -/

/-- An engine's uncached access by its mark; a write, or a read. -/
def CxlReq.isFor (q : CxlReq) (ctx half : Nat) (tok : List Nat) (write : Bool) : Bool :=
  q.half == half && q.ctx == ctx && q.tok == tok && q.direct && q.op.isNone && q.write.isSome == write
/-- Uncached reads of one half by lanes of one issue. -/
def CxlReq.sameRead (q r : CxlReq) : Bool :=
  q.op.isSome && q.op == r.op && q.half == r.half && q.direct && r.direct && q.write.isNone && r.write.isNone && !q.excl && !r.excl
/-- Ask for a half: message kind 0 shared, 1 exclusive, 6 uncached read, 7 uncached write. An outstanding request that
serves is not repeated, and lanes of one issue that read one half share one message (R223). -/
def askCxl (s : State) (ctx : Nat) (p : Page) (ia home j : Nat) (excl direct : Bool) (op : Option Nat)
    (lane : Option LaneReq) (write : Option (Nat × List Byte)) (ten : Option Nat := none) (tok : List Nat := [])
    (old : Option (List Byte) := none) (psn : Bool := false) : State :=
  let half := ia / 128 * 2 + j
  let serves := List.any s.host.reqs fun q =>
    if direct then op.isNone && q.2.isFor ctx half tok write.isSome
    else q.2.half == half && !q.2.direct && (q.2.excl || !excl)
  if serves then s
  else
    let pa := p.at_ / 128 * 128 + 64 * j
    let r : CxlReq := ⟨half, pa, homeKey ia home, ctx, ten.getD (s.tenOf ctx), excl, direct, op, lane, write, s.now + 10000000,
      none, poolPort s pa, tok, old⟩
    let kind := if direct then (if write.isSome then 7 else 6) else if excl then 1 else 0
    let data := match write with | some w => w.2 | none => []
    let shared := List.any s.host.reqs fun q => q.2.sameRead r
    { s with next := s.next + 1
             host := { s.host with
               reqs := smPut s.host.reqs s.next r
               out := s.host.out ++ (if shared then [] else [(kind, pa, data, psn)]) } }
/-- An engine's uncached request. -/
def cxlOf (s : State) (ctx half : Nat) (tok : List Nat) (write : Bool) : Option CxlReq :=
  ((smKeys (fun _ (q : CxlReq) => q.isFor ctx half tok write) s.host.reqs).head?).bind (smFind s.host.reqs ·)
/-- An uncached write or atomic is in progress on a half: one at a time (R223, R352, log 37). -/
def cxlLocked (s : State) (half : Nat) : Bool :=
  List.any s.host.reqs fun p => p.2.half == half && p.2.direct && (p.2.excl || p.2.write.isSome)
/-- An engine's access is over, with the parts whose marks begin with its own: their answers are used up, and what is still
asked for is wanted no more, but for a write; no part of it waits in a place. -/
def dropTok (s : State) (tok : List Nat) : State :=
  let gone := fun (w : Waiting) => match w.who with | .eng t => tok.isPrefixOf t | _ => false
  { s with
    mem := { s.mem with waiting := s.mem.waiting.filter (!gone ·) }
    host := { s.host with reqs := smKeep (fun _ q =>
      !(tok.isPrefixOf q.tok && q.direct && q.op.isNone && (q.ans.isSome || q.write.isNone))) s.host.reqs }
    fab := { s.fab with reqs := smKeep (fun _ q => !(tok.isPrefixOf q.tok && q.op.isNone)) s.fab.reqs } }

/-- An engine's access: performed, left pending until a time at least, or a fault met beyond the page, and whether it
parks. -/
inductive Eng where
  | done (s : State) (f : Found)
  | wait (s : State) (until_ : Nat)
  | fault (s : State) (c : Code) (parks : Bool)
/-- A peer's answer about bytes [addr, addr + n) of its blocks. -/
def engAns (s : State) (addr n : Nat) : Option RAns → Eng
  | some (.data bs psn) => .done s ⟨(bs.drop (addr % 16)).take n, if psn then some 0 else none⟩
  | some (.fault c k) => .fault s c k
  | none => .wait s 0
/-- An engine's atomic on an uncached pool page (R198, R352): a read of the half that keeps others out, then its write. -/
def engineRmw (s : State) (ctx : Nat) (tok : List Nat) (x : Spot) (n : Nat) (f : List Byte → Option (List Byte)) (ten : Option Nat) : Eng :=
  let half := x.ia / 64
  let ask := fun w old => askCxl s ctx x.page x.ia x.home (half % 2) true true none none w ten tok old
  match cxlOf s ctx half tok true, cxlOf s ctx half tok false with
  | some w, _ => if w.ans.isSome then .done s ⟨(w.old.getD []).take n, none⟩ else .wait s 0
  | none, some r =>
    match r.ans with
    | none => .wait s 0
    | some (_, true) => .done s ⟨List.replicate n 0, some 0⟩
    | some (bs, false) =>
      let old := (bs.drop (x.ia % 64)).take n
      match f old with
      | some v => .wait (ask (some (x.ia % 64, v)) (some old)) 0
      | none => .done s ⟨old, none⟩
  | none, none => if cxlLocked s half then .wait s 0 else .wait (ask none none) 0
/-- An engine's store to a remote page has been sent: not again while the access that it is part of lasts. -/
def noteStore (s : State) (ctx peer addr : Nat) (tok : List Nat) : State :=
  if tok = [] then s
  else
    let r : RReq := ⟨none, ⟨0, 0, 0, 0, peer⟩, ctx, peer, addr, 0, true, some (.data [] false), tok⟩
    { s with next := s.next + 1, fab := { s.fab with reqs := smPut s.fab.reqs s.next r } }
/-- Perform an engine's access in its turn among a unit's (R203, R216). -/
def engTurn (s : State) (unit la : Nat) (who : Who) (p : Page) (act : State → Eng) : Eng :=
  if !mayIssue s unit la who then .wait (toWait s unit la who 0 p) 0
  else match act s with
    | .wait s t => .wait (toWait s unit la who t p) t
    | .done s f => .done (served s unit la who) f
    | .fault s c k => .fault (served s unit la who) c k
/-- An engine's access once its turn has come, requests for missing halves and remote pages included; `ten` names the tenant of an access that no
context makes, `psn` marks stored data poisoned on its way to the pool or a peer. A store to a remote page is a counted
write on the stream given, stream 0 where the access has none (R209, log 38). Answers stay until the access that `tok`
marks is over. -/
def engineNow (s : State) (ctx : Nat) (tok : List Nat) (x : Spot) (n : Nat) (d : Do) (ten : Option Nat := none) (psn : Bool := false)
    (stream : Nat := 0) : Eng :=
  if x.page.st = 3 then
    let addr := x.page.exp * 2 ^ 40 + x.page.at_
    let peer := x.page.peer
    match peerCheck s ctx stream d.writes (BitVec.ofNat 64 peer) (BitVec.ofNat 64 addr) ten, d with
    | some (c, k), _ => .fault s c k
    | none, .load =>
      let r := readRemote ctx (ten.getD (s.tenOf ctx)) peer tok (blocks16 addr n) s [] false
      engAns r.1 addr n r.2
    | none, .store bs =>
      if tok ≠ [] ∧ (remAns s ctx peer addr tok).isSome then .done s ⟨[], none⟩
      else if pairFull s ctx stream peer then .wait s 0
      else .done (noteStore (sendCounted s ctx stream peer 0x01 addr bs psn) ctx peer addr tok) ⟨[], none⟩
    | none, .rmw _ => .fault s .permission false
  else
    match (match d with
      | .rmw _ => if x.page.st = 4 then homeAtomic s none x.page x.ia x.home n d else engineAccess s x n d
      | _ => engineAccess s x n d) with
    | .done s f => .done (if d.writes && x.page.st == 4 then noteWriter s ctx x.ia n else s) f
    | .wait s t => .wait s t
    | .cxl s j excl direct =>
      if !direct then .wait (askCxl s ctx x.page x.ia x.home j excl false none none none ten) 0
      else match d with
        | .rmw f => engineRmw s ctx tok x n f ten
        | .load =>
          match (cxlOf s ctx (x.ia / 64) tok false).bind (·.ans) with
          | some (bs, psn) => .done s ⟨(bs.drop (x.ia % 64)).take n, if psn then some 0 else none⟩
          | none => .wait (askCxl s ctx x.page x.ia x.home j false true none none none ten tok) 0
        | .store bs =>
          let sent := cxlOf s ctx (x.ia / 64) tok true
          if (sent.bind (·.ans)).isSome then .done s ⟨[], none⟩
          else if sent.isNone && cxlLocked s (x.ia / 64) then .wait s 0
          else .wait (askCxl s ctx x.page x.ia x.home j false true none none (some (x.ia % 64, bs)) ten tok none psn) 0
/-- An engine's access in its turn at the line's home slice, which requests it for the engine. -/
def engineDo (s : State) (ctx : Nat) (tok : List Nat) (x : Spot) (n : Nat) (d : Do) (ten : Option Nat := none) (psn : Bool := false)
    (stream : Nat := 0) : Eng :=
  engTurn s (keyUnit (homeKey x.ia x.home)) (x.ia / 128) (.eng tok) x.page fun s => engineNow s ctx tok x n d ten psn stream
/-- The code that an asynchronous record of an engine gives a peer's fault: R361 lists STREAM_OVERRUN there, but not
REMOTE_ACCESS and REMOTE_TIMEOUT (log 39). -/
def asyncCode (c : Code) (parks : Bool) : Code :=
  match c with
  | .remoteAccess => if parks then .pageNotPresent else .permission
  | .remoteTimeout => .dataPoison
  | c => c

/-- What an engine's read of a block of memory gives. -/
inductive Got where
  | ok (s : State) (bs : List Byte) (psn : Option Nat)
  | fault (s : State) (c : Code) (va : Nat) (parks : Bool)
  | wait (s : State)
/-- Read a piece of the on-chip map for an issuer of a cluster (R67); nothing is fetched from it. -/
def mapGot (s : State) (cl : Option (Nat × Nat)) (k : AccKind) (ia n va : Nat) : Got :=
  match k, mapAt s cl ia n with
  | .load, some m => if mapBusy s m then .wait s else let f := mapRead s m n; .ok s f.data f.psn
  | _, _ => .fault s .permission va false
/-- Read blocks at VAs for a unit without an L1; `off` counts from the first byte. What was read before a fault has been read:
the dies it touched stay touched (R55). -/
def readChunks (ctx : Nat) (cl : Option (Nat × Nat)) (tok : List Nat) (win : SMap (BitVec 192)) (k : AccKind) :
    List (Nat × Nat) → Nat → State → List Byte → Option Nat → Got
  | [], _, s, acc, p => .ok s acc p
  | (va, n) :: rest, off, s, acc, p =>
    let next := fun s (f : List Byte) (q : Option Nat) =>
      readChunks ctx cl tok win k rest (off + n) s (acc ++ f) (p <|> q.map (off + ·))
    match reach s ctx win va k with
    | .fault c => .fault s c va (parksAs c)
    | .map ia => match mapGot s cl k ia n va with
      | .ok s bs q => next s bs q
      | r => r
    | .spot s x =>
      match engineDo s ctx (tok ++ [off]) x n .load with
      | .done s f => next s f.data f.psn
      | .wait s _ => .wait s
      | .fault s c parks => .fault s c va parks
/-- Cut [va, va + n) at boundaries of 64 bytes. -/
def cutHalves : Nat → Nat → Nat → List (Nat × Nat)
  | 0, _, _ => []
  | fuel + 1, va, n =>
    if n = 0 then []
    else
      let k := min n (64 - va % 64)
      (va, k) :: cutHalves fuel (va + k) (n - k)
/-- Read a block for a unit without an L1, under the mark `tok` and for a cluster's map accesses; the answers stay. -/
def readPart (s : State) (ctx : Nat) (cl : Option (Nat × Nat)) (tok : List Nat) (win : SMap (BitVec 192)) (k : AccKind)
    (va n : Nat) : Got :=
  readChunks ctx cl tok win k (cutHalves (n / 64 + 2) va n) 0 s [] none
/-- Read a block that is an access of its own. -/
def readBlock (s : State) (ctx : Nat) (cl : Option (Nat × Nat)) (tok : List Nat) (win : SMap (BitVec 192)) (k : AccKind)
    (va n : Nat) : Got :=
  match readPart s ctx cl tok win k va n with
  | .ok s bs p => .ok (dropTok s tok) bs p
  | r => r

/-! Counters: far atomic adds (R34, R51, R158). -/

/-- What became of an add. -/
inductive AddRes where
  | done (s : State)
  | fault (s : State) (c : Code)
  | wait (s : State)
/-- Add to a 64-bit counter by a far atomic. On a remote page it is a counted atomic on the stream: one that returns, so
that its response says when it has been performed, where `await` asks for that. -/
def addCounter (s : State) (ctx stream : Nat) (tok : List Nat) (await : Bool) (va inc : B64) : AddRes :=
  match reach s ctx (s.winOf ctx) va.toNat .atomic with
  | .fault c => .fault (dropTok s tok) c
  | .map _ => .fault s .permission
  | .spot s x =>
    let d := Do.rmw fun old => some (toBytes 8 (leNat old + inc.toNat))
    if x.page.st = 3 then
      let addr := x.page.exp * 2 ^ 40 + x.page.at_
      let peer := x.page.peer
      match remAns s ctx peer addr tok with
      | some (.data ..) => .done (dropTok s tok)
      | some (.fault c k) => .fault (dropTok s tok) (asyncCode c k)
      | none =>
        if List.any s.fab.reqs fun p => p.2.isFor ctx peer addr tok then .wait s
        else match peerCheck s ctx stream true (BitVec.ofNat 64 peer) (BitVec.ofNat 64 addr) with
          | some (c, k) => .fault s (asyncCode c k)
          | none =>
            if pairFull s ctx stream peer then .wait s
            else if await then .wait (askAtomic s ctx stream peer addr .add inc tok)
            else .done (sendLane s ctx stream peer addr
              ⟨.atomic .add true true false 5, .atom, .remote, 8, false, 0, 1, stream, true⟩ 0 ⟨0, 0, inc, 0, peer⟩).1
    else
      let r := if x.page.st = 4 then engineDo s ctx tok x 8 d
        else engTurn s (keyUnit (homeKey x.ia x.home)) (x.ia / 128) (.eng tok) x.page fun s =>
          match farAccess s x.page x.ia x.home 8 d with
          | .done s f => .done s f
          | .wait s t => .wait s t
          | .cxl s .. => .wait s 0
      match r with
      | .done s f => if f.psn.isSome then .fault (dropTok s tok) .dataPoison else .done (dropTok s tok)
      | .wait s _ => .wait s
      | .fault s c _ => .fault (dropTok s tok) c

end Sys2Proof.Machine
end

