-- ==== Sys2Proof/Machine/Grid.lean ====
section
/-! DEFINITION. Grid descriptors (R23-R31, R37) and the geometry of ghost buffers (R29, R272): fields, local extents, the
descriptor's checks, element positions, regions and step tags (R33, R237, R283). -/
namespace Sys2Proof.Machine

/-- Field [lo + n - 1 : lo] of a descriptor (R25). -/
def dfld (d : BitVec 1024) (lo n : Nat) : Nat := fld d.toNat lo n
def dRank (d : BitVec 1024) : Nat := dfld d 16 2
def dFmt (d : BitVec 1024) : Nat := dfld d 21 3
def dDepth (d : BitVec 1024) : Nat := dfld d 24 3 + 1
def dFault (d : BitVec 1024) : Bool := d.getLsbD 27
def dStream (d : BitVec 1024) : Nat := dfld d 28 4
def dHw (d : BitVec 1024) (k : Nat) : Nat := dfld d (32 + 4 * k) 4
def dCode (d : BitVec 1024) (k : Nat) : Nat := dfld d (64 + 3 * k) 3
def dTmo (d : BitVec 1024) : Nat := dfld d 96 32
def dExt (d : BitVec 1024) (e : Nat) : Nat := dfld d (128 + 32 * e) 32
def dParts (d : BitVec 1024) (e : Nat) : Nat := dfld d (224 + 8 * e) 8 + 1
def dCoord (d : BitVec 1024) (e : Nat) : Nat := dfld d (256 + 8 * e) 8
def dOwner (d : BitVec 1024) : Nat := dfld d 320 64
def dIbase (d : BitVec 1024) : Nat := dfld d 384 64
def dStride (d : BitVec 1024) (e : Nat) : Nat := dfld d (416 + 32 * e) 32
def dGhost (d : BitVec 1024) : Nat := dfld d 512 64
def dCcnt (d : BitVec 1024) : Nat := dfld d 576 64
def dConst (d : BitVec 1024) (k : Nat) : Nat := dfld d (640 + 64 * k) 64

/-- Element sizes (R26). -/
def fmtSize (f : Nat) : Nat := match f with | 0 | 3 | 4 => 2 | 1 | 5 | 7 => 4 | _ => 8
def dSize (d : BitVec 1024) : Nat := fmtSize (dFmt d)
/-- Ghost depth of a face (R23). -/
def dWidth (d : BitVec 1024) (k : Nat) : Nat := dDepth d * dHw d k
/-- Local extent of a dimension for partition coordinate c (R23). -/
def extentAt (d : BitVec 1024) (e c : Nat) : Nat :=
  let s := dExt d e / dParts d e
  if c < dExt d e % dParts d e then s + 1 else s
def dLocal (d : BitVec 1024) (e : Nat) : Nat := extentAt d e (dCoord d e)
/-- A domain-boundary face (R24). -/
def isBoundary (d : BitVec 1024) (k : Nat) : Bool :=
  if k % 2 = 0 then dCoord d (k / 2) == 0 else dCoord d (k / 2) + 1 == dParts d (k / 2)
/-- A face filled from a partition: interior, or PERIODIC (R24). -/
def exchanged (d : BitVec 1024) (k : Nat) : Bool := !isBoundary d k || dCode d k == 1
/-- The coordinates of the partition that shares a face (R24). -/
def neighbour (d : BitVec 1024) (k : Nat) : List Nat :=
  (List.range 3).map fun e =>
    if e ≠ k / 2 then dCoord d e
    else if isBoundary d k then dParts d e - 1 - dCoord d e
    else if k % 2 = 0 then dCoord d e - 1 else dCoord d e + 1
/-- A partition's index in the owner table (R28). -/
def partIndex (d : BitVec 1024) (c : List Nat) : Nat :=
  c.getD 0 0 + dParts d 0 * (c.getD 1 0 + dParts d 1 * c.getD 2 0)
def selfCoord (d : BitVec 1024) : List Nat := (List.range 3).map (dCoord d)
/-- Faces shared with a partition across which something is sent or received (R276). -/
def sharedFaces (d : BitVec 1024) : List Nat :=
  (List.range 6).filter fun k => (dHw d k != 0 || dHw d (k ^^^ 1) != 0) && exchanged d k
/-- Every face shared with a partition, of whatever width (R24). -/
def allFaces (d : BitVec 1024) : List Nat := (List.range 6).filter (exchanged d)
/-- The entries that a GBIND reads (R35). -/
def ownerIdx (d : BitVec 1024) : List Nat :=
  (partIndex d (selfCoord d) :: (allFaces d).map fun k => partIndex d (neighbour d k)).dedup
/-- Faces with nonzero width. -/
def wideFaces (d : BitVec 1024) : List Nat := (List.range 6).filter fun k => dWidth d k != 0

/-- The checks of R37 on the descriptor's own fields. -/
def descOk (d : BitVec 1024) : Bool :=
  let r := dRank d
  let sz := dSize d
  let rsv := dfld d 18 3 + dfld d 56 8 + dfld d 82 14 + dfld d 248 8 + dfld d 280 40 == 0
  let above := (List.range 3).all fun e => decide (e < r) ||
    (dExt d e == 1 && dParts d e == 1 && dCoord d e == 0 && dHw d (2 * e) == 0 && dHw d (2 * e + 1) == 0
      && dCode d (2 * e) == 0 && dCode d (2 * e + 1) == 0)
  let consts := (List.range 6).all fun k => decide (dConst d k < 256 ^ sz)
  let align := dIbase d % sz == 0 && dGhost d % 128 == 0 && dCcnt d % 8 == 0 && dOwner d % 4 == 0
  let st1 := if r = 1 then dStride d 1 == 0
    else dStride d 1 % sz == 0 && decide (dLocal d 0 * sz ≤ dStride d 1)
  let st2 := if r < 3 then dStride d 2 == 0
    else dStride d 1 != 0 && dStride d 2 % dStride d 1 == 0 && decide (dLocal d 1 * dStride d 1 ≤ dStride d 2)
  let coords := (List.range 3).all fun e => decide (dCoord d e < dParts d e)
  let extents := (List.range r).all fun e =>
    let s := dExt d e / dParts d e
    let extrap := dCode d (2 * e) == 6 || dCode d (2 * e + 1) == 6
    dExt d e != 0 && decide (max (max (dWidth d (2 * e)) (dWidth d (2 * e + 1))) 1 ≤ s) && (!extrap || decide (2 ≤ s))
  let codes := (List.range (2 * r)).all fun k =>
    let c := dCode d k
    c != 7 && !(c == 0 && isBoundary d k) && ((c == 1) == (dCode d (k ^^^ 1) == 1))
      && !((c == 5 || c == 6) && decide (dFmt d < 3))
  r != 0 && dfld d 8 8 == 1 && dfld d 0 8 == 0 && rsv && above && consts && align && st1 && st2 && coords && extents && codes
    && !(!dFault d && dTmo d == 0)

/-! Ghost buffers (R272). -/

/-- Lowest coordinate and count of dimension e in face k's buffer. -/
def boxDim (d : BitVec 1024) (k e : Nat) : Int × Nat :=
  if dRank d ≤ e then (0, 1)
  else if e = k / 2 then
    (if k % 2 = 0 then (-(dWidth d k : Int), dWidth d k) else ((dLocal d e : Int), dWidth d k))
  else (-(dWidth d (2 * e) : Int), dLocal d e + dWidth d (2 * e) + dWidth d (2 * e + 1))
/-- Elements of a face buffer, and its bytes padded. -/
def boxCount (d : BitVec 1024) (k : Nat) : Nat := (boxDim d k 0).2 * (boxDim d k 1).2 * (boxDim d k 2).2
def boxPad (d : BitVec 1024) (k : Nat) : Nat := roundUp (boxCount d k * dSize d) 128
/-- Byte offset of a face's buffer b in the ghost area. -/
def boxBase (d : BitVec 1024) (k b : Nat) : Nat :=
  ((List.range k).filter fun j => dWidth d j != 0).foldl (fun a j => a + 2 * boxPad d j) 0 + b * boxPad d k
def ghostBytes (d : BitVec 1024) : Nat := (wideFaces d).foldl (fun a j => a + 2 * boxPad d j) 0
/-- The coordinates of element i of a face buffer, and back. -/
def boxCoord (d : BitVec 1024) (k i : Nat) : List Int :=
  let x := boxDim d k 0
  let y := boxDim d k 1
  let z := boxDim d k 2
  [x.1 + (i % x.2 : Nat), y.1 + (i / x.2 % y.2 : Nat), z.1 + (i / x.2 / y.2 : Nat)]
def boxIndex (d : BitVec 1024) (k : Nat) (c : List Int) : Nat :=
  let x := boxDim d k 0
  let y := boxDim d k 1
  let z := boxDim d k 2
  ((c.getD 0 0 - x.1) + x.2 * ((c.getD 1 0 - y.1) + y.2 * (c.getD 2 0 - z.1))).toNat
/-- A coordinate's relation to its dimension's range. -/
def relOf (d : BitVec 1024) (e : Nat) (x : Int) : Nat := if x < 0 then 0 else if x < dLocal d e then 1 else 2
/-- The region of an element of face k: its relations in the two other dimensions; 4 is the main region. -/
def regionOf (d : BitVec 1024) (k : Nat) (c : List Int) : Nat :=
  match (List.range 3).filter (· ≠ k / 2) with
  | [e, f] => relOf d e (c.getD e 0) * 3 + relOf d f (c.getD f 0)
  | _ => 4
/-- The regions that a face's buffer has. -/
def regionsOf (d : BitVec 1024) (k : Nat) : List Nat :=
  ((List.range (boxCount d k)).map fun i => regionOf d k (boxCoord d k i)).dedup
def tagKey (k b reg : Nat) : Nat := (k * 2 + b) * 9 + reg

/-- What a VA names under a binding. -/
inductive GhostAt where
  | outside
  /-- A buffer-1 range, padding, or a misplaced address (R237). -/
  | bad
  | at_ (k i : Nat)
def ghostAt (d : BitVec 1024) (va : Nat) : GhostAt :=
  if va < dGhost d ∨ dGhost d + ghostBytes d ≤ va then .outside
  else
    let o := va - dGhost d
    match (wideFaces d).find? fun k => decide (boxBase d k 0 ≤ o) && decide (o < boxBase d k 0 + 2 * boxPad d k) with
    | none => .bad
    | some k =>
      let i := o - boxBase d k 0
      if boxCount d k * dSize d ≤ i ∨ i % dSize d ≠ 0 then .bad else .at_ k (i / dSize d)

/-- What a tag finds in a segment (R33, R237, R283). -/
inductive TagRes where
  | fresh | stale | released
  deriving DecidableEq, Repr
def tagCheck (b : Binding) (k reg t : Nat) : TagRes :=
  let D := dDepth b.desc
  let buf := t / D % 2
  if b.steps ≠ 0 ∧ t / D < (b.steps - 1) / D then .released
  else
    let sg1 := smGet b.tags (tagKey k buf reg) 0
    if sg1 ≠ 0 ∧ t < sg1 - 1 + D ∧ sg1 - 1 ≤ t then .fresh else .stale
/-- Every region of a face is fresh for a tag (R282). -/
def faceFresh (b : Binding) (k t : Nat) : Bool := (regionsOf b.desc k).all fun r => tagCheck b k r t == .fresh

end Sys2Proof.Machine
end

