-- ==== Sys2Proof/Machine/RunMem.lean ====
section
/-! DEFINITION. What a lane's access computes (R227, R233-R236), and an executor's accesses at the frame with its write
set and releases (R291-R294). -/
namespace Sys2Proof.Machine

/-- The new value of a read-modify-write of w bytes from the old value and the operands (R233, R235); a compare that fails
gives none. -/
def atomNew (op : AOp) (w old lo hi : Nat) : Option Nat :=
  let n := 8 * w
  let v := lo % 2 ^ n
  let sg := fun x => (if 2 ^ (n - 1) ≤ x then (x : Int) - 2 ^ n else x)
  match op with
  | .add => some ((old + v) % 2 ^ n)
  | .fadd => some (fpAdd (if w = 8 then f64 else f32) 0 false false old v).1
  | .fadd2 =>
    some ((fpAdd f16 0 false false (old % 2 ^ 16) (v % 2 ^ 16)).1
      + 2 ^ 16 * (fpAdd f16 0 false false (old / 2 ^ 16) (v / 2 ^ 16)).1)
  | .minS => some (if sg old ≤ sg v then old else v)
  | .minU => some (min old v)
  | .maxS => some (if sg old ≤ sg v then v else old)
  | .maxU => some (max old v)
  | .and_ => some (old &&& v)
  | .or_ => some (old ||| v)
  | .xor_ => some (old ^^^ v)
  | .exch | .st => some v
  | .cas => if old = v then some (hi % 2 ^ n) else none
/-- What a lane's access does to the bytes (R227, R233). -/
def laneDo (m : MDesc) (q : LaneReq) : Do :=
  match m.dir with
  | .load => .load
  | .store => .store (toBytes m.size (q.lo.toNat + 2 ^ 64 * q.hi.toNat))
  | .atom => match m.form with
    | .atomic op _ _ _ _ => .rmw fun old => (atomNew op m.size (leNat old) q.lo.toNat q.hi.toNat).map (toBytes m.size)
    | _ => .load
/-- Whether an access returns a value to registers. -/
def MDesc.returns (m : MDesc) : Bool :=
  match m.dir with
  | .load => true
  | .store => false
  | .atom => match m.form with
    | .atomic _ nr _ _ _ => !nr
    | _ => false
/-- The register words of a loaded value (R227): a size below 4 is extended, 8 and 16 fill pairs and quads. -/
def loadWords (m : MDesc) (bs : List Byte) : List (Nat × B32) :=
  let v := leNat bs
  if m.size < 4 then [(m.d, if m.sext then (sext64 (8 * m.size) v).setWidth 32 else BitVec.ofNat 32 v)]
  else (List.range (m.size / 4)).map fun i => (m.d + i, BitVec.ofNat 32 (fld v (32 * i) 32))
/-- The scope of an access's ordering. -/
def MDesc.scope (m : MDesc) : Option Nat :=
  match m.form with
  | .ordered sc => some sc
  | .atomic _ _ _ _ sc => some sc
  | _ => none
/-- An acquire: LDA and returning atomics, and CAS (R229, R234). -/
def MDesc.acquires (m : MDesc) : Bool :=
  match m.form, m.dir with
  | .ordered _, .load => true
  | .atomic op nr _ sc _, .atom => !nr || op == .cas || sc
  | _, _ => false
/-- A release: STL and every atomic (R229, R234). -/
def MDesc.releases (m : MDesc) : Bool :=
  match m.form, m.dir with
  | .ordered _, .store => true
  | .atomic .., .atom => true
  | _, _ => false

/-! Executor runs. -/

/-- DEV scope or wider. -/
def devWide (scope : Nat) : Bool := decide (3 ≤ scope) && decide (scope ≤ 5)
/-- Record a written line (R294). -/
def WSet.add (w : WSet) (la : Nat) : WSet :=
  match w with
  | .lines ls =>
    if ls.contains la then w
    else if ls.length < 64 then .lines (ls ++ [la])
    else
      let ps := ((ls ++ [la]).map (· / 512)).dedup
      if ps.length ≤ 8 then .pages ps else .channel
  | .pages ps =>
    if ps.contains (la / 512) then w else if ps.length < 8 then .pages (ps ++ [la / 512]) else .channel
  | .channel => .channel
/-- A home line is covered by a write set. -/
def WSet.covers (w : WSet) (pf : Pf) (unit : Nat) (key : Nat) (l : L2Line) : Bool :=
  match w with
  | .lines ls => ls.contains (keyLine key)
  | .pages ps => ps.contains (keyLine key / 512)
  | .channel => match l.under with
    | .frame pa => unitOf pf pa == unit
    | .pool _ => false
/-- Back-invalidate what a write set covers, in the home slices of the dies given (R294), and say whether all of it is gone:
a line of which the host holds a half stays until the host has given that up (R351). -/
def backInv (s : State) (dies unit : Nat) (w : WSet) : State × Bool :=
  (smKeys (fun k l => dies.testBit (keyDie k) && w.covers s.pf unit k l) s.mem.l2).foldl (fun r k =>
    match evict r.1 k with
    | .ok s => (s, r.2)
    | .error s => (s, false)) (s, true)

/-- Translate a run's data access (R291): the cause of its fault, or where it goes. The map takes PERMISSION (R67). -/
def runReach (s : State) (x : Run) (va : Nat) (k : AccKind) : Except Nat (State × Spot) :=
  match translate x.win va (some k) with
  | .error c => .error c.num
  | .ok (ia, home) =>
    if isMap ia then .error Code.permission.num
    else
      match lookup s (unitHolder (x.unit.getD 0)) x.ten ia (some k) with
      | .error c => .error c.num
      | .ok (s, p) =>
        if 3 ≤ p.st ∨ some (unitOf s.pf p.at_) ≠ x.unit then .error 0x60
        else if lostDies s (pageDies s.pf p) then .error (Code.dieLost 0).num
        else .ok (touch s x.ctx (pageDies s.pf p), ⟨p, ia, home, 1⟩)
/-- Perform a run's access at the frame in its turn (R203, R292). -/
def runPerf (s : State) (r : Nat) (u : Option Nat) (x : Spot) (m : MDesc) (q : LaneReq) : Perf :=
  let far := match m.dir with
    | .atom => true
    | .load => match m.scope with | some sc => devWide sc | none => false
    | .store => false
  inTurn s (unitHolder (u.getD 0)) (x.ia / 128) (.run r) x.page fun s =>
    if far then farAccess s x.page x.ia x.home m.size (laneDo m q) else frameAccess s x.page x.ia m.size (laneDo m q)
/-- The access has been performed: write its results, record its line, and move on. -/
def runDone (s : State) (r : Nat) (m : MDesc) (ia : Nat) (f : Found) : State :=
  s.adjRun r fun x =>
    let x := if m.returns then (loadWords m f.data).foldl (fun x w => setRunReg x w.1 w.2) x else x
    let x := if m.dir == .load then x else { x with wset := x.wset.add (ia / 128) }
    { x.step with wait := .going, pend := none }
/-- The kind of a run's access. -/
def MDesc.xkind (m : MDesc) : AccKind := match m.dir with | .load => .xload | .store => .xstore | .atom => .xatomic
/-- A release at DEV scope or wider (R294). -/
def MDesc.relDev (m : MDesc) : Bool := m.releases && (match m.scope with | some sc => devWide sc | none => false)
/-- Perform an access of a run whose place is at hand: an acquiring load of a poisoned flag faults (R312), and a bank under
refresh stalls the context, which keeps the access to reissue it (R293). -/
def runTry (s : State) (r : Nat) (x : Run) (sp : Spot) (m : MDesc) (q : LaneReq) (word : B32) : State :=
  if m.acquires && m.dir == .load && smGet s.mem.flagMarks (sp.ia / 8) false then
    runFault s r Code.flagPoisoned.num x.pc word q.va
  else
    match runPerf s r x.unit sp m q with
    | .done s f =>
      match f.psn with
      | some i => if m.dir == .store then runDone s r m sp.ia f
        else runFault s r Code.dataPoison.num x.pc word (q.va + BitVec.ofNat 64 i)
      | none => runDone s r m sp.ia f
    | .wait s t => s.adjRun r fun x => { x with wait := .stall (max s.now t), pend := some (m, q) }
    | .cxl s .. => s
/-- An access of a run (R291-R294): its checks, then the frame; a release at DEV scope or wider first waits for its
back-invalidations. -/
def runAccess (r : Nat) (m : MDesc) (q : LaneReq) (x : Run) (word : B32) (s : State) : State :=
  if q.va.toNat % m.size ≠ 0 then runFault s r Code.misaligned.num x.pc word q.va
  else
    match runReach s x q.va.toNat m.xkind with
    | .error c => runFault s r c x.pc word q.va
    | .ok (s, sp) =>
      if m.relDev then s.adjRun r fun x => { x with wait := .release none, pend := some (m, q) }
      else runTry s r x sp m q word

end Sys2Proof.Machine
end

