-- ==== Sys2Proof/Machine/LaneMem.lean ====
section
/-! DEFINITION. Memory instructions of lanes: their checks and faults (R221-R226), performance, completion and replay,
and the words LD, ST, LDA, STL, LDS, STS, GLD, CCTL and the atomics (R227-R238). -/
namespace Sys2Proof.Machine

/-- Kinds under R63 (R222); CCTL asks for no permission. -/
def MDesc.kind (m : MDesc) : Option AccKind :=
  match m.form, m.dir with
  | .cctl _, _ => none
  | _, .load => some .load
  | _, .store => some .store
  | _, .atom => some .atomic
/-- ATOMSC. -/
def MDesc.isSc (m : MDesc) : Bool := match m.form with | .atomic _ _ _ sc _ => sc | _ => false
/-- SB class (R77): nothing is returned. -/
def MDesc.isSb (m : MDesc) : Bool := match m.form with | .cctl _ => true | _ => !m.returns
/-- An access that writes bytes: CCTL writes none (R232). -/
def MDesc.stores (m : MDesc) : Bool := m.dir == .store && (match m.form with | .cctl _ => false | _ => true)
/-- The release side of an access at a processor scope. -/
def orderBefore (s : State) (m : MDesc) : State :=
  match m.scope with
  | some sc => if m.releases then releaseAt s sc else s
  | none => s
/-- The release of an access waits for banks under refresh (R203). -/
def MDesc.held (m : MDesc) (s : State) : Bool := m.releases && m.scope.any (releaseBusy s)
/-- The acquire side of an access; a memory-side scope on an uncached page, or through the on-chip map, acts as DEV (R197,
R230). -/
def acquireAfter (s : State) (core : Nat) (m : MDesc) (unc : Bool) : State :=
  match m.scope with
  | some sc => if m.acquires then acquireAt s core (if unc && memSide sc then 3 else sc) else s
  | none => s
/-- The ordering of an access that has been performed, by its scope. -/
def orderAfter (s : State) (core : Nat) (m : MDesc) (unc : Bool) : State := acquireAfter (orderBefore s m) core m unc

/-! Steps 2 and 3 of R224. -/

/-- Where a lane's access goes once its address checks have passed. -/
inductive Aim where
  | scratch (wg a : Nat)
  | map (at_ : MapAt)
  | mem (ia home : Nat)
  /-- A ghost element: its face and region, and its place in the buffer that the tag chooses. -/
  | ghost (k reg ia home : Nat)
  | peer (peer addr : Nat)

/-- The ghost element that a GLD's address names, if any: face, region and the VA in the chosen buffer. -/
def ghostOf (s : State) (g : Gang) (m : MDesc) (va : Nat) : Option (Option (Nat × Nat × Nat)) :=
  match m.form, g.bind.bind (smFind s.binds ·) with
  | .grid tag, some b =>
    match ghostAt b.desc va with
    | .outside => none
    | .bad => some none
    | .at_ k i =>
      let buf := tag / dDepth b.desc % 2
      some (some (k, regionOf b.desc k (boxCoord b.desc k i), dGhost b.desc + boxBase b.desc k buf + i * dSize b.desc))
  | _, _ => none
/-- A GLD's binding and element size (R237, step 1 of R224). -/
def gldOk (s : State) (g : Gang) (m : MDesc) : Bool :=
  match m.form with
  | .grid _ => match g.bind.bind (smFind s.binds ·) with
    | some b => dSize b.desc == m.size
    | none => false
  | _ => true
/-- Step 2: alignment, and after it a GLD's ghost address. -/
def misalignedAt (m : MDesc) (q : LaneReq) : Option Code :=
  match m.form with
  | .cctl _ => none
  | _ => if q.va.toNat % m.size ≠ 0 then some .misaligned else none
def ghostBad (s : State) (g : Gang) (m : MDesc) (q : LaneReq) : Option Code :=
  match ghostOf s g m q.va.toNat with
  | some none => some .gridDescriptor
  | _ => none
/-- Step 3: windows, scratchpad bounds, the on-chip map, and a remote instruction's checks. -/
def aimLane (s : State) (g : Gang) (m : MDesc) (q : LaneReq) : Except (Code × Bool) Aim :=
  match m.space with
  | .scratch =>
    if g.scratchN < q.va.toNat + m.size then .error (.permission, false) else .ok (.scratch (g.wg.getD 0) q.va.toNat)
  | .remote =>
    match peerCheck s g.ctx m.stream (m.dir != .load) (BitVec.ofNat 64 q.peer) q.va with
    | some e => .error e
    | none => .ok (.peer q.peer q.va.toNat)
  | .global =>
    let gh := (ghostOf s g m q.va.toNat).bind id
    let va := match gh with | some x => x.2.2 | none => q.va.toNat
    match translate (s.winOf g.ctx) va m.kind with
    | .error c => .error (c, false)
    | .ok (ia, home) =>
      if isMap ia then
        match m.form with
        | .cctl _ => .ok (.mem ia home)
        | _ =>
          if m.dir == .atom then .error (.permission, false)
          else if m.size ≠ 4 ∧ m.size ≠ 8 then .error (.misaligned, false)
          else match mapAt s (clusterOf s g.wg) ia m.size with
            | some a => .ok (.map a)
            | none => .error (.permission, false)
      else match gh with
        | some (k, reg, _) => .ok (.ghost k reg ia home)
        | none => .ok (.mem ia home)
/-- The fault of the lowest lane and the lanes that share its code; DIE_LOST is one code, whatever the socket. -/
def firstFault (l : List (LaneReq × Code)) : Option (Code × Lanes × B64) :=
  match l with
  | [] => none
  | (q, c) :: rest =>
    let low := rest.foldl (fun (m : LaneReq × Code) x => if x.1.lane < m.1.lane then x else m) (q, c)
    some (low.2, ofBits 32 ((l.filter fun x => x.2.num == low.2.num).map fun x => x.1.lane), low.1.va)
/-- Steps 2 and 3 over the participating lanes: a terminating fault, or one that parks every lane (a refused pair). -/
def steps23 (s : State) (g : Gang) (m : MDesc) (qs : List LaneReq) : Option (Code × Lanes × B64 × Bool) :=
  -- a remote instruction's record names the peer beside the address (R345)
  let named := fun (q : LaneReq) => if m.space == .remote then { q with va := remAddr q.peer q.va.toNat } else q
  match (firstFault (qs.filterMap fun q => (misalignedAt m q).map (named q, ·))).or
      (firstFault (qs.filterMap fun q => (ghostBad s g m q).map (q, ·))) with
  | some (c, mask, a) => some (c, mask, a, false)
  | none =>
    let es := qs.filterMap fun q => match aimLane s g m q with | .error e => some (named q, e) | .ok _ => none
    match firstFault ((es.filter fun e => !e.2.2).map fun e => (e.1, e.2.1)) with
    | some (c, mask, a) => some (c, mask, a, false)
    | none => (firstFault (es.map fun e => (e.1, e.2.1))).map fun x => (x.1, x.2.1, x.2.2, true)

/-! Step 4: one lane. -/

/-- What became of a lane. -/
inductive LaneRes where
  | done (s : State) (f : Found)
  | bad (s : State) (b : Bad)
  /-- To be tried again: refresh, migration, a host bit, a pool half, a busy map target, a stale ghost. -/
  | todo (s : State)
  /-- A response is awaited. -/
  | sent (s : State)

/-- Poison and completion of a performed lane: a load or atomic of poisoned data takes DATA_POISON (R378). -/
def laneEnd (m : MDesc) (q : LaneReq) (s : State) (f : Found) : LaneRes :=
  match f.psn with
  | some i => if m.dir == .store then .done s f else .bad s ⟨q, .dataPoison, q.va + BitVec.ofNat 64 i, false⟩
  | none => .done s f
/-- A CCTL with an address (R232). -/
def cctlLane (s : State) (core op ia home : Nat) : State :=
  let k1 := lineKey core (ia / 128)
  if isMap ia then s
  else match op with
    | 0 => refit (s.setMem (cleanL1 s.mem k1))
    | 1 => refit (s.setMem { cleanL1 s.mem k1 with l1 := smDel (cleanL1 s.mem k1).l1 k1 })
    | _ => s.setMem { s.mem with l2 := smAdj s.mem.l2 (homeKey ia home) fun l => { l with prio := 1 } }
/-- A request's own name among those that wait. -/
def LaneReq.who (q : LaneReq) (k : Nat) : Who := .lane k q.lane (q.va.toNat % 64)
/-- A line is at its home slice whole: of a pool line both halves. -/
def lineHeld (s : State) (key : Nat) (p : Page) : Bool :=
  (smFind s.mem.l2 key).any fun l => p.st != 4 || (l.h0 != .i && l.h1 != .i)
/-- A prefetch (R232): it fills the line into its home slice if it is absent, as soon as nothing holds it back; a fault ends
it. -/
def prefetch (s : State) (g : Gang) (q : LaneReq) (k ia home : Nat) : LaneRes :=
  let key := homeKey ia home
  match (if isMap ia then none else (lookup s (keyUnit key) g.ten ia none).toOption) with
  | none => .done s ⟨[], none⟩
  | some (s, p) =>
    if p.cls = 2 ∨ p.st = 3 ∨ lostDies s (pageDies s.pf p) ∨ lineHeld s key p then .done s ⟨[], none⟩
    else
      let base := ia / 128 * 128
      let p := { p with at_ := p.at_ / 128 * 128 }
      match inTurn (touch s g.ctx (pageDies s.pf p)) (keyUnit key) (ia / 128) (q.who k) p
          fun s => cached s none true p base home 128 1 .load with
      | .done s _ => .done s ⟨[], none⟩
      | .wait s _ => .todo s
      | .cxl s j excl _ => .todo (askCxl s g.ctx p base home j excl false none none none)
/-- A lane's access to local memory, its page at hand, by class, scope and form (R197, R198, R229, R230, R234). -/
def localLane (s : State) (g : Gang) (m : MDesc) (q : LaneReq) (p : Page) (ia home : Nat) : Perf :=
  let d := laneDo m q
  let side := match m.scope with | some sc => if memSide sc && p.cls != 2 then some sc else none | none => none
  let dies := winDies (s.winOf g.ctx)
  match side with
  | some sc =>
    let part := some (sc, p.at_)
    if m.releases && partBusy s dies part then .wait s (hintEnd s p.at_) else
    let s := if m.releases then releasePart s (some g.core) dies part else s
    let s := if m.acquires then acquirePart s g.core part else s
    match m.dir with
    | .load => frameAccess s p ia m.size d
    | .store => frameAccess (pushLine s g.core ia home) p ia m.size d
    | .atom => farAccess s p ia home m.size d
  | none =>
    if p.st = 4 ∧ m.dir = .atom then homeAtomic s (some g.core) p ia home m.size d
    else if p.cls = 2 then uncached s p ia m.size d
    else
      match m.form with
      | .atomic _ _ far sc _ =>
        if sc then cached s (some g.core) true p ia home m.size 1 d
        else if far || p.cls == 1 then farAccess s p ia home m.size d
        else cached s (some g.core) false p ia home m.size 1 d
      | .grid _ => cached s (some g.core) false p ia home m.size 1 d
      | _ => cached s (some g.core) false p ia home m.size m.hint d
/-- A lane's uncached access to the pool (R352): sent, unless a write of the half is in progress and this is one too. -/
def poolLane (s : State) (g : Gang) (m : MDesc) (q : LaneReq) (k : Nat) (p : Page) (ia home j : Nat) (excl : Bool) : LaneRes :=
  let w := match laneDo m q with | .store bs => some (ia % 64, bs) | _ => none
  if m.dir != .load && cxlLocked s (ia / 64) then .todo s
  else .sent (askCxl s g.ctx p ia home j excl true (some k) (some q) w)
/-- A remote access has to wait: its pair stands at its bound (R336), or its release for banks under refresh (R203). -/
def remoteHeld (s : State) (g : Gang) (m : MDesc) (peer : Nat) : Bool :=
  (m.dir != .load && pairFull s g.ctx m.stream peer) || m.held s
/-- A lane's access to a peer (R209, R341): what it releases is released before it is sent. -/
def remoteLane (s : State) (g : Gang) (m : MDesc) (q : LaneReq) (k : Nat) (peer addr : Nat) : LaneRes :=
  if remoteHeld s g m peer then .todo s
  else
    let r := sendLane (orderBefore s m) g.ctx m.stream peer addr m k q
    if r.2 then .sent r.1 else .done r.1 ⟨[], none⟩
/-- A lane's access to translated memory (step 4 of R224). -/
def memLane (s : State) (g : Gang) (m : MDesc) (q : LaneReq) (k : Nat) (ia home : Nat) (ghost : Bool) : LaneRes :=
  match m.form with
  | .cctl op => if op = 4 then prefetch s g q k ia home else .done (cctlLane s g.core op ia home) ⟨[], none⟩
  | _ =>
    let key := homeKey ia home
    match lookup s (keyUnit key) g.ten ia m.kind with
    | .error c => .bad s ⟨q, c, q.va, parksAs c⟩
    | .ok (s, p) =>
      let side := match m.scope with | some sc => memSide sc | none => false
      let bits := pageDies s.pf p ||| (if m.isSc then 0x100000 else 0)
      if side && decide (3 ≤ p.st) then .bad s ⟨q, .permission, q.va, false⟩
      else if p.st = 3 && m.isSc then .bad s ⟨q, .illegalInstr, q.va, false⟩
      else if lostDies s bits then .bad s ⟨q, .dieLost (lostSock s bits), q.va, false⟩
      else
        let s := touch s g.ctx bits
        if p.st = 3 then
          let addr := p.exp * 2 ^ 40 + p.at_
          match peerCheck s g.ctx m.stream (m.dir != .load) (BitVec.ofNat 64 p.peer) (BitVec.ofNat 64 addr) with
          | some (c, pk) => .bad s ⟨q, c, remAddr p.peer addr, pk⟩
          | none =>
            -- a request that a migration's queue holds goes in its turn (R216, R219)
            if !mayIssue s (keyUnit key) (ia / 128) (q.who k) || remoteHeld s g m p.peer then
              .todo (toWait s (keyUnit key) (ia / 128) (q.who k) 0 p)
            else remoteLane (served s (keyUnit key) (ia / 128) (q.who k)) g m q k p.peer addr
        else if m.acquires && m.dir == .load && smGet s.mem.flagMarks (ia / 8) false then .bad s ⟨q, .flagPoisoned, q.va, true⟩
        else
          match inTurn s (keyUnit key) (ia / 128) (q.who k) p fun s =>
            if m.held s then .wait s 0
            else if !ghost then localLane s g m q p ia home
            else if p.cls = 2 then uncached s p ia m.size .load
            else cached s none true p ia home m.size 1 .load with
          | .done s f =>
            let s := if m.dir != .load && p.st == 4 then noteWriter s g.ctx ia m.size else s
            -- a ticket is taken by a lane that is performed without a fault (R236)
            let s := if m.isSc && f.psn.isNone then { s with beacon := s.beacon + 1 } else s
            laneEnd m q (orderAfter s g.core m (p.cls == 2)) f
          | .wait s _ => .todo s
          | .cxl s j excl direct =>
            if direct then poolLane (orderBefore s m) g m q k p ia home j excl
            else .todo (askCxl s g.ctx p ia home j excl false none none none)
/-- Perform one lane (step 4). -/
def performLane (s : State) (g : Gang) (m : MDesc) (k : Nat) (q : LaneReq) : LaneRes :=
  if !gldOk s g m then .bad s ⟨q, .gridDescriptor, q.va, false⟩
  else match aimLane s g m q with
  | .error (c, pk) => .bad s ⟨q, c, q.va, pk⟩
  | .ok (.scratch wg a) =>
    let f := readScratch s wg a m.size
    match laneDo m q with
    | .store bs => .done (writeScratch s wg a bs) f
    | _ => laneEnd m q s f
  | .ok (.map a) =>
    if mapBusy s a || m.held s then .todo s
    else
      let f := mapRead s a m.size
      match laneDo m q with
      | .store bs => .done (orderAfter (mapWrite s a bs) g.core m true) f
      | _ => laneEnd m q (orderAfter s g.core m true) f
  | .ok (.mem ia home) => memLane s g m q k ia home false
  | .ok (.ghost kf reg ia home) =>
    match m.form, g.bind.bind (smFind s.binds ·) with
    | .grid tag, some b =>
      match tagCheck b kf reg tag with
      | .fresh => memLane s g m q k ia home true
      | .released => .bad s ⟨q, .staleHalo, q.va, true⟩
      | .stale => if dFault b.desc then .bad s ⟨q, .staleHalo, q.va, true⟩ else .todo s
    | _, _ => .bad s ⟨q, .gridDescriptor, q.va, false⟩
  | .ok (.peer p a) =>
    if lostDies s 0x300000 then .bad s ⟨q, .dieLost (lostSock s 0x300000), remAddr p a, false⟩
    else remoteLane s g m q k p a

/-! Operations. -/

/-- A matrix instruction. -/
def OpKind.isMat : OpKind → Bool
  | .mat _ _ => true
  | _ => false
/-- Matrix instructions in flight of a gang, oldest first. -/
def gangMats (s : State) (gid : Nat) : List Nat := smKeys (fun _ o => o.gid == gid && o.kind.isMat) s.ops
/-- An MLDT's rows enter the tile as they arrive whole (R266), once the gang's earlier matrix instructions are done with it
(R260). -/
def landRows (s : State) (k : Nat) : State :=
  match smFind s.ops k with
  | none => s
  | some o => match o.kind with
    | .mat (.mldt t) _ =>
      if (gangMats s o.gid).head? = some k then
        let whole := fun r => (o.latch.filter fun p => p.1 / 64 == r).length == 64
        let rows := (List.range 32).filter whole
        s.adjGang o.gid fun g => putTile g t (o.latch.filter fun p => rows.contains (p.1 / 64))
      else s
    | _ => s
/-- The eight-byte accesses of a matrix instruction's global rows (R264, R266). -/
def rowDesc (o : MatOp) (stream : Nat) : MDesc :=
  ⟨.plain, match o with | .mstt _ => .store | _ => .load, .global, 8, false, 0, 1, stream, false⟩
/-- Record a performed lane's results in its operation; a row's word goes to the operand latch. -/
def opResult (m : MDesc) (q : LaneReq) (bs : List Byte) (o : Op) : Op :=
  if !m.returns then o
  else if o.kind.isMat then
    { o with latch := bs.zipIdx.foldl (fun l b => smPut l (q.lane * 64 + q.va.toNat % 64 + b.2) b.1) o.latch }
  else if m.uniform then
    let v := leNat bs
    { o with gout := [(m.d, if m.sext then sext64 (8 * m.size) v else BitVec.ofNat 64 v)] }
  else { o with out := (loadWords m bs).foldl (fun out w => smPut out (w.1 * 32 + q.lane) w.2) o.out }
/-- Some stores of an instruction have together written all of [va, va + n). -/
def wroteAll (m : MDesc) (did : List LaneReq) (va n : Nat) : Bool :=
  (List.range n).all fun i => did.any fun q => decide (q.va.toNat ≤ va + i) && decide (va + i < q.va.toNat + m.size)
/-- A granule that the stores of an instruction have together written whole loses its mark (R378): 16 bytes of scratchpad, of
the core's copy and the home line, or 32 bytes of the frame where the stores went there. -/
def coverMarks (s : State) (g : Gang) (m : MDesc) (did : List LaneReq) (q : LaneReq) : State :=
  let whole := fun (at_ n : Nat) => wroteAll m did (q.va.toNat - at_ % n) n
  match aimLane s g m q with
  | .ok (.scratch wg a) | .ok (.map (.scratch wg a)) =>
    if smGet s.mem.poison (scratchMark wg a) false && whole a 16 then
      s.setMem { s.mem with poison := smDel s.mem.poison (scratchMark wg a) }
    else s
  | .ok (.mem ia home) =>
    let key := homeKey ia home
    match lookup s (keyUnit key) g.ten ia m.kind with
    | .error _ => s
    | .ok (_, p) =>
      if p.cls = 2 || (m.scope.any memSide) then
        if smGet s.mem.poison (p.at_ / 32) false && decide (p.st < 3) && whole p.at_ 32 then
          s.setMem { s.mem with poison := smDel s.mem.poison (p.at_ / 32) }
        else s
      else
        let i := ia % 128 / 16
        let k1 := lineKey g.core (ia / 128)
        let clear := fun (b : BitVec 8) => ofBits 8 ((List.range 8).filter fun j => b.getLsbD j && j != i)
        if ((smFind s.mem.l1 k1).any (·.poison.getLsbD i) || (smFind s.mem.l2 key).any (·.poison.getLsbD i)) && whole ia 16 then
          s.setMem { s.mem with
            l1 := smAdj s.mem.l1 k1 fun x => { x with poison := clear x.poison }
            l2 := smAdj s.mem.l2 key fun l => { l with poison := clear l.poison } }
        else s
  | _ => s
/-- A lane has to wait behind others of its operation: a write behind the lanes before it that still wait (R223), a lane of
ATOMSC also behind one whose response is out, since tickets are taken in ascending order (R236). -/
def behindOthers (m : MDesc) (o : Op) (q : LaneReq) : Bool :=
  m.dir != .load && m.space != .remote && (o.todo.head?.any (· != q) || (m.isSc && !o.resp.isEmpty))
/-- Perform a lane of operation k, or queue it behind others. A lane that goes on waiting keeps its place. -/
def doLane (m : MDesc) (k : Nat) (s : State) (q : LaneReq) : State :=
  match smFind s.ops k with
  | none => s
  | some o =>
    let wait := fun (s : State) => s.adjOp k fun o => if o.todo.contains q then o else { o with todo := o.todo ++ [q] }
    let out := fun (s : State) (f : Op → Op) => s.adjOp k fun o => f { o with todo := o.todo.erase q }
    if behindOthers m o q then wait s
    else
      match smFind s.gangs o.gid with
      | none => s
      | some g =>
        match performLane s g m k q with
        | .done s f =>
          let did := if m.stores then o.did ++ [q] else o.did
          out (if m.stores then coverMarks s g m did q else s) fun o => opResult m q f.data { o with did := did }
        | .bad s b => out s fun o => { o with bad := o.bad ++ [b] }
        | .todo s => wait s
        | .sent s => out s fun o => { o with resp := o.resp ++ [q] }
/-- The terminating faults that lanes would meet at step 4 now, and the state that meeting them leaves (R55). -/
def dryBads (s : State) (g : Gang) (m : MDesc) (k : Nat) (qs : List LaneReq) : State × List Bad :=
  qs.foldl (fun r q => match performLane r.1 g m k q with
    | .bad s b => if b.parks then r else (s, r.2 ++ [b])
    | _ => r) (s, [])
/-- Start lanes of an operation (step 4 of R224). After a terminating fault a free choice says which of the other lanes
are performed. -/
def startLanes (m : MDesc) (k : Nat) (g : Gang) (qs : List LaneReq) (s : State) : State :=
  let r := dryBads s g m k qs
  if r.2.isEmpty then landRows (qs.foldl (doLane m k) s) k
  else
    let s := r.1
    let rest := qs.filter fun q => !(r.2.any fun b => b.lane.lane == q.lane) && Config.freeBit (s.free + q.lane)
    let s := rest.foldl (doLane m k) { s with free := s.free + 32 }
    s.adjOp k fun o => { o with bad := o.bad ++ r.2 }
/-- Remote lanes in peer groups (R342): the lowest peer's group is checked and issued once the group before it has had its
responses. A group's precise fault ends the instruction; when it parks, the lanes of the higher groups are unfinished too. -/
def remoteStep (m : MDesc) (k : Nat) : Nat → State → State
  | 0, s => s
  | n + 1, s =>
    match smFind s.ops k with
    | none => s
    | some o =>
      if !o.resp.isEmpty then s
      else if !o.bad.isEmpty then
        match firstFault (o.bad.map fun b => (⟨b.lane.lane, b.addr, 0, 0, 0⟩, b.code)) with
        | some (c, _, a) =>
          let rest := if o.bad.all (·.parks) then o.todo.map fun q => ⟨q, c, a, true⟩ else []
          s.setOp k { o with bad := o.bad ++ rest, todo := [] }
        | none => s
      else
        match o.todo with
        | [] => s
        | q0 :: qs =>
          let p := qs.foldl (fun p q => min p (q.peer % 512)) (q0.peer % 512)
          let grp := o.todo.filter (·.peer % 512 == p)
          let rest := o.todo.filter (·.peer % 512 != p)
          match smFind s.gangs o.gid with
          | none => s
          | some g =>
            let wc := match smFind s.fab.send (pairKey g.ctx m.stream p) with | some e => e.wc.toNat | none => 0
            match steps23 s g m grp with
            -- a gang that has ended takes no fault more (R362)
            | some (c, mask, a, false) =>
              if g.ending.isSome then closeOp s k else terminate (closeOp s k) o.gid c o.pc o.word mask a
            | some (c, _, a, true) => s.setOp k { o with bad := o.todo.map fun q => ⟨q, c, a, true⟩, todo := [] }
            | none =>
              if m.dir != .load && decide (2 ^ 30 < wc + grp.length) then s
              else remoteStep m k n (grp.foldl (doLane m k) (s.setOp k { o with todo := rest }))
/-- Try an operation's waiting lanes again, in their order. -/
def redoLanes (m : MDesc) (k : Nat) (s : State) : State :=
  match smFind s.ops k with
  | none => s
  | some o => o.todo.foldl (doLane m k) s
/-- A response for a lane (R341, R345): its data, or a fault with its address and whether it parks. -/
def answerLane (s : State) (k : Nat) (q : LaneReq) (r : Except (Code × Bool × B64) (List Byte)) : State :=
  match smFind s.ops k with
  | none => s
  | some o =>
    let m := match o.kind with
      | .mem m => m
      | .mat mo st => rowDesc mo st
      | _ => ⟨.plain, .load, .global, 8, false, 0, 1, 0, false⟩
    let s := s.setOp k { o with resp := o.resp.erase q }
    let core := match smFind s.gangs o.gid with | some g => g.core | none => 0
    let s := match r with
      | .ok bs =>
        let s := s.adjOp k (opResult m q (bs.take m.size))
        acquireAfter (if m.isSc then { s with beacon := s.beacon + 1 } else s) core m true
      | .error (c, pk, a) => s.adjOp k fun o => { o with bad := o.bad ++ [⟨q, c, a, pk⟩] }
    if m.space == .remote then remoteStep m k 33 s else landRows (if m.isSc then redoLanes m k s else s) k
/-- Something of the operation is unfinished: the fragment waits for it. -/
def Op.open_ (o : Op) : Bool := !o.todo.isEmpty || !o.resp.isEmpty || !o.bad.isEmpty
/-- The fragment of operation k waits for it while something of it is unfinished. -/
def holdFor (k : Nat) (s : State) : State :=
  match smFind s.ops k with
  | none => s
  | some o => if o.open_ then s.adjFrag o.gid o.entry fun f => { f with st := .blocked, wait := .op k } else s
/-- The time at which a GLD's stall ends, in stall mode (R238). -/
def stallEnd (s : State) (g : Gang) (m : MDesc) : Nat :=
  match m.form, g.bind.bind (smFind s.binds ·) with
  | .grid _, some b => if dFault b.desc then 0 else s.now + 1000 * dTmo b.desc
  | _, _ => 0
/-- A lane of a GLD is stale in stall mode (R238). -/
def staleLane (s : State) (g : Gang) (m : MDesc) (q : LaneReq) : Bool :=
  match m.form, g.bind.bind (smFind s.binds ·), aimLane s g m q with
  | .grid tag, some b, .ok (.ghost kf reg _ _) => !dFault b.desc && tagCheck b kf reg tag == .stale
  | _, _, _ => false
/-- The peer that a lane's counted write goes to, by a remote word or a remote page; none where the lane meets a fault. -/
def countedPeer (s : State) (g : Gang) (m : MDesc) (q : LaneReq) : Option Nat :=
  if lostDies s 0x300000 then none
  else match aimLane s g m q with
  | .ok (.peer p _) => some (p % 512)
  | .ok (.mem ia home) => match lookup s (keyUnit (homeKey ia home)) g.ten ia m.kind with
    | .ok (s, p) =>
      let addr := BitVec.ofNat 64 (p.exp * 2 ^ 40 + p.at_)
      if p.st = 3 ∧ !m.isSc ∧ !m.scope.any memSide ∧ (peerCheck s g.ctx m.stream true (BitVec.ofNat 64 p.peer) addr).isNone then
        some p.peer
      else none
    | .error _ => none
  | _ => none
/-- The lanes that a word lets go: those of a word that passes steps 2 and 3; of a remote word those of the peer groups up to
the first that does not (R224, R342). -/
def goingLanes (s : State) (g : Gang) (m : MDesc) (qs : List LaneReq) : List LaneReq :=
  if m.space == .remote then
    qs.filter fun q => (steps23 s g m (qs.filter fun x => decide (x.peer % 512 ≤ q.peer % 512))).isNone
  else if (steps23 s g m qs).isNone then qs else []
/-- The word would raise a pair's write count above 2^30: its fragment is not ready (R336). -/
def pastBound (s : State) (g : Gang) (m : MDesc) (qs : List LaneReq) : Bool :=
  if (m.dir != .atom && !m.stores) || s.fab.send.isEmpty then false
  else
    let ps := (goingLanes s g m qs).filterMap (countedPeer s g m)
    ps.any fun p => match smFind s.fab.send (pairKey g.ctx m.stream p) with
      | some e => decide (2 ^ 30 < e.wc.toNat + ps.count p)
      | none => false
/-- Issue a memory instruction over its participating lanes (R224). With none it is counted and completed at once (R78). -/
def memFrag (m : MDesc) (qs : List LaneReq) (u : Iss) (s : State) : State :=
  if u.full m.isSb || pastBound s u.g m qs then s
  else if qs.isEmpty then u.adv s
  else if m.space == .remote then
    let r := openOp s { u.op m.isSb (.mem m) with todo := qs }
    holdFor r.2 (remoteStep m r.2 33 (u.adv r.1))
  else
    match steps23 s u.g m qs with
    -- only a remote lane's pair can be refused, and no other fault of step 3 parks (R224, R341)
    | some (c, mask, a, _) => u.term c s (if m.uniform then 0 else mask) a
    | none =>
      let r := openOp s { u.op m.isSb (.mem m) with deadline := stallEnd s u.g m }
      holdFor r.2 (u.adv (startLanes m r.2 u.g qs r.1))
/-- Try an operation again. -/
def redoOp (s : State) (k : Nat) : State :=
  match smFind s.ops k with
  | none => s
  | some o =>
    match o.kind with
    | .mem m => if m.space == .remote then remoteStep m k 33 s
      else redoLanes m k s
    | .mat mo st => landRows (redoLanes (rowDesc mo st) k s) k
    | _ => s
/-- Try the waiting lanes of every operation, oldest first. -/
def redoAll (s : State) : State := (smKeys (fun _ o => !o.todo.isEmpty) s.ops).foldl redoOp s

/-- Take an operation's faults once nothing of it is outstanding (R224, R225): terminated, or parked. -/
def takeFaults (s : State) (k : Nat) (o : Op) (uniform : Bool) : State :=
  match firstFault ((o.bad.filter fun b => !b.parks).map fun b => (⟨b.lane.lane, b.addr, 0, 0, 0⟩, b.code)) with
  | some (c, mask, a) => terminate (closeOp s k) o.gid c o.pc o.word (if uniform then 0 else mask) a
  | none =>
    match firstFault (o.bad.map fun b => (⟨b.lane.lane, b.addr, 0, 0, 0⟩, b.code)) with
    | none => s
    | some (c, _, a) =>
      let mask := if uniform then 0 else ofBits 32 (o.bad.map fun b => b.lane.lane)
      let a := if o.kind.isMat then a &&& ~~~63#64 else a
      park (s.setOp k { o with parked := true }) o.gid o.entry c (.op k) o.pc o.word mask a
/-- The fragment that waits for operation k goes on. -/
def releaseFrag (s : State) (gid e k : Nat) : State :=
  s.adjFrag gid e fun f => if f.wait = .op k then { f with st := .ready, wait := .none } else f
/-- The operation completes: results are written, its count falls, and its fragment goes on (R77, R78). -/
def completeOp (s : State) (k : Nat) (o : Op) : State :=
  let s := s.adjGang o.gid fun g => o.gout.foldl (fun g p => setGReg g p.1 p.2) (applyOut g o.out)
  releaseFrag (closeOp s k) o.gid o.entry k
/-- A result of an outstanding operation reaches its register early (R80): key register * 32 + lane names a lane register,
2048 + n group register n. The completion does not write it again. -/
def landResult (op key : Nat) (s : State) : State :=
  match smFind s.ops op with
  | none => s
  | some o =>
    if o.trap ≠ 0 then s
    else match smFind o.out key, o.gout.find? (fun p => p.1 + 2048 == key) with
      | some x, _ => (s.adjOp op fun o => { o with out := smDel o.out key }).adjGang o.gid (applyOut · [(key, x)])
      | none, some p =>
        (s.adjOp op fun o => { o with gout := o.gout.filter (·.1 != p.1) }).adjGang o.gid (setGReg · p.1 p.2)
      | none, none => s
/-- Steps 2 and 3 of R224 for the rows of a matrix instruction, bases and strides being multiples of 64: windows and the
on-chip map, which takes PERMISSION (R264-R266). -/
def rowFault (s : State) (g : Gang) (store : Bool) (qs : List LaneReq) : Option (Code × Lanes × B64) :=
  firstFault (qs.filterMap fun q =>
    let q := { q with va := q.va &&& ~~~63#64 }
    match translate (s.winOf g.ctx) q.va.toNat (some (if store then .store else .load)) with
    | .error c => some (q, c)
    | .ok (ia, _) => if isMap ia then some (q, .permission) else none)
/-- Replay a parked operation's unfinished lanes with the values read at first issue (R225). -/
def replayOp (s : State) (k : Nat) : State :=
  match smFind s.ops k with
  | none => s
  | some o =>
    match o.kind, smFind s.gangs o.gid with
    | .mem m, some g =>
      let qs := o.bad.map (·.lane)
      if m.space == .remote then
        let s := s.setOp k { o with bad := [], todo := qs, parked := false }
        remoteStep m k 33 (s.adjFrag o.gid o.entry fun f => { f with st := .blocked, wait := .op k })
      else if !gldOk s g m then
        match firstFault (qs.map (·, Code.gridDescriptor)) with
        | some (c, mask, a) => terminate s o.gid c o.pc o.word mask a
        | none => s
      else match steps23 s g m qs with
      | some (c, mask, a, false) => terminate s o.gid c o.pc o.word (if m.uniform then 0 else mask) a
      | some (_, _, _, true) => holdFor k (s.setOp k { o with parked := false })
      | none =>
        let s := s.setOp k { o with bad := [], parked := false, deadline := stallEnd s g m }
        let s := s.adjFrag o.gid o.entry fun f => { f with st := .blocked, wait := .op k }
        startLanes m k g qs s
    | .mat mo st, some g =>
      let m := rowDesc mo st
      -- a row is unfinished while a word of it is: its words are fetched or stored again
      let qs := o.bad.map (·.lane)
      match rowFault s g (m.dir == .store) qs with
      | some (c, mask, a) => terminate s o.gid c o.pc o.word mask a
      | none =>
        let s := s.setOp k { o with bad := [], parked := false }
        let s := s.adjFrag o.gid o.entry fun f => { f with st := .blocked, wait := .op k }
        startLanes m k g qs s
    | _, _ => s

/-- MEMORY_ACCESS_COMPLETE (R225): nothing of the operation is outstanding. Faults are taken, or the operation completes.
A gang that has ended takes no fault more. -/
def execMemoryAccessComplete (op : Nat) (s : State) : Res :=
  .next (
    match smFind s.ops op with
    | none => s
    | some o =>
      let ended := match smFind s.gangs o.gid with | some g => g.ending.isSome | none => true
      if o.parked || !o.todo.isEmpty || !o.resp.isEmpty then s
      else match o.kind with
        | .mem m =>
          if o.bad.isEmpty then completeOp s op o
          else if ended then closeOp s op
          else
            let s := s.adjGang o.gid fun g => o.gout.foldl (fun g p => setGReg g p.1 p.2) (applyOut g o.out)
            takeFaults s op { o with out := [], gout := [] } m.uniform
        | .launch => completeOp s op o
        | .mat _ _ => if o.bad.isEmpty then s else if ended then closeOp s op else takeFaults s op o false
        | .fdiv => s)
/-- REFRESH_RETRY_REISSUE (R203): the operation's waiting lanes are reissued. -/
def execRefreshRetryReissue (op : Nat) (s : State) : Res := .next (redoOp s op)
/-- BANK_REFRESH (R203): a bank is under refresh for a time of at most 350 ns; one that is under refresh begins no other. -/
def execBankRefresh (bank dur : Nat) (s : State) : Res :=
  .next (if dur ≤ 350 ∧ smGet s.mem.refresh bank 0 ≤ s.now then s.setMem { s.mem with refresh := smPut s.mem.refresh bank (s.now + dur) } else s)
/-- GLD_STALL_TIMEOUT (R238): lanes still stale after TMO take STALE_HALO. -/
def execGldStallTimeout (gid e : Nat) (s : State) : Res :=
  .next (
    match smFind s.gangs gid with
    | none => s
    | some g =>
      match (smFind g.frags e).map (·.wait) with
      | some (Wait.op k) =>
        let s1 := redoOp s k
        match smFind s1.ops k with
        | some o => match o.kind with
          | .mem m =>
            let late := o.todo.filter (staleLane s1 g m)
            if o.deadline ≤ s.now && !late.isEmpty then
              s1.setOp k { o with todo := o.todo.filter fun q => !(staleLane s1 g m q)
                                  bad := o.bad ++ late.map fun q => ⟨q, .staleHalo, q.va, true⟩ }
            else s
          | _ => s
        | none => s
      | _ => s)

/-! The words. -/

/-- A lane's request from its registers. -/
def mkReq (m : MDesc) (rd : Nat → B32) (lane : Nat) (va : B64) (peer : Nat) : LaneReq :=
  let pr := fun n => rd (n + 1) ++ rd n
  let isCas := match m.form with | .atomic .cas _ _ _ _ => true | _ => false
  let lo : B64 := if m.size ≤ 4 then (rd m.d).setWidth 64 else pr m.d
  let hi : B64 :=
    if isCas then (if m.size = 4 then (rd (m.d + 1)).setWidth 64 else pr (m.d + 2)) else if m.size = 16 then pr (m.d + 2) else 0
  ⟨lane, va, lo, hi, peer⟩
/-- The VA of a plain form: vA:vA+1 plus the scaled offset (R221). -/
def plainVa (rd : Nat → B32) (a c : BitVec 6) (size : Nat) : B64 :=
  (rd (a.toNat + 1) ++ rd a.toNat) + c.signExtend 64 * BitVec.ofNat 64 size
/-- A memory word over global memory; executors may issue it when `subset` holds. -/
def memWord (i : Instr) (gd : Guard) (m : MDesc) (a c : BitVec 6) (subset : Bool) (s : State) : Res :=
  issue i s
    (fun u s =>
      let m := { m with hint := match m.form with | .plain => u.g.hint.toNat | _ => 1
                        stream := u.g.stream.toNat }
      let qs := (bitList (partLanes u.g u.f gd)).map fun l =>
        mkReq m (laneReg u.g l) l (plainVa (laneReg u.g l) a c m.size) 0
      memFrag m qs u s)
    (if subset then some fun r x s =>
      if guardByte (runPred x) gd then
        runAccess r m (mkReq m (runReg x) 0 (plainVa (runReg x) a c m.size) 0) x (BitVec.ofNat 32 (encode i)) s
      else s.adjRun r fun _ => x.step
    else none)
/-- A plain load or store description. -/
def plainDesc (dir : MDir) (space : MSpace) (size : Nat) (sx : Bool) (d : BitVec 6) : MDesc :=
  ⟨.plain, dir, space, size, sx, d.toNat, 1, 0, false⟩

def execLdg (g : Guard) (m : BitVec 2) (d a c : BitVec 6) (s : State) : Res :=
  memWord (.ldg g m d a c) g (plainDesc .load .global (4 * 2 ^ m.toNat) false d) a c true s
def execLdgh (g : Guard) (sg : BitVec 1) (d a c : BitVec 6) (s : State) : Res :=
  memWord (.ldgh g sg d a c) g (plainDesc .load .global 2 (sg == 1) d) a c true s
def execLdgb (g : Guard) (sg : BitVec 1) (d a c : BitVec 6) (s : State) : Res :=
  memWord (.ldgb g sg d a c) g (plainDesc .load .global 1 (sg == 1) d) a c true s
def execStg (g : Guard) (m : BitVec 2) (d a c : BitVec 6) (s : State) : Res :=
  memWord (.stg g m d a c) g (plainDesc .store .global (4 * 2 ^ m.toNat) false d) a c true s
def execStgh (g : Guard) (d a c : BitVec 6) (s : State) : Res :=
  memWord (.stgh g d a c) g (plainDesc .store .global 2 false d) a c true s
def execStgb (g : Guard) (d a c : BitVec 6) (s : State) : Res :=
  memWord (.stgb g d a c) g (plainDesc .store .global 1 false d) a c true s
/-- R229. -/
def execLda (g : Guard) (w : BitVec 1) (d a : BitVec 6) (sc : BitVec 4) (s : State) : Res :=
  memWord (.lda g w d a sc) g ⟨.ordered sc.toNat, .load, .global, 4 * 2 ^ w.toNat, false, d.toNat, 1, 0, false⟩ a 0 true s
/-- R229. -/
def execStl (g : Guard) (w : BitVec 1) (d a : BitVec 6) (sc : BitVec 4) (s : State) : Res :=
  memWord (.stl g w d a sc) g ⟨.ordered sc.toNat, .store, .global, 4 * 2 ^ w.toNat, false, d.toNat, 1, 0, false⟩ a 0 true s

/-- A scratchpad word (R228): sa := (vA + SignExtend(C) * size) mod 2^32. -/
def scratchWord (i : Instr) (gd : Guard) (m : MDesc) (a c : BitVec 6) (s : State) : Res :=
  issue i s
    (fun u s =>
      let qs := (bitList (partLanes u.g u.f gd)).map fun l =>
        mkReq m (laneReg u.g l) l ((laneReg u.g l a.toNat + c.signExtend 32 * BitVec.ofNat 32 m.size).setWidth 64) 0
      memFrag m qs u s) none
def execLds (g : Guard) (m : BitVec 2) (d a c : BitVec 6) (s : State) : Res :=
  scratchWord (.lds g m d a c) g (plainDesc .load .scratch (4 * 2 ^ m.toNat) false d) a c s
def execLdsh (g : Guard) (sg : BitVec 1) (d a c : BitVec 6) (s : State) : Res :=
  scratchWord (.ldsh g sg d a c) g (plainDesc .load .scratch 2 (sg == 1) d) a c s
def execLdsb (g : Guard) (sg : BitVec 1) (d a c : BitVec 6) (s : State) : Res :=
  scratchWord (.ldsb g sg d a c) g (plainDesc .load .scratch 1 (sg == 1) d) a c s
def execSts (g : Guard) (m : BitVec 2) (d a c : BitVec 6) (s : State) : Res :=
  scratchWord (.sts g m d a c) g (plainDesc .store .scratch (4 * 2 ^ m.toNat) false d) a c s
def execStsh (g : Guard) (d a c : BitVec 6) (s : State) : Res :=
  scratchWord (.stsh g d a c) g (plainDesc .store .scratch 2 false d) a c s
def execStsb (g : Guard) (d a c : BitVec 6) (s : State) : Res :=
  scratchWord (.stsb g d a c) g (plainDesc .store .scratch 1 false d) a c s

/-- R237: the binding and size checks come with the encoding checks. -/
def execGld (g : Guard) (m : BitVec 2) (d a c : BitVec 6) (s : State) : Res :=
  issue (.gld g m d a c) s
    (fun u s =>
      let tag := (gReg u.g c.toNat).toNat % 2 ^ 63
      let md : MDesc := ⟨.grid tag, .load, .global, 2 * 2 ^ m.toNat, false, d.toNat, 1, u.g.stream.toNat, false⟩
      let qs := (bitList (partLanes u.g u.f g)).map fun l =>
        mkReq md (laneReg u.g l) l (plainVa (laneReg u.g l) a 0 md.size) 0
      match qs with
      | q :: _ =>
        if u.full false then s
        else if !gldOk s u.g md then u.term .gridDescriptor s (ofBits 32 (qs.map (·.lane))) q.va else memFrag md qs u s
      | [] => memFrag md [] u s) none
/-- R232. The forms without an address act once, whatever the lane mask. -/
def execCctl (g : Guard) (a c : BitVec 6) (s : State) : Res :=
  issue (.cctl g a c) s
    (fun u s =>
      let op := c.toNat
      if u.full true then s
      else if op = 2 then u.adv (acquireSi s u.g.core)
      else if 8 ≤ op then u.adv (s.adjGang u.gid fun x => { x with hint := BitVec.ofNat 2 (op - 8) })
      else
        let md : MDesc := ⟨.cctl op, .store, .global, 1, false, 0, 1, u.g.stream.toNat, false⟩
        let qs := (bitList (partLanes u.g u.f g)).map fun l =>
          mkReq md (laneReg u.g l) l (plainVa (laneReg u.g l) a 0 1) 0
        memFrag md qs u s) none

/-- An atomic word (R233). -/
def atomWord (i : Instr) (g : Guard) (op : AOp) (nr far sc : Bool) (w : BitVec 1) (scope : Nat) (d a : BitVec 6)
    (subset : Bool) (s : State) : Res :=
  memWord i g ⟨.atomic op nr far sc scope, .atom, .global, 4 * 2 ^ w.toNat, false, d.toNat, 1, 0, false⟩ a 0 subset s
def execAtomAdd (g : Guard) (r : BitVec 1) (d a : BitVec 6) (w f : BitVec 1) (sc : BitVec 4) (s : State) : Res :=
  atomWord (.atomAdd g r d a w f sc) g .add (r == 1) (f == 1) false w sc.toNat d a true s
def execAtomFadd (g : Guard) (x r : BitVec 1) (d a : BitVec 6) (w f : BitVec 1) (sc : BitVec 4) (s : State) : Res :=
  atomWord (.atomFadd g x r d a w f sc) g (if x = 1 then .fadd2 else .fadd) (r == 1) (f == 1) false w sc.toNat d a true s
def execAtomMin (g : Guard) (un r : BitVec 1) (d a : BitVec 6) (w f : BitVec 1) (sc : BitVec 4) (s : State) : Res :=
  atomWord (.atomMin g un r d a w f sc) g (if un = 1 then .minU else .minS) (r == 1) (f == 1) false w sc.toNat d a true s
def execAtomMax (g : Guard) (un r : BitVec 1) (d a : BitVec 6) (w f : BitVec 1) (sc : BitVec 4) (s : State) : Res :=
  atomWord (.atomMax g un r d a w f sc) g (if un = 1 then .maxU else .maxS) (r == 1) (f == 1) false w sc.toNat d a true s
def execAtomBit (g : Guard) (m : BitVec 2) (d a : BitVec 6) (w f : BitVec 1) (sc : BitVec 4) (s : State) : Res :=
  atomWord (.atomBit g m d a w f sc) g (match m.toNat with | 0 => .and_ | 1 => .or_ | _ => .xor_) false (f == 1) false w sc.toNat
    d a true s
def execAtomExch (g : Guard) (d a : BitVec 6) (w f : BitVec 1) (sc : BitVec 4) (s : State) : Res :=
  atomWord (.atomExch g d a w f sc) g .exch false (f == 1) false w sc.toNat d a true s
/-- R235. -/
def execCas (g : Guard) (d a : BitVec 6) (w f : BitVec 1) (sc : BitVec 4) (s : State) : Res :=
  atomWord (.cas g d a w f sc) g .cas false (f == 1) false w sc.toNat d a true s
/-- R236. -/
def execAtomsc (g : Guard) (m : BitVec 2) (d a : BitVec 6) (w : BitVec 1) (sc : BitVec 4) (s : State) : Res :=
  atomWord (.atomsc g m d a w sc) g (match m.toNat with | 0 => .add | 1 => .exch | 2 => .cas | _ => .st) (m == 3) false true w
    sc.toNat d a false s

end Sys2Proof.Machine
end

