-- ==== Sys2Proof/Machine/GroupMem.lean ====
section
/-! DEFINITION. Uniform memory accesses, SIGNAL, WAITGE and FENCE (R156, R158-R160). -/
namespace Sys2Proof.Machine

/-- A uniform access (R156): once, by the fragment, with no lane mask. -/
def uniformWord (i : Instr) (gd : Guard) (m : MDesc) (a c : BitVec 6) (s : State) : Res :=
  groupOp i m.isSb gd s fun u s =>
    let m := { m with hint := u.g.hint.toNat, stream := u.g.stream.toNat }
    let va := gReg u.g a.toNat + c.signExtend 64 * BitVec.ofNat 64 m.size
    memFrag m [⟨0, va, gReg u.g m.d, 0, 0⟩] u s
def execGldk (g : Guard) (m : BitVec 2) (d a c : BitVec 6) (s : State) : Res :=
  uniformWord (.gldk g m d a c) g ⟨.plain, .load, .global, if m = 1 then 8 else 4, m == 2, d.toNat, 1, 0, true⟩ a c s
def execGstk (g : Guard) (m : BitVec 2) (d a c : BitVec 6) (s : State) : Res :=
  uniformWord (.gstk g m d a c) g ⟨.plain, .store, .global, if m = 1 then 8 else 4, false, d.toNat, 1, 0, true⟩ a c s

/-- An act that has issued waits for a read, for room, or for the banks that it writes (log 49). -/
def redoLater (s : State) (gid e : Nat) (i : Instr) (vals : List B64) : State :=
  s.adjFrag gid e fun f => { f with st := .blocked, wait := .redo i vals }
/-- What a FENCE does (R160): at a memory-side scope it acts over every part (R303); a release at SYS brings every write to
where the page walk reads (R207); an acquire at CLUS or wider drops self-invalidating lines (R197). -/
def fenceActs (m : BitVec 2) (scope : Nat) (g : Gang) (s : State) : State :=
  let s := if memSide scope && m != 2 then releasePart s (some g.core) (winDies (s.winOf g.ctx)) none else s
  let s := if memSide scope && m != 1 then acquirePart s g.core none else s
  let s := if m != 2 then releaseAt s scope else s
  if m != 1 then acquireAt s g.core scope else s
/-- The release of a FENCE has write-backs to reissue (R203). -/
def fenceHeld (m : BitVec 2) (scope : Nat) (g : Gang) (s : State) : Bool :=
  m != 2 && (releaseBusy s scope || (memSide scope && partBusy s (winDies (s.winOf g.ctx)) none))
/-- FENCE (R160): its release is complete once its write-backs are (R203). -/
def execFenceG (g : Guard) (m : BitVec 2) (sc : BitVec 4) (s : State) : Res :=
  group (.fenceG g m sc) g s fun u s =>
    if fenceHeld m sc.toNat u.g s then redoLater s u.gid u.e (.fenceG g m sc) []
    else u.adv (fenceActs m sc.toNat u.g s)

/-! SIGNAL (R158). -/

/-- The scope code of R88 for SIGNAL's and WAITGE's M: SYS, FAB, DEV, CLUS. -/
def sigScope (m : Nat) : Nat := match m with | 0 => 5 | 1 => 4 | 2 => 3 | _ => 2
/-- Try a SIGNAL's add: performed, tried again later, or given up; one record at most while it parks. -/
def trySignal (s : State) (k : Nat) : State :=
  match smFind s.sigs k with
  | none => s
  | some x =>
    match addCounter s x.ctx x.stream [5, k] false x.va x.inc with
    | .done s => { s with sigs := smDel s.sigs k }
    | .wait s => { s with sigs := smPut s.sigs k { x with retryAt := s.now } }
    | .fault s c =>
      let s := if x.posted && parksAs c then s else postRec s x.ctx { x.rec_ with code := c }
      if parksAs c then { s with sigs := smPut s.sigs k { x with posted := true, retryAt := s.now + 10000 } }
      else { s with sigs := smDel s.sigs k }
/-- SIGNAL's add as an access: an atomic that returns nothing. -/
def signalDesc : MDesc := ⟨.atomic .add true true false 5, .atom, .global, 8, false, 0, 1, 0, true⟩
/-- SIGNAL's add is made: after its release, and with a record for what it may meet. -/
def signalActs (m : Nat) (va inc : B64) (stream : Nat) (g : Gang) (pc : B64) (word : B32) (s : State) : State :=
  let r : SigRetry := ⟨g.ctx, stream, va, inc, gangRec g .pageNotPresent .async pc word 0 va, s.now, false⟩
  let k := s.next
  let s := releaseAt s (sigScope m)
  trySignal { s with sigs := smPut s.sigs k r, next := k + 1 } k
/-- R158. To a remote page whose pair stands at its bound the word is not ready (R336); a release at SYS waits for banks under
refresh (R203). -/
def execSignalG (g : Guard) (m : BitVec 2) (x y : BitVec 6) (s : State) : Res :=
  group (.signalG g m x y) g s fun u s =>
    let va := gReg u.g x.toNat
    if va &&& 7 ≠ 0 then u.term .misaligned s 0 va
    else
      match translate (s.winOf u.g.ctx) va.toNat (some .atomic) with
      | .error c => u.term c s 0 va
      | .ok (ia, _) =>
        if isMap ia then u.term .permission s 0 va
        else if pastBound s u.g { signalDesc with stream := u.g.stream.toNat } [⟨0, va, 0, 0, 0⟩] then s
        else
          let inc := gReg u.g y.toNat
          let st := u.g.stream.toNat
          if releaseBusy s (sigScope m.toNat) then redoLater s u.gid u.e (.signalG g m x y) [va, inc, BitVec.ofNat 64 st]
          else u.adv (signalActs m.toNat va inc st u.g u.f.pc u.word s)
/-- SIGNAL_ADD_RETRY (R158): every 10 us until it succeeds. -/
def execSignalAddRetry (k : Nat) (s : State) : Res :=
  .next (match smFind s.sigs k with
    | some x => if x.retryAt ≤ s.now then trySignal s k else s
    | none => s)

/-! WAITGE (R159). -/

/-- A fault of WAITGE: those of page translation and poisoned flags park, and so do a peer's that it says park (R345); a
replay starts the wait again. -/
def waitFault (s : State) (gid e : Nat) (c : Code) (parks : Bool) (i : Instr) (va tgt : B64) (pc : B64) (word : B32) : State :=
  if parks then park s gid e c (.redo i [va, tgt]) pc word 0 va
  else terminate s gid c pc word 0 va
/-- One read of a counter. -/
def readCounter (s : State) (g : Gang) (gid e : Nat) (va : B64) : Got :=
  readBlock s g.ctx (clusterOf s g.wg) [4, gid, e] (s.winOf g.ctx) .load va.toNat 8
/-- Start or restart a wait: alignment and window faults, then page faults; the on-chip map by R67. -/
def startWaitge (i : Instr) (m : Nat) (va tgt : B64) (gid e : Nat) (pc : B64) (word : B32) (g : Gang) (s : State) : State :=
  if va &&& 7 ≠ 0 then terminate s gid .misaligned pc word 0 va
  else
    let wait := fun (s : State) => (dropTok s [4, gid, e]).adjFrag gid e fun f => { f with st := .blocked, wait := .counter va tgt m }
    match reach s g.ctx (s.winOf g.ctx) va.toNat .load with
    | .fault c => waitFault s gid e c (parksAs c) i va tgt pc word
    | .map ia => match mapAt s (clusterOf s g.wg) ia 8 with
      | some _ => wait s
      | none => terminate s gid .permission pc word 0 va
    | .spot s _ => wait s
def execWaitge (g : Guard) (m : BitVec 2) (x y : BitVec 6) (s : State) : Res :=
  group (.waitge g m x y) g s fun u s =>
    startWaitge (.waitge g m x y) m.toNat (gReg u.g x.toNat) (gReg u.g y.toNat) u.gid u.e u.f.pc u.word u.g s
/-- WAITGE_SATISFIED (R159): a read of the counter; the wait ends when bits [62:0] reach the target, with an acquire. A gang
that has ended takes no fault more (R362). -/
def execWaitgeSatisfied (gid e : Nat) (s : State) : Res :=
  .next (
    match (smFind s.gangs gid).filter (·.ending.isNone) with
    | none => s
    | some g =>
      match smFind g.frags e with
      | none => s
      | some f =>
        match f.wait with
        | .counter va tgt m =>
          let word := (f.clause.bind fun c => c.words[((f.pc - c.hdr).toNat / 4 - 1)]?).getD 0
          let i := (decodeTableWord 32 word.toNat).getD .nop
          match readCounter s g gid e va with
          | .wait s => s
          | .fault s c _ parks => waitFault (dropTok s [4, gid, e]) gid e c parks i va tgt f.pc word
          | .ok s bs psn =>
            let v := leNat bs
            if psn.isSome then terminate s gid .dataPoison f.pc word 0 va
            else if 2 ^ 63 ≤ v then waitFault s gid e .flagPoisoned true i va tgt f.pc word
            else if tgt.toNat % 2 ^ 63 ≤ v then
              (unblock (acquireAt s g.core (sigScope m)) gid e).adjFrag gid e Frag.step
            else s
        | _ => s)

end Sys2Proof.Machine
end

