-- ==== Sys2Proof/Machine/Copies.lean ====
section
/-! DEFINITION. Byte-count barriers (R244-R250) and asynchronous copies (R240-R243, R249-R251): TCOPY, TCOPYG, the
barrier words, YIELD, and the chunk events. -/
namespace Sys2Proof.Machine

/-! Barriers. -/

/-- A plain store has changed the live barrier (R244): until the next BARINIT its behaviour is unpredictable. -/
def barSpoilt (s : State) (wg a : Nat) : Bool := match smFind s.wgs wg with | some w => smGet w.bars a false | none => false
/-- What an act finds in a barrier: its 16 bytes (R244), or for a spoilt one a free value (log 32). -/
def barGet (s : State) (wg a : Nat) : Nat :=
  if barSpoilt s wg a then Config.freeNat s.free % 2 ^ 128 else leNat (readScratch s wg a 16).data
/-- A free value that has been used is counted. -/
def barDraw (s : State) (wg a : Nat) : State := if barSpoilt s wg a then { s with free := s.free + 1 } else s
def barPut (s : State) (wg a v : Nat) : State := putScratch (barDraw s wg a) wg a (toBytes 16 v)
/-- ERR of a barrier clears: no copy has set it since (R249). -/
def errCleared (s : State) (wg a : Nat) : State :=
  { s.adjWg wg fun w => { w with errBad := smDel w.errBad a } with
    copies := smMap (fun _ c => if c.barWg = wg ∧ c.barAddr = a then { c with setErr := false } else c) s.copies }
/-- A barrier becomes live, with no fault and no store against it. -/
def barFresh (s : State) (wg a : Nat) : State :=
  (errCleared s wg a).adjWg wg fun w => { w with bars := smPut w.bars a false }
def bExpb (v : Nat) : Nat := fld v 0 32
def bArrb (v : Nat) : Nat := fld v 32 32
def bExpa (v : Nat) : Nat := fld v 64 16
def bArra (v : Nat) : Nat := fld v 80 16
def bPh (v : Nat) : Bool := fld v 96 1 == 1
def bErr (v : Nat) : Bool := fld v 97 1 == 1
/-- The flip that follows an act (R245). -/
def barFlip (v : Nat) : Nat :=
  if bExpa v != 0 && decide (bExpa v ≤ bArra v) && decide (bExpb v ≤ bArrb v) then
    setFld (setFld (setFld (setFld v 80 16 0) 32 32 0) 0 32 0) 96 1 (1 - fld v 96 1)
  else v
/-- ASYNC_FAULT of a waiter (R249): terminated when an abandoned copy or an overflow has set ERR, else parked. -/
def asyncFault (s : State) (gid e wg a : Nat) (ph : Bool) (try_ : Option Nat) (pc : B64) (word : B32) : State :=
  let bad := match smFind s.wgs wg with | some w => smGet w.errBad a false | none => false
  if bad then terminate s gid .asyncFault pc word 0 (BitVec.ofNat 64 a)
  else park s gid e .asyncFault (.barrier a ph try_) pc word 0 (BitVec.ofNat 64 a)
/-- A waiter goes on: past a BARWAIT, or at the header a YIELD named. -/
def Frag.resume (f : Frag) : Frag :=
  let f := { f with st := .ready, wait := .none }
  if f.pc = f.hdr then f else f.step
/-- A flip is observed: an acquire that covers the destination writes of copies, which may lie on self-invalidating pages
(R248, log 41). -/
def flipSeen (s : State) (gid : Nat) : State :=
  match smFind s.gangs gid with
  | some g => acquireSi s g.core
  | none => s
/-- The test of R247 for one waiting fragment. A gang that has ended takes no fault more (R362). -/
def barTest (s : State) (gid e wg a : Nat) : State :=
  match ((smFind s.gangs gid).filter (·.ending.isNone)).bind fun g => smFind g.frags e with
  | none => s
  | some f =>
    match f.wait with
    | .barrier b ph pc word =>
      if b ≠ a then s
      else
        let v := barGet s wg a
        let s := barDraw s wg a
        if bErr v then asyncFault s gid e wg a ph none pc word
        else if bPh v != ph then (flipSeen s gid).adjFrag gid e Frag.resume
        else s
    | _ => s
/-- After an act every waiter on the barrier is tested (R247). -/
def barWake (s : State) (wg a : Nat) : State :=
  let gs := smKeys (fun _ (g : Gang) => g.wg == some wg && g.ending.isNone) s.gangs
  gs.foldl (fun s gid => (List.range 8).foldl (fun s e => barTest s gid e wg a) s) s
/-- An act on a barrier, with its flip and its waiters' tests. -/
def barAct (s : State) (wg a v : Nat) : State := barWake (barPut s wg a (barFlip v)) wg a
/-- What follows an act that changes no count (R245): a barrier that is full all the same flips. -/
def barSettle (s : State) (wg a : Nat) : State :=
  let v := barGet s wg a
  if barFlip v = v then barDraw s wg a else barAct s wg a v
/-- Set ERR; `bad` when no FRESOLVE can resume what set it (R249). -/
def barSetErr (s : State) (wg a : Nat) (bad : Bool) : State :=
  let s := if bad then s.adjWg wg fun w => { w with errBad := smSet w.errBad a true false } else s
  barAct s wg a (setFld (barGet s wg a) 97 1 1)
/-- Clear ERR. -/
def barClearErr (s : State) (wg a : Nat) : State :=
  let s := errCleared s wg a
  barAct s wg a (setFld (barGet s wg a) 97 1 0)

/-- A barrier word's address check (R246): aligned, then within SCRATCH, and gY or gZ after that; the records carry gX. The order
and the address are the model's choice (logs 60, 61). -/
def barWord (i : Instr) (gd : Guard) (x : BitVec 6) (s : State) (k : Iss → Nat → Nat → State → State) : Res :=
  group i gd s fun u s =>
    let a := gReg u.g x.toNat
    if a &&& 15 ≠ 0 then u.term .misaligned s 0 a
    else if a >>> 32 ≠ 0 ∨ u.g.scratchN < a.toNat + 16 then u.term .permission s 0 a
    else k u (u.g.wg.getD 0) a.toNat s
def execBarinit (g : Guard) (x y : BitVec 6) (s : State) : Res :=
  barWord (.barinit g x y) g x s fun u wg a s =>
    let n := (gReg u.g y.toNat).toNat
    if n = 0 ∨ 65535 < n then u.term .illegalInstr s
    else u.adv (barAct (barFresh s wg a) wg a (n * 2 ^ 64))
/-- BAREXP and `barexp.arv`, one indivisible act. -/
def barexpAct (arv : Bool) (y : BitVec 6) (u : Iss) (wg a : Nat) (s : State) : State :=
  let n := (gReg u.g y.toNat).toNat
  let v := barGet s wg a
  if 2 ^ 32 ≤ bExpb v + n ∨ (arv ∧ bExpa v < bArra v + 1) then u.term .illegalInstr s
  else
    let v := setFld v 0 32 (bExpb v + n)
    u.adv (barAct s wg a (if arv then setFld v 80 16 (bArra v + 1) else v))
def execBarexp (g : Guard) (x y : BitVec 6) (s : State) : Res := barWord (.barexp g x y) g x s (barexpAct false y)
def execBarexpArv (g : Guard) (x y : BitVec 6) (s : State) : Res := barWord (.barexpArv g x y) g x s (barexpAct true y)
def execBararv (g : Guard) (x z : BitVec 6) (s : State) : Res :=
  barWord (.bararv g x z) g x s fun u wg a s =>
    let v := barGet s wg a
    if bExpa v < bArra v + 1 then u.term .illegalInstr s
    else u.adv (barAct (s.adjGang u.gid (setGReg · z.toNat (if bPh v then 1 else 0))) wg a (setFld v 80 16 (bArra v + 1)))
/-- Wait and test at once (R247). -/
def barBlock (u : Iss) (wg a : Nat) (ph : Bool) (s : State) : State :=
  barSettle (barTest (u.block (.barrier a ph u.f.pc u.word) s) u.gid u.e wg a) wg a
def phaseOf (u : Iss) (y : BitVec 6) : Bool := (gReg u.g y.toNat).getLsbD 0
def execBarwait (g : Guard) (x y : BitVec 6) (s : State) : Res :=
  barWord (.barwait g x y) g x s fun u wg a s => barBlock u wg a (phaseOf u y) s
/-- The test of BARTRY (R246, R247). -/
def bartryAct (s : State) (gid e wg a : Nat) (ph : Bool) (z : Nat) (pc : B64) (word : B32) : State :=
  let v := barGet s wg a
  let s := barDraw s wg a
  if bErr v then barSettle (asyncFault s gid e wg a ph (some z) pc word) wg a
  else
    let s := (if bPh v != ph then flipSeen s gid else s).adjGang gid (setQReg · z (bPh v != ph))
    barSettle (s.adjFrag gid e fun f => { f.step with st := .ready, wait := .none }) wg a
def execBartry (g : Guard) (x y : BitVec 6) (z : BitVec 3) (s : State) : Res :=
  barWord (.bartry g x y z) g x s fun u wg a s => bartryAct s u.gid u.e wg a (phaseOf u y) z.toNat u.f.pc u.word
/-- YIELD (R247): the continuation is written at issue. -/
def execYieldG (g : Guard) (x y z : BitVec 6) (s : State) : Res :=
  barWord (.yieldG g x y z) g x s fun u wg a s =>
    let t := gReg u.g z.toNat
    if t &&& 3 ≠ 0 then u.term .misaligned s
    else barBlock u wg a (phaseOf u y) (s.adjFrag u.gid u.e (·.jump t))

/-! Templates (R240). -/

def tf (t : BitVec 512) (lo n : Nat) : Nat := fld t.toNat lo n
def tEsz (t : BitVec 512) : Nat := 2 ^ tf t 484 3
def tRank (t : BitVec 512) : Nat := tf t 487 3
def tCs (t : BitVec 512) : Nat := 2 ^ (tf t 490 4 + 7)
/-- Extent of a dimension; 1 at or above RANK (R241). -/
def tExt (t : BitVec 512) (d : Nat) : Nat :=
  if tRank t ≤ d then 1 else if d = 0 then tf t 128 32 else tf t (160 + 16 * (d - 1)) 16
def tSstr (t : BitVec 512) (d : Nat) : Nat := tf t (224 + 32 * (d - 1)) 32
def tDstr (t : BitVec 512) (d : Nat) : Nat := tf t (352 + 24 * (d - 1)) 24
def tElems (t : BitVec 512) : Nat := (List.range 5).foldl (fun n d => n * tExt t d) 1
def tBytes (t : BitVec 512) : Nat := tElems t * tEsz t
def tChunks (t : BitVec 512) : Nat := (tBytes t + tCs t - 1) / tCs t
/-- The third row of R243's checks. -/
def tmplOk (t : BitVec 512) (gather : Bool) : Bool :=
  let r := tRank t
  let used := (List.range 5).all fun d =>
    if d < r then tExt t d != 0
    else (if d = 0 then tf t 128 32 == 0 else tf t (160 + 16 * (d - 1)) 16 == 0 && tSstr t d == 0 && tDstr t d == 0)
  tf t 480 4 == 1 && tf t 500 12 == 0 && tf t 463 1 == 0 && decide (tf t 484 3 ≤ 4) && r != 0 && decide (r ≤ 5)
    && decide (tf t 490 4 ≤ 8) && decide (tf t 496 2 ≤ 1) && decide (tf t 494 2 ≤ 1) && tf t 498 2 != 3 && used
    && decide (tBytes t ≤ 2 ^ 31) && (!gather || (r == 2 && tExt t 1 == 32))
/-- The index tuple of element n. -/
def tIdx (t : BitVec 512) (n : Nat) : List Nat :=
  let e := tExt t
  [n % e 0, n / e 0 % e 1, n / (e 0 * e 1) % e 2, n / (e 0 * e 1 * e 2) % e 3, n / (e 0 * e 1 * e 2 * e 3)]
/-- Source and destination of element n (R241); none for a row that is not copied. -/
def tAddr (t : BitVec 512) (offS offD : B64) (rows : Option (List Nat × Lanes)) (n : Nat) : Option (Nat × Nat) :=
  let i := tIdx t n
  let i1 := i.getD 1 0
  let live := match rows with | some r => r.2.getLsbD i1 | none => true
  if !live then none
  else
    let r := match rows with | some r => r.1.getD i1 0 | none => i1
    let up := fun (str : Nat → Nat) => i.getD 2 0 * str 2 + i.getD 3 0 * str 3 + i.getD 4 0 * str 4
    some ((tf t 0 64 + offS.toNat + i.getD 0 0 * tEsz t + r * tSstr t 1 + up (tSstr t)) % 2 ^ 64,
      (tf t 64 64 + offD.toNat + i.getD 0 0 * tEsz t + i1 * tDstr t 1 + up (tDstr t)) % 2 ^ 64)
/-- The greatest source and destination addresses plus one, from the bases (R243's scratchpad check). -/
def tTop (t : BitVec 512) (offS offD : B64) (rows : Option (List Nat × Lanes)) : Nat × Nat :=
  let top := fun (base : Nat) (str : Nat → Nat) (r1 : Nat) =>
    base % 2 ^ 64 + (tExt t 0 - 1) * tEsz t + r1 * str 1 + (tExt t 2 - 1) * str 2 + (tExt t 3 - 1) * str 3
      + (tExt t 4 - 1) * str 4 + tEsz t
  -- a row of TCOPYG starts at an address mod 2^64
  let row := fun (base : Nat) => base % 2 ^ 64 + tExt t 0 * tEsz t
  match rows with
  | none => (top (tf t 0 64 + offS.toNat) (tSstr t) (tExt t 1 - 1), top (tf t 64 64 + offD.toNat) (tDstr t) (tExt t 1 - 1))
  | some r =>
    (((bitList r.2).map fun l => row (tf t 0 64 + offS.toNat + r.1.getD l 0 * tSstr t 1)).foldl max 0,
      ((bitList r.2).map fun l => row (tf t 64 64 + offD.toNat + l * tDstr t 1)).foldl max 0)

/-! TCOPY and TCOPYG. -/

/-- The gang that a template's REM, CORE, QTR and SLOT name, in the issuer's cluster. -/
def remGang (s : State) (t : BitVec 512) (cl : Option (Nat × Nat)) : Option Gang :=
  (((smKeys (fun _ (g : Gang) => g.core == tf t 470 9 && g.quarter == tf t 468 2 && g.slot == tf t 464 4) s.gangs).head?).bind
    (smFind s.gangs ·)).filter fun g => cl.isSome && clusterOf s g.wg == cl
/-- R243 from the template on, with the operands read at issue: `vals` are gX, offS and offD, then for TCOPYG the row
indices, the participating lanes, and the number of the register that the indices come from. The records of MISALIGNED and
PERMISSION carry the template's VA: the model's choice (log 61). -/
def startCopy (i : Instr) (vals : List B64) (gather : Bool) (gid e : Nat) (pc : B64) (word : B32) (s : State) : State :=
  match smFind s.gangs gid with
  | none => s
  | some g =>
    let va := vals.getD 0 0
    let offS := vals.getD 1 0
    let offD := vals.getD 2 0
    let rows := if gather then some (((vals.drop 3).take 32).map (·.toNat), BitVec.ofNat 32 (vals.getD 35 0).toNat) else none
    let n := vals.getD 36 0
    let term := fun (c : Code) (a : B64) (s : State) => terminate s gid c pc word 0 a
    if va &&& 63 ≠ 0 then term .misaligned va s
    else
      match readBlock s g.ctx (clusterOf s g.wg) [6, gid, e] (s.winOf g.ctx) .load va.toNat 64 with
      | .wait s => redoLater s gid e i vals
      | .fault s c a parks =>
        let s := dropTok s [6, gid, e]
        if parks then park s gid e c (.redo i vals) pc word 0 (BitVec.ofNat 64 a) else term c (BitVec.ofNat 64 a) s
      | .ok s bs psn =>
        let t := BitVec.ofNat 512 (leNat bs)
        let esz := tEsz t
        let cl := clusterOf s g.wg
        let bar : Option (Nat × Nat × B64) :=
          if tf t 479 1 = 0 then some (g.wg.getD 0, g.scratchN, BitVec.ofNat 64 (tf t 448 15 * 16))
          else (remGang s t cl).map fun x => (x.wg.getD 0, x.scratchN, BitVec.ofNat 64
            (0xfff * 2 ^ 40 + tf t 470 9 * 2 ^ 31 + (tf t 468 2 * 16 + tf t 464 4) * 2 ^ 19 + tf t 448 15 * 16))
        let strides := (List.range 4).all fun d => decide (tRank t ≤ d + 1) ||
          (tSstr t (d + 1) % esz == 0 && tDstr t (d + 1) % esz == 0)
        let top := tTop t offS offD rows
        match psn with
        | some p => term .dataPoison (va + BitVec.ofNat 64 p) s
        | none =>
          if !tmplOk t gather || (gather && (n >>> 6 != 0 || decide (g.regs ≤ n.toNat))) then term .illegalInstr va s
          else if (tf t 0 64 + offS.toNat) % esz ≠ 0 ∨ (tf t 64 64 + offD.toNat) % esz ≠ 0 ∨ !strides then term .misaligned va s
          else if (tf t 494 2 = 1 ∧ g.scratchN < top.1) ∨ (tf t 496 2 = 1 ∧ g.scratchN < top.2) then term .permission va s
          else
            match bar with
            | none => term .permission va s
            | some (bwg, bN, tick) =>
              if bN < tf t 448 15 * 16 + 16 then term .permission va s
              else
                let q := va.toNat - g.ctt.toNat
                let idx := if g.ctt ≠ 0 ∧ g.ctt.toNat ≤ va.toNat ∧ q % 64 = 0 ∧ q / 64 ≤ 65534 then q / 64 else 0xffff
                let c : Copy := ⟨g.ctx, g.core, g.wg, cl, pc, word, t, idx, offS, offD, rows, bwg, tf t 448 15 * 16, tick, 0, 0, [],
                  false, false, false, []⟩
                let s := { s with copies := smPut s.copies s.next c, next := s.next + 1 }
                s.adjFrag gid e fun f => { f.step with st := .ready, wait := .none }
/-- The core's copy unit is full (R243). -/
def copyFull (s : State) (core : Nat) : Bool :=
  decide (Config.copiesPerCore ≤ (smKeys (fun _ (c : Copy) => c.core == core) s.copies).length)
/-- A copy word: while the core's copy unit is full it is not issued, whatever its guard (R243). -/
def copyWord (i : Instr) (gd : Guard) (s : State) (k : Iss → State → State) : Res :=
  issue i s (fun u s => if copyFull s u.g.core then s else if guardQ u.g.q gd then k u s else u.adv s) none
def execTcopy (g : Guard) (x y z : BitVec 6) (s : State) : Res :=
  copyWord (.tcopy g x y z) g s fun u =>
    startCopy (.tcopy g x y z) [gReg u.g x.toNat, gReg u.g y.toNat, gReg u.g z.toNat] false u.gid u.e u.f.pc u.word
def execTcopyg (g : Guard) (x y z : BitVec 6) (s : State) : Res :=
  copyWord (.tcopyg g x y z) g s fun u =>
    let n := gReg u.g z.toNat
    let rows := (List.range 32).map fun l => (laneReg u.g l (n.toNat % 64)).setWidth 64
    startCopy (.tcopyg g x y z) ([gReg u.g x.toNat, 0, gReg u.g y.toNat] ++ rows ++ [(activeLanes u.g u.f).setWidth 64, n]) true
      u.gid u.e u.f.pc u.word

/-! Chunks (R242, R249). -/

/-- Parts of an element: source, destination and length, within 16 bytes of the source and 32 of the destination (R378). -/
def cutPiece (src dst len : Nat) : Nat → List (Nat × Nat × Nat)
  | 0 => []
  | fuel + 1 =>
    if len = 0 then []
    else
      let k := min len (min (16 - src % 16) (32 - dst % 32))
      (src, dst, k) :: cutPiece (src + k) (dst + k) (len - k) fuel
/-- A piece of a chunk: bytes of one 32-byte granule of the destination, with the sources that they come from in order. -/
structure Piece where
  dst : Nat
  src : List (Nat × Nat)
def Piece.len (p : Piece) : Nat := (p.src.map Prod.snd).sum
/-- Put a source before others, as one where they continue it in its granule. -/
def joinSrc (s k : Nat) : List (Nat × Nat) → List (Nat × Nat)
  | (s', k') :: r => if s + k = s' ∧ s / 16 = s' / 16 then (s, k + k') :: r else (s, k) :: (s', k') :: r
  | [] => [(s, k)]
/-- Gather parts that fill one granule of the destination in succession: it is written at once (R378). -/
def joinPieces : List (Nat × Nat × Nat) → List Piece
  | [] => []
  | (s, d, k) :: rest =>
    match joinPieces rest with
    | p :: more => if d + k = p.dst ∧ d / 32 = p.dst / 32 then ⟨d, joinSrc s k p.src⟩ :: more else ⟨d, [(s, k)]⟩ :: p :: more
    | [] => [⟨d, [(s, k)]⟩]
/-- The pieces of chunk j, in stream order. -/
def chunkPieces (c : Copy) (j : Nat) : List Piece :=
  let esz := tEsz c.tmpl
  let per := tCs c.tmpl / esz
  joinPieces (((List.range (min per (tElems c.tmpl - j * per))).filterMap fun i =>
    tAddr c.tmpl c.offS c.offD c.rows (j * per + i)).flatMap fun p => cutPiece p.1 p.2 esz 16)
/-- The bytes that a chunk counts. -/
def chunkCount (c : Copy) (j : Nat) : Nat := ((chunkPieces c j).map Piece.len).sum

/-- What an access of a piece came to. -/
inductive PieceRes where
  | done (s : State) (bs : List Byte) (psn : Bool)
  | wait (s : State)
  | fault (s : State) (code : Code) (addr : Nat)
/-- Mark the granule of a place poisoned (R378). -/
def markPoison (s : State) (x : Spot) : State :=
  let key := homeKey x.ia x.home
  match smFind s.mem.l2 key with
  | some l => s.setMem { s.mem with l2 := smPut s.mem.l2 key { l with poison := l.poison ||| (1#8 <<< (x.ia % 128 / 16)) } }
  | none => if 3 ≤ x.page.st then s else s.setMem { s.mem with poison := smSet s.mem.poison (x.page.at_ / 32) true false }
/-- The byte of a place n bytes on, in its page. -/
def Spot.plus (x : Spot) (n : Nat) : Spot := { x with ia := x.ia + n, page := { x.page with at_ := x.page.at_ + n } }
/-- The mark of the granule of a place: of its home line, or of the frame where no line is held. -/
def markedAt (s : State) (x : Spot) : Bool :=
  match smFind s.mem.l2 (homeKey x.ia x.home) with
  | some l => l.poison.getLsbD (x.ia % 128 / 16)
  | none => decide (x.page.st < 3) && smGet s.mem.poison (x.page.at_ / 32) false
/-- The granule of a place is marked no more. -/
def unmarkAt16 (s : State) (x : Spot) : State :=
  let key := homeKey x.ia x.home
  match smFind s.mem.l2 key with
  | some l => s.setMem { s.mem with l2 := smPut s.mem.l2 key { l with poison := l.poison &&& ~~~(1#8 <<< (x.ia % 128 / 16)) } }
  | none => s.setMem { s.mem with poison := smDel s.mem.poison (x.page.at_ / 32) }
/-- Copy k has written n bytes at a, those at some offsets poisoned: a granule of g bytes that is marked, and of which the copy
has now written every byte with clean data, loses its mark (R378). The marks are asked for and cleared by offset from a. -/
def coverCopy (k a n g : Nat) (psn : List Nat) (marked : State → Nat → Bool) (clear : State → Nat → State) (s : State) : State :=
  ((List.range n).map fun i => (a + i) / g).dedup.foldl (fun s b =>
    let mine := (List.range n).filter fun i => (a + i) / g == b
    match smFind s.copies k, mine with
    | some c, i :: _ =>
      if !marked s i then s
      else
        let old := c.clean.filter fun x => !(mine.any fun i => a + i == x)
        let now := old ++ (mine.filter fun i => !psn.contains i).map (a + ·)
        if (List.range g).all fun i => now.contains (b * g + i) then
          (clear s i).adjCopy k fun c => { c with clean := now.filter (· / g ≠ b) }
        else s.adjCopy k fun c => { c with clean := now }
    | _, _ => s) s
/-- A piece's access to memory: copy k of the unit, in chunk j, keeps its place (R203). -/
def pieceAt (s : State) (c : Copy) (k j : Nat) (tok : List Nat) (x : Spot) (n : Nat) (d : Do) (psn : Bool) (a : Nat) : PieceRes :=
  match engTurn s (copyHolder c.core) (x.ia / 128) (.chunk k j) x.page fun s =>
      engineNow s c.ctx tok { x with prio := tf c.tmpl 498 2 } n d none psn with
  | .done s f => .done s f.data f.psn.isSome
  | .wait s _ => .wait s
  | .fault s code parks => .fault s (asyncCode code parks) a
/-- Read a piece's source. -/
def readPiece (s : State) (c : Copy) (k j : Nat) (tok : List Nat) (a n : Nat) : PieceRes :=
  if tf c.tmpl 494 2 = 1 then
    let f := readScratch s (c.wg.getD 0) a n
    .done s f.data f.psn.isSome
  else
    match reach s c.ctx (s.winOf c.ctx) a .load (some (copyHolder c.core)) with
    | .fault code => .fault s code a
    | .map ia => match mapGot s c.cluster .load ia n a with
      | .ok s bs p => .done s bs p.isSome
      | .wait s => .wait s
      | .fault s code a _ => .fault s code a
    | .spot s x => pieceAt s c k j tok x n .load false a
/-- Write a piece's destination, of which the bytes at some offsets are poisoned: their marks travel with them, and a granule that
the copy has now written whole is clean (R378). A remote page takes PERMISSION (R333); poison into a register, tile or accumulator abandons the copy (R378). -/
def writePiece (s : State) (c : Copy) (k j : Nat) (tok : List Nat) (a : Nat) (bs : List Byte) (psn : List Nat) : PieceRes :=
  let mark := fun wg b (s : State) => coverCopy k a bs.length 16 psn
    (fun s i => smGet s.mem.poison (scratchMark wg (b + i)) false)
    (fun s i => s.setMem { s.mem with poison := smDel s.mem.poison (scratchMark wg (b + i)) })
    (psn.foldl (fun s i => s.setMem { s.mem with poison := smSet s.mem.poison (scratchMark wg (b + i)) true false }) s)
  if tf c.tmpl 496 2 = 1 then .done (mark (c.wg.getD 0) a (writeScratch s (c.wg.getD 0) a bs)) [] false
  else
    match reach s c.ctx (s.winOf c.ctx) a .store (some (copyHolder c.core)) with
    | .fault code => .fault s code a
    | .map ia => match mapAt s c.cluster ia bs.length with
      | none => .fault s .permission a
      | some m =>
        if mapBusy s m then .wait s
        else match m with
          | .scratch wg b => .done (mark wg b (mapWrite s m bs)) [] false
          | _ => if psn ≠ [] then .fault s .dataPoison a else .done (mapWrite s m bs) [] false
    | .spot s x =>
      if x.page.st = 3 then .fault s .permission a
      else match pieceAt s c k j tok x bs.length (.store bs) (psn != []) a with
        | .done s _ _ =>
          .done (coverCopy k a bs.length (if x.page.cls = 2 then 32 else 16) psn (fun s i => markedAt s (x.plus i))
            (fun s i => unmarkAt16 s (x.plus i)) (psn.foldl (fun s i => markPoison s (x.plus i)) s)) [] false
        | r => r
/-- What a piece's sources give: its bytes and the offsets of those that are poisoned. -/
inductive SrcRes where
  | done (s : State) (bs : List Byte) (psn : List Nat)
  | wait (s : State)
  | fault (s : State) (code : Code) (addr : Nat)
/-- Read a piece's sources. -/
def readSrcs (c : Copy) (k j : Nat) (tok : List Nat) : List (Nat × Nat) → State → List Byte → List Nat → SrcRes
  | [], s, acc, p => .done s acc p
  | (a, n) :: rest, s, acc, p =>
    match readPiece s c k j (tok ++ [rest.length]) a n with
    | .done s bs psn =>
      readSrcs c k j tok rest s (acc ++ bs) (p ++ if psn then (List.range bs.length).map (acc.length + ·) else [])
    | .wait s => .wait s
    | .fault s code a => .fault s code a
/-- What became of a chunk's pieces. -/
inductive ChunkRes where
  | done (s : State)
  /-- So many are moved; the next must wait. -/
  | wait (s : State) (moved : Nat)
  /-- So many are moved; the next meets a fault. -/
  | fault (s : State) (moved : Nat) (code : Code) (addr : Nat)
/-- Move pieces in order from piece i on; a wait or a fault stops before the piece that meets it. -/
def movePieces (c : Copy) (k j : Nat) : List Piece → Nat → State → ChunkRes
  | [], _, s => .done s
  | p :: rest, i, s =>
    let tok := [3, k, j, i]
    match readSrcs c k j tok p.src s [] [] with
    | .wait s => .wait s i
    | .fault s code a => .fault (dropTok s tok) i code a
    | .done s1 bs psn => match writePiece s1 c k j tok p.dst bs psn with
      | .wait s => .wait s i
      | .fault s code a => .fault (dropTok s tok) i code a
      | .done s2 _ _ => movePieces c k j rest (i + 1) (dropTok s2 tok)
/-- Move what is left of a chunk. -/
def moveChunk (c : Copy) (k j : Nat) (s : State) : ChunkRes :=
  let n := smGet c.moved j 0
  movePieces c k j ((chunkPieces c j).drop n) n s
/-- A chunk may start: not performed, within 64 of F, the copy not parked (R242); of a discarded workgroup's copy only a
chunk in flight goes on (R371). -/
def chunkOpen (c : Copy) (j : Nat) : Bool :=
  !c.parked && (!c.last || smGet c.moved j 0 != 0) && decide (c.low ≤ j) && decide (j < c.low + 64) && decide (j < tChunks c.tmpl) && !c.done.getLsbD (j - c.low)
/-- F and the bitmap after chunk j. -/
def slideDone : Nat → Nat → B64 → Nat × B64
  | 0, low, b => (low, b)
  | n + 1, low, b => if b.getLsbD 0 then slideDone n (low + 1) (b >>> 1) else (low, b)
/-- A copy's record (R249): its ticket names the template, the barrier and F. -/
def copyRec (c : Copy) (code : Code) (addr : B64) : Rec :=
  ⟨code, .async, 1, c.core / 64, none, c.pc, c.word, 0, addr,
    BitVec.ofNat 64 (c.index + c.low * tCs c.tmpl % 2 ^ 32 * 2 ^ 16), c.barTicket, 0, false, none⟩
/-- Count a chunk's bytes on the barrier (R242, R245): an overflow holds ARRB, sets ERR and posts one record,
whose PC, WORD and F, the chunk counted, are the copy's: the model's choice (log 61). -/
def countChunk (s : State) (c : Copy) (n : Nat) : State :=
  let v := barGet s c.barWg c.barAddr
  if 2 ^ 32 ≤ bArrb v + n then
    let s := barPut s c.barWg c.barAddr (setFld v 32 32 (2 ^ 32 - 1))
    barSetErr (postRec s c.ctx (copyRec c .asyncFault c.barTicket)) c.barWg c.barAddr true
  else barAct s c.barWg c.barAddr (setFld v 32 32 (bArrb v + n))
/-- Abandon a copy (R249): a copy that had set ERR leaves its barrier beyond FRESOLVE. -/
def abandonCopy (s : State) (k : Nat) : State :=
  match smFind s.copies k with
  | none => s
  | some c =>
    let s := { s with copies := smDel s.copies k }
    if c.setErr then s.adjWg c.barWg fun w => { w with errBad := smSet w.errBad c.barAddr true false } else s
/-- A workgroup that has exited: its parked copies, and those that count on its barriers, are abandoned, and its scratchpad
is released once no copy writes it or counts on a barrier in it (R251). -/
def tidyWg (s : State) (w : Nat) : State :=
  match smFind s.wgs w with
  | none => s
  | some x =>
    if x.left ≠ 0 then s
    else
      let mine := fun (c : Copy) => c.wg == some w || c.barWg == w
      let s := (smKeys (fun _ c => c.parked && mine c) s.copies).foldl abandonCopy s
      if List.any s.copies fun p => mine p.2 then s else { s with wgs := smDel s.wgs w }
/-- The same for the two workgroups that a copy touches. -/
def tidyCopy (c : Copy) (s : State) : State := (c.wg.toList ++ [c.barWg]).foldl tidyWg s
/-- A discarded workgroup's copy has no more to do of one chunk: with its last chunk in flight it is abandoned (R371). -/
def finishLast (s : State) (k j : Nat) (c : Copy) : State :=
  let c := { c with moved := smDel c.moved j }
  tidyCopy c { s with copies := if c.moved.isEmpty then smDel s.copies k else smPut s.copies k c }
/-- COPY_CHUNK_PERFORMED (R242): the chunk is written, each piece once (R241), then counted; the last one ends the copy. -/
def execCopyChunkPerformed (k j : Nat) (s : State) : Res :=
  .next (
    match smFind s.copies k with
    | none => s
    | some c =>
      if !chunkOpen c j then s
      else match moveChunk c k j s with
        | .wait s n => s.adjCopy k fun c => { c with moved := smSet c.moved j n 0 }
        | .fault .. => s
        | .done s1 =>
          let c := (smFind s1.copies k).getD c
          if c.last then finishLast s1 k j c
          else
            let p := slideDone 64 c.low (c.done ||| (1#64 <<< (j - c.low)))
            let c' := { c with low := p.1, done := p.2, moved := smDel c.moved j }
            let s1 := { s1 with copies := if tChunks c.tmpl ≤ p.1 then smDel s1.copies k else smPut s1.copies k c' }
            tidyCopy c (countChunk s1 c' (chunkCount c j)))
/-- COPY_CHUNK_FAULT (R249): the chunk meets a fault; the copy parks or is abandoned, with one record, and ERR is set. What
the chunk has moved before stays moved. -/
def execCopyChunkFault (k j : Nat) (s : State) : Res :=
  .next (
    match smFind s.copies k with
    | none => s
    | some c =>
      if !chunkOpen c j then s
      else match moveChunk c k j s with
        | .done _ => s
        | .wait .. => s
        | .fault s n code a =>
          let c := (smFind s.copies k).getD c
          if c.last then finishLast s k j c
          else
            let c := { c with moved := smSet c.moved j n 0 }
            let s1 := postRec s c.ctx (copyRec c code (BitVec.ofNat 64 a))
            tidyCopy c (if parksAs code then
              barSetErr { s1 with copies := smPut s1.copies k { c with parked := true, setErr := true } } c.barWg c.barAddr false
            else barSetErr { s1 with copies := smDel s1.copies k } c.barWg c.barAddr true))
/-- Go on with a chunk in flight, whatever it comes to. -/
def tryChunk (k : Nat) (s : State) (j : Nat) : State :=
  match execCopyChunkPerformed k j s with
  | .next s => (match execCopyChunkFault k j s with | .next s => s | _ => s)
  | _ => s
/-- A copy of a workgroup that is discarded (R371): its chunks in flight complete, as far as they can now and then as they
can, the map's resources being those of the gangs that are still there (log 59); one with none is abandoned at once. -/
def lastChunks (s : State) (k : Nat) : State :=
  match smFind s.copies k with
  | none => s
  | some c =>
    if c.parked || c.moved.isEmpty then { s with copies := smDel s.copies k }
    else
      let s := (List.map Prod.fst c.moved).foldl (tryChunk k) (s.adjCopy k fun c => { c with last := true })
      s.adjCopy k fun c => { c with cluster := none }
/-- The parked copies of a context that count on a barrier. -/
def parkedOn (s : State) (ctx wg a : Nat) : List Nat :=
  smKeys (fun _ (c : Copy) => c.parked && c.ctx == ctx && c.barWg == wg && c.barAddr == a) s.copies
/-- FRESOLVE replay of ASYNC_FAULT (R250): ERR clears and the parked copies resume. -/
def resumeCopies (s : State) (ctx wg a : Nat) : State :=
  barClearErr ((parkedOn s ctx wg a).foldl (fun s k => s.adjCopy k fun c => { c with parked := false }) s) wg a
/-- FRESOLVE terminate of ASYNC_FAULT (R250): the parked copies are abandoned; ERR stays. -/
def abandonOn (s : State) (ctx wg a : Nat) : State := (parkedOn s ctx wg a).foldl abandonCopy s
/-- FRESOLVE skip of ASYNC_FAULT (R250): the same, and ERR clears. -/
def dropCopies (s : State) (ctx wg a : Nat) : State := barClearErr (abandonOn s ctx wg a) wg a

end Sys2Proof.Machine
end

