-- ==== Sys2Proof/Machine/Penumbra.lean ====
section
/-! DEFINITION. The Penumbra engine (R271-R284, R393, R394, R30-R37): bindings, steps and rounds, strips and fills, ghost
regions and their tags, the exchange between engines, and the words GBIND, GSTEP and GWAIT. -/
namespace Sys2Proof.Machine

/-! Elements of a round (R276, R277). -/

def dN (d : BitVec 1024) (e : Nat) : Int := if e < dRank d then (dLocal d e : Int) else 1
/-- Coordinates from lo, n of them. -/
def span (lo : Int) (n : Nat) : List Int := (List.range n).map fun (i : Nat) => lo + (i : Int)
/-- The coordinates of dimension e among elements owned by a face of dimension d: its own ghost layers in dimensions below,
the interior above (R276). -/
def ownDim (d : BitVec 1024) (fd e : Nat) : List Int :=
  if dRank d ≤ e then [0]
  else if e < fd then span (-(dWidth d (2 * e) : Int)) (dLocal d e + dWidth d (2 * e) + dWidth d (2 * e + 1))
  else span 0 (dLocal d e)
/-- Triples of coordinates, dimension 0 fastest. -/
def grid3 (x y z : List Int) : List (List Int) := z.flatMap fun c => y.flatMap fun b => x.map fun a => [a, b, c]
/-- The elements with a given list in the face's own dimension. -/
def faceGrid (d : BitVec 1024) (fd : Nat) (xs : List Int) : List (List Int) :=
  let dim := fun e => if e = fd then xs else ownDim d fd e
  grid3 (dim 0) (dim 1) (dim 2)
/-- The elements that face k's fill computes: out of range in k's dimension and in range above it (R277). -/
def ownElems (d : BitVec 1024) (k : Nat) : List (List Int) :=
  let b := boxDim d k (k / 2)
  faceGrid d (k / 2) (span b.1 b.2)
/-- The elements that an outbound face j sends, in the order of the receiver's `ownElems`: its layers nearest the face. -/
def stripElems (d : BitVec 1024) (j : Nat) : List (List Int) :=
  let w := dWidth d (j ^^^ 1)
  faceGrid d (j / 2) (if j % 2 = 0 then span 0 w else span (dN d (j / 2) - (w : Int)) w)
/-- The dimensions in which a coordinate lies out of range. -/
def outDims (d : BitVec 1024) (x : List Int) : List Nat :=
  (List.range 3).filter fun e => decide (e < dRank d) && (decide (x.getD e 0 < 0) || decide (dN d e ≤ x.getD e 0))
/-- The face that holds an element computed at the stage of dimension e. -/
def sideFace (d : BitVec 1024) (e : Nat) (x : List Int) : Nat := 2 * e + if dN d e ≤ x.getD e 0 then 1 else 0
/-- The VA of a ghost element in a face's buffer (R272). -/
def ghostVa (d : BitVec 1024) (k buf : Nat) (x : List Int) : Nat :=
  dGhost d + boxBase d k buf + boxIndex d k x * dSize d
/-- The VA of an element of round r, and the tag of its region when it is a ghost (R27, R276). -/
def elemPlace (d : BitVec 1024) (r : Nat) (x : List Int) : Nat × Option Nat :=
  match (outDims d x).getLast? with
  | none =>
    (((dIbase d : Int) + x.getD 0 0 * dSize d + x.getD 1 0 * dStride d 1 + x.getD 2 0 * dStride d 2).toNat % 2 ^ 64, none)
  | some e =>
    let f := sideFace d e x
    (ghostVa d f (r % 2) x, some (tagKey f (r % 2) (regionOf d f x)))

/-! Boundary codes (R30). -/

def gridFmt (f : Nat) : Option Fmt :=
  match f with | 3 => some f16 | 4 => some bf16 | 5 => some f32 | 6 => some f64 | _ => none
/-- Neg: the sign bit, or for i32 the saturated negation. -/
def gridNeg (fmt a : Nat) : Nat :=
  match gridFmt fmt with
  | some f => if f.neg a then a - f.signBit else a + f.signBit
  | none => toTwos 32 (satTo true 32 (-(ofTwos true 32 a)))
/-- RoundTo(2a - b): exact, rounded once; NaN operands by ProcessNaN(a, b). -/
def gridExtrap (fmt a b : Nat) : Nat :=
  match gridFmt fmt with
  | some f =>
    if isNaN f a || isNaN f b then (processNaN f f [a, b]).1
    else (fpFma f 0 false a ((f.bias + 1) * 2 ^ f.fw) (if f.neg b then b - f.signBit else b + f.signBit)).1
  | none => toTwos 32 (satTo true 32 (2 * ofTwos true 32 a - ofTwos true 32 b))
/-- g(j) from g(0) and g(-1). -/
def extrapTo (fmt : Nat) : Nat → Nat → Nat → Nat
  | 0, g0, _ => g0
  | n + 1, g0, g1 => extrapTo fmt n (gridExtrap fmt g0 g1) g0
/-- The element with another coordinate in one dimension. -/
def setDim (x : List Int) (e : Nat) (v : Int) : List Int := x.set e v
/-- The layer of a boundary ghost element, from 1. -/
def layerOf (d : BitVec 1024) (k : Nat) (x : List Int) : Nat :=
  (if k % 2 = 0 then -(x.getD (k / 2) 0) else x.getD (k / 2) 0 - dN d (k / 2) + 1).toNat
/-- What the fill of a boundary element reads. -/
def fillReads (d : BitVec 1024) (k : Nat) (x : List Int) : List (List Int) :=
  let u := fun (i : Int) => setDim x (k / 2) (if k % 2 = 0 then i else dN d (k / 2) - 1 - i)
  match dCode d k with
  | 4 | 5 => [u ((layerOf d k x : Int) - 1)]
  | 6 => [u 0, u 1]
  | _ => []
/-- The fill of a boundary element from what it read. -/
def fillValue (d : BitVec 1024) (k : Nat) (x : List Int) (vs : List Nat) : Nat :=
  match dCode d k with
  | 2 => dConst d k
  | 4 => vs.getD 0 0
  | 5 => gridNeg (dFmt d) (vs.getD 0 0)
  | 6 => extrapTo (dFmt d) (layerOf d k x) (vs.getD 0 0) (vs.getD 1 0)
  | _ => 0

/-! Accesses of the engine (R284). -/

/-- What an engine's access to the elements of a list came to. -/
inductive Vals where
  | ok (s : State) (vs : List (Nat × Bool))
  | wait (s : State)
  | fault (s : State) (c : Code) (va : Nat)
/-- Read the elements at VAs; each has a mark of its own under `tok`. -/
def readElems (ctx n : Nat) (tok : List Nat) : List Nat → State → Vals
  | [], s => .ok s []
  | va :: l, s =>
    match reach s ctx (s.winOf ctx) va .load with
    | .fault c => .fault s c va
    | .map _ => .fault s .permission va
    | .spot s x =>
      match engineDo s ctx (tok ++ [l.length]) x n .load with
      | .wait s _ => .wait s
      | .fault s c parks => .fault s (asyncCode c parks) va
      | .done s f => match readElems ctx n tok l s with
        | .ok s vs => .ok s ((leNat f.data, f.psn.isSome) :: vs)
        | r => r
/-- Write elements at VAs at their home slices, on a remote page by counted writes on the binding's stream (R209); poison
travels (R378). -/
def writeElems (ctx n stream : Nat) (tok : List Nat) : List (Nat × Nat × Bool) → State → Vals
  | [], s => .ok s []
  | (va, v, psn) :: l, s =>
    match reach s ctx (s.winOf ctx) va .store with
    | .fault c => .fault s c va
    | .map _ => .fault s .permission va
    | .spot s x =>
      match engineDo s ctx (tok ++ [l.length]) x n (.store (toBytes n v)) none psn stream with
      | .wait s _ => .wait s
      | .fault s c parks => .fault s (asyncCode c parks) va
      | .done s _ => writeElems ctx n stream tok l (if psn then markPoison s x else s)
/-- Elements that have to wait before any is written (R345): those that hold the others back have asked for what they need. None
where nothing holds them back. -/
def elemsWait (ctx n stream : Nat) (tok : List Nat) : List (Nat × Nat × Bool) → State → Option State
  | [], _ => none
  | (va, v, _) :: l, s =>
    match reach s ctx (s.winOf ctx) va .store with
    | .spot s1 x =>
      match engineDo s1 ctx (tok ++ [l.length]) x n (.store (toBytes n v)) none false stream with
      | .wait s1 _ => some ((elemsWait ctx n stream tok l s1).getD s1)
      | _ => elemsWait ctx n stream tok l s
    | _ => elemsWait ctx n stream tok l s
/-- Values for the elements of a list, each from what it reads. -/
def computeElems (ctx n : Nat) (tok : List Nat) (place : List Int → Nat) (f : List Int → List Nat → Nat) :
    List (List Int × List (List Int)) → State → Vals
  | [], s => .ok s []
  | (x, rs) :: l, s =>
    match readElems ctx n (tok ++ [l.length]) (rs.map place) s with
    | .ok s vs => match computeElems ctx n tok place f l s with
      | .ok s r => .ok s ((f x (vs.map Prod.fst), vs.any Prod.snd) :: r)
      | r => r
    | r => r

def Binding.face (b : Binding) (k : Nat) : Face := smGet b.faces k ⟨.idle, 0, [], false, none, 0, 0, [], false⟩
def State.adjFace (s : State) (bid k : Nat) (f : Face → Face) : State :=
  s.adjBind bid fun b => { b with faces := smPut b.faces k (f (b.face k)) }
def Binding.d (b : Binding) : BitVec 1024 := b.desc
/-- Outbound faces with something to send, receiving faces, and boundary faces with something to fill (R276). -/
def Binding.outs (b : Binding) : List Nat := (sharedFaces b.desc).filter fun k => dWidth b.desc (k ^^^ 1) != 0
def Binding.ins (b : Binding) : List Nat := (wideFaces b.desc).filter (exchanged b.desc)
def Binding.bounds (b : Binding) : List Nat := (wideFaces b.desc).filter fun k => !exchanged b.desc k
/-- Owner entries of this partition and of a face's neighbour (R28). -/
def Binding.ownEntry (b : Binding) : B32 := smGet b.owners (partIndex b.desc (selfCoord b.desc)) 0
def Binding.nbEntry (b : Binding) (k : Nat) : B32 := smGet b.owners (partIndex b.desc (neighbour b.desc k)) 0
def entPeer (e : B32) : Nat := fld e.toNat 5 9
def entSock (e : B32) : Nat := fld e.toNat 0 5
/-- The face's neighbour lies in this package. -/
def nbLocal (s : State) (b : Binding) (k : Nat) : Bool := entPeer (b.nbEntry k) == s.pf.peerid.toNat
/-- An inter-package face exists (R34, R275). -/
def farGrid (s : State) (b : Binding) : Bool := (allFaces b.desc).any fun k => !nbLocal s b k
/-- The local binding that a face's partner is, once found. -/
def partnerOf (s : State) (b : Binding) (k : Nat) : Option (Nat × Binding) :=
  if nbLocal s b k then (b.face k).partner.bind fun p => (smFind s.binds p).map (p, ·) else none

/-- The engine's record (R284, R364). -/
def penRec (b : Binding) (code : Code) (k r : Nat) (addr : Nat) : Rec :=
  ⟨code, .async, 3, entSock b.ownEntry, none, 0, 0, 0, BitVec.ofNat 64 addr, b.va, BitVec.ofNat 64 (k + r * 256), 0, false, none⟩
/-- Kinds of a face's accesses, each held on its own: reading the strip, sending it, another partition's send into it, and
filling or copying a region. -/
def kRead : Nat := 0
def kSend : Nat := 1
def kTake : Nat := 2
def kFill (reg : Nat) : Nat := 3 + reg
/-- A face's access of a kind is held by a parking fault whose retry is not yet due. -/
def faceHeld (s : State) (f : Face) (kind : Nat) : Bool := decide (s.now < smGet f.held kind 0)
/-- The mark of a face's access. -/
def faceTok (bid k kind r : Nat) : List Nat := [2, bid, k, kind, r]
/-- An access is to be tried again: peers that have refused a part of it are asked anew. -/
def dropRefused (s : State) (tok : List Nat) : State :=
  s.setFab { s.fab with reqs := smKeep (fun _ q => !(tok.isPrefixOf q.tok && q.op.isNone
    && match q.ans with | some (.fault ..) => true | _ => false)) s.fab.reqs }
/-- A fault of an engine's access for a face (R284): a parking fault holds it, with one record until the access succeeds;
another breaks the binding. -/
def faceFault (s : State) (bid k kind r : Nat) (c : Code) (va : Nat) : State :=
  match smFind s.binds bid with
  | none => s
  | some b =>
    if parksAs c then
      let s := if (smFind (b.face k).held kind).isNone then postRec s b.ctx (penRec b c k r va) else s
      (dropRefused s (faceTok bid k kind r)).adjFace bid k fun f => { f with held := smPut f.held kind (s.now + 10000) }
    else (dropTok s [2, bid]).adjBind bid fun b => { b with broken := true }
/-- A face's access of a kind has succeeded. -/
def faceOk (s : State) (bid k kind : Nat) (tok : List Nat) : State :=
  (dropTok s tok).adjFace bid k fun f => { f with held := smDel f.held kind }

/-! Rounds. -/

/-- The round that a face is at. -/
def Face.cur (f : Face) : Nat := f.round - 1
/-- A face has passed WAITREL and READ of round r. -/
def pastRead (f : Face) (r : Nat) : Bool :=
  decide (r + 1 < f.round) || (f.round == r + 1 && f.st != .waitRel && f.st != .read)
/-- Every outbound face and boundary fill of round r has been read (R275). -/
def roundRead (b : Binding) (r : Nat) : Bool := (b.outs ++ b.bounds).all fun k => pastRead (b.face k) r
/-- Idle faces enter the next committed round (R279). -/
def advance (s : State) (bid : Nat) : State :=
  match smFind s.binds bid with
  | none => s
  | some b =>
    if b.ending || b.broken then s
    else (b.outs ++ b.bounds).dedup.foldl (fun s k =>
      let f := b.face k
      if f.st == .idle && decide (f.round * dDepth b.desc < b.steps) then
        s.adjFace bid k fun f => { f with st := .waitRel, round := f.round + 1, strip := [], started := false }
      else s) s
/-- The flag value of a close or notice (R281). -/
def grelVal (ntc : Bool) (face r : Nat) : B64 :=
  BitVec.ofNat 64 ((if ntc then 2 ^ 59 else 0) + face * 2 ^ 56 + r % 2 ^ 52)
/-- The binding's send entry toward a face's peer is open (R394). -/
def pairOpen (s : State) (b : Binding) (k : Nat) : Bool :=
  (smFind s.fab.send (pairKey b.ctx (dStream b.desc) (entPeer (b.nbEntry k)))).any (·.st == .opened)
/-- Send the latest commit notice on a receiving face toward another package (R278, R281); a pair that is not open breaks
the binding (log 42). -/
def sendNotice (s : State) (bid : Nat) (b : Binding) (k : Nat) : State :=
  match (b.face k).partner with
  | some n =>
    if nbLocal s b k then s
    else if !pairOpen s b k then s.adjBind bid fun b => { b with broken := true }
    else closeBatch s b.ctx (dStream b.desc) (entPeer (b.nbEntry k)) 0x0b (n * 2 ^ 40)
      (grelVal true (k ^^^ 1) ((b.noted - 1) / dDepth b.desc))
  | none => s
/-- A fragment that waits for a committed step of the binding goes on (R275): its workgroup's idempotent region ends. -/
def wakeStep (s : State) (gid e : Nat) : State :=
  match smFind s.gangs gid with
  | none => s
  | some g => (endRegion s g).adjFrag gid e fun f => { f.step with st := .ready, wait := .none }
/-- Fragments whose wait satisfies a test. -/
def waiters (s : State) (p : Gang → Wait → Bool) : List (Nat × Nat) :=
  List.flatMap (fun q : Nat × Gang => if q.2.ending.isSome then [] else
    (List.filter (fun f : Nat × Frag => p q.2 f.2.wait) q.2.frags).map fun f => (q.1, f.1)) s.gangs
/-- Send the notice that is due, and let GSTEPs and GBINDs whose step is complete go on (R275). -/
def wakeSteps (s : State) (bid : Nat) : State :=
  match smFind s.binds bid with
  | none => s
  | some b =>
    if b.broken || b.steps = 0 then s
    else
      let D := dDepth b.desc
      let r := (b.steps - 1) / D
      let due := roundRead b r && decide (b.noted < r * D + 1)
      let b' := if due then { b with noted := r * D + 1 } else b
      let s := if due then b.ins.foldl (fun s k => sendNotice s bid b' k) (s.adjBind bid fun b => { b with noted := r * D + 1 }) else s
      (waiters s fun _ w => match w with
        | .step i t => i == bid && decide (t < b.steps) && (t % D != 0 || roundRead b (t / D))
        | _ => false).foldl (fun s p => wakeStep s p.1 p.2) s
/-- The partner's notice lets round r of a face be sent (R278, R279). -/
def released (s : State) (b : Binding) (k r : Nat) : Bool :=
  decide (r ≤ 1) ||
    (let need := (r - 1) * dDepth b.desc + 1
     match partnerOf s b k with
     | some (_, y) => decide (need ≤ y.noted)
     | none => !nbLocal s b k && decide (need ≤ (b.face k).notice))

/-! Waiting on faces (R282, R283). -/

inductive FacesAt where
  | fresh | stale (k : Nat) | released (k : Nat)
  deriving DecidableEq, Repr
/-- What a tag finds over the named faces. -/
def facesAt (b : Binding) (t mask : Nat) : FacesAt :=
  let ks := (wideFaces b.desc).filter mask.testBit
  match ks with
  | [] => .fresh
  | k0 :: _ =>
    if b.steps ≠ 0 ∧ t / dDepth b.desc < (b.steps - 1) / dDepth b.desc then .released k0
    else match ks.find? fun k => !faceFresh b k t with
      | none => .fresh
      | some k => .stale k
/-- A word of a fragment and its instruction. -/
def Frag.instrAt (f : Frag) : B32 × Instr :=
  let w := f.wordAt.getD 0
  (w, (decodeTableWord 32 w.toNat).getD .nop)
/-- A GWAIT succeeds: an acquire of the fills at DEV or FAB scope. -/
def facesDone (s : State) (gid e : Nat) : State :=
  match smFind s.gangs gid with
  | none => s
  | some g => (acquireAt s g.core 3).adjFrag gid e fun f => { f.step with st := .ready, wait := .none }
/-- STALE_HALO of a GWAIT: parked, with the buffer-0 base of the lowest stale face. -/
def facesPark (s : State) (b : Binding) (gid e t mask k : Nat) : State :=
  match (smFind s.gangs gid).bind fun g => smFind g.frags e with
  | none => s
  | some f => park s gid e .staleHalo (.redo f.instrAt.2 [BitVec.ofNat 64 t, BitVec.ofNat 64 mask]) f.pc f.instrAt.1 0
      (BitVec.ofNat 64 (dGhost b.desc + boxBase b.desc k 0))
/-- Test one waiting GWAIT again. -/
def testFaces (s : State) (bid gid e : Nat) : State :=
  match smFind s.binds bid, (smFind s.gangs gid).bind fun g => smFind g.frags e with
  | some b, some f =>
    match f.wait with
    | .faces t mask _ i => if i ≠ bid then s else match facesAt b t mask with
      | .fresh => facesDone s gid e
      | .released k => facesPark s b gid e t mask k
      | .stale _ => s
    | _ => s
  | _, _ => s
/-- After a tag rises or a step commits: waiting GWAITs and stalled GLDs are tested. -/
def wakeFaces (s : State) (bid : Nat) : State :=
  redoAll ((waiters s fun _ w => match w with | .faces _ _ _ i => i == bid | _ => false).foldl
    (fun s p => testFaces s bid p.1 p.2) s)
/-- GWAIT once its mask is checked, and its replay, which waits again: in a gang that is not bound, or bound to a binding that
is broken, it takes GRID_DESCRIPTOR (R281, R282). -/
def startGwait (t mask gid e : Nat) (pc : B64) (word : B32) (s : State) : State :=
  match smFind s.gangs gid with
  | none => s
  | some g => match g.bind.bind fun b => (smFind s.binds b).map (b, ·) with
    | none => terminate s gid .gridDescriptor pc word 0 0
    | some (bid, b) =>
      if b.broken then terminate s gid .gridDescriptor pc word 0 b.va
      else match facesAt b t mask with
      | .fresh => facesDone s gid e
      | .released k => facesPark s b gid e t mask k
      | .stale k =>
        if dFault b.desc then facesPark s b gid e t mask k
        else s.adjFrag gid e fun f => { f with st := .blocked, wait := .faces t mask (s.now + 1000 * dTmo b.desc) bid }
/-- The checks of GWAIT: mask bits, then a binding that is not broken. -/
def gwaitWord (i : Instr) (gd : Guard) (x y : BitVec 6) (s : State) (k : Iss → Binding → Nat → Nat → State → State) : Res :=
  group i gd s fun u s =>
    let m := gReg u.g y.toNat
    if m >>> 6 ≠ 0 then u.term .illegalInstr s
    else match u.g.bind.bind fun b => smFind s.binds b with
      | none => u.term .gridDescriptor s
      | some b => if b.broken then u.term .gridDescriptor s 0 b.va
        else k u b ((gReg u.g x.toNat).toNat % 2 ^ 63) m.toNat s
def execGwait (g : Guard) (x y : BitVec 6) (s : State) : Res :=
  gwaitWord (.gwait g x y) g x y s fun u _ t m s => startGwait t m u.gid u.e u.f.pc u.word s
def execGwaitTry (g : Guard) (x y : BitVec 6) (z : BitVec 3) (s : State) : Res :=
  gwaitWord (.gwaitTry g x y z) g x y s fun u b t m s =>
    let ok := facesAt b t m == .fresh
    let s := if ok then acquireAt s u.g.core 3 else s
    u.adv (s.adjGang u.gid (setQReg · z.toNat ok))
/-- GWAIT_STALL_TIMEOUT (R282). A GWAIT whose gang has been unbound meanwhile waits on the binding all the same; once that has
ended there is no face to name, and the record's address is 0: the model's choice (log 42). -/
def execGwaitStallTimeout (gid e : Nat) (s : State) : Res :=
  .next (
    match smFind s.gangs gid with
    | none => s
    | some g => match smFind g.frags e with
      | none => s
      | some f => match f.wait with
        | .faces t mask dl bid =>
          if s.now < dl || g.ending.isSome then s
          else match smFind s.binds bid with
            | none => park s gid e .staleHalo (.redo f.instrAt.2 [BitVec.ofNat 64 t, BitVec.ofNat 64 mask]) f.pc f.instrAt.1 0 0
            | some b => match facesAt b t mask with
              | .fresh => facesDone s gid e
              | .stale k | .released k => facesPark s b gid e t mask k
        | _ => s)

/-! Regions, tags and the completion counter (R277, R34). -/

/-- Every ghost buffer holds the next round that is to be counted. A grid without ghost buffers receives no round
(log 42). -/
def roundFull (b : Binding) : Bool :=
  wideFaces b.desc != [] && (wideFaces b.desc).all fun k => (regionsOf b.desc k).all fun g =>
    decide (b.rounds * dDepth b.desc + 1 ≤ smGet b.tags (tagKey k (b.rounds % 2) g) 0)
/-- Count one received round: 1 is added to the completion counter once the add can be made. -/
def countOne (s : State) (bid : Nat) (b : Binding) : State :=
  let r := b.rounds
  if !roundFull b || b.broken || decide (s.now < b.cntRetry) then s
  else if dCcnt b.desc = 0 then s.adjBind bid fun b => { b with rounds := r + 1 }
  else match addCounter s b.ctx (dStream b.desc) [2, bid, 6] true (BitVec.ofNat 64 (dCcnt b.desc)) 1 with
    | .done s => s.adjBind bid fun b => { b with rounds := r + 1, cntRetry := 0, cntPosted := false }
    | .wait s => s
    | .fault s c =>
      if parksAs c then
        let s := if b.cntPosted then s else postRec s b.ctx (penRec b c 0 r (dCcnt b.desc))
        s.adjBind bid fun b => { b with cntRetry := s.now + 10000, cntPosted := true }
      else s.adjBind bid fun b => { b with broken := true }
/-- Count the rounds that every ghost buffer has received (R34), as far as the adds can be made. -/
def countRound (bid : Nat) : Nat → State → State
  | 0, s => s
  | n + 1, s =>
    match smFind s.binds bid with
    | none => s
    | some b => if roundFull b then countRound bid n (countOne s bid b) else s
/-- Raise a region's tag, then count, and let what waits go on. -/
def raiseTag (s : State) (bid key tag : Nat) : State :=
  let s := s.adjBind bid fun b => { b with tags := smPut b.tags key (max tag (smGet b.tags key 0)) }
  wakeFaces (countRound bid 3 s) bid
/-- Higher dimensions in which a region lies out of range. -/
def higherOut (d : BitVec 1024) (k : Nat) (x : List Int) : Option Nat := ((outDims d x).filter (k / 2 < ·)).getLast?
/-- The elements of a region of face k. -/
def regionElems (d : BitVec 1024) (k reg : Nat) : List (List Int) :=
  ((List.range (boxCount d k)).map (boxCoord d k)).filter fun x => regionOf d k x == reg
/-- A boundary face whose own regions all hold round r leaves its outbound states (R279). -/
def boundDone (s : State) (bid k r : Nat) : State :=
  match smFind s.binds bid with
  | none => s
  | some b =>
    let mine := (regionsOf b.desc k).filter fun g => match regionElems b.desc k g with
      | x :: _ => (higherOut b.desc k x).isNone
      | [] => false
    if mine.all fun g => decide (r * dDepth b.desc + 1 ≤ smGet b.tags (tagKey k (r % 2) g) 0) then
      wakeSteps (advance (s.adjFace bid k fun f => { f with st := .idle, strip := [] }) bid) bid
    else s
/-- Copy a region from the face at whose stage it was computed (R277), in the buffer where that face is ahead. -/
def copyRegion (s : State) (bid : Nat) (b : Binding) (k reg e : Nat) (xs : List (List Int)) : State :=
  let x0 := xs.getD 0 []
  let f := sideFace b.desc e x0
  let fr := regionOf b.desc f x0
  match [0, 1].find? fun h => decide (smGet b.tags (tagKey k h reg) 0 < smGet b.tags (tagKey f h fr) 0) with
  | none => s
  | some h =>
    let n := dSize b.desc
    let tag := smGet b.tags (tagKey f h fr) 0
    let r := (tag - 1) / dDepth b.desc
    let tok := faceTok bid k (kFill reg) r
    match readElems b.ctx n (tok ++ [0]) (xs.map (ghostVa b.desc f h)) s with
    | .wait s => s
    | .fault s c va => faceFault s bid k (kFill reg) r c va
    | .ok s vs => match writeElems b.ctx n (dStream b.desc) (tok ++ [1]) ((xs.map (ghostVa b.desc k h)).zip vs) s with
      | .wait s => s
      | .fault s c va => faceFault s bid k (kFill reg) r c va
      | .ok s _ => raiseTag (faceOk s bid k (kFill reg) tok) bid (tagKey k h reg) tag
/-- The places read lie in the interior, or in regions that hold round r. -/
def readsReady (b : Binding) (r : Nat) (xs : List (List Int)) : Bool :=
  xs.all fun x => match (elemPlace b.desc r x).2 with
    | none => true
    | some t => smGet b.tags t 0 == r * dDepth b.desc + 1
/-- Fill a region of a boundary face by its code (R30): main-region values come from the strip read at the commit. -/
def fillRegion (s : State) (bid : Nat) (b : Binding) (k reg : Nat) (xs : List (List Int)) : State :=
  let f := b.face k
  let r := f.cur
  let tag := r * dDepth b.desc + 1
  let reads := xs.map fun x => (x, fillReads b.desc k x)
  if (f.st != .waitLow && f.st != .send) || decide (tag ≤ smGet b.tags (tagKey k (r % 2) reg) 0)
      || !readsReady b r (reads.flatMap Prod.snd) then s
  else
    let n := dSize b.desc
    let own := ownElems b.desc k
    let tok := faceTok bid k (kFill reg) r
    let strip := fun x => f.strip.getD (own.idxOf x) (0, false)
    let vals : Vals :=
      if xs.all fun x => outDims b.desc x == [k / 2] then .ok s (xs.map strip)
      else computeElems b.ctx n (tok ++ [0]) (fun x => (elemPlace b.desc r x).1) (fillValue b.desc k) reads s
    match vals with
    | .wait s => s
    | .fault s c va => faceFault s bid k (kFill reg) f.cur c va
    | .ok s vs =>
      match writeElems b.ctx n (dStream b.desc) (tok ++ [1]) ((xs.map (ghostVa b.desc k (r % 2))).zip vs) s with
      | .wait s => s
      | .fault s c va => faceFault s bid k (kFill reg) f.cur c va
      | .ok s _ => boundDone (raiseTag (faceOk s bid k (kFill reg) tok) bid (tagKey k (r % 2) reg) tag) bid k r
/-- Raise the tag of a region that a received strip carries. -/
def takeRegion (s : State) (bid : Nat) (b : Binding) (k reg : Nat) : State :=
  let got := (b.face k).recv
  match [got - 1, got - 2].find? fun r => decide (r < got) &&
      decide (smGet b.tags (tagKey k (r % 2) reg) 0 < r * dDepth b.desc + 1) with
  | none => s
  | some r => raiseTag s bid (tagKey k (r % 2) reg) (r * dDepth b.desc + 1)
/-- One step toward filling a region. -/
def tryRegion (s : State) (bid k reg : Nat) : State :=
  match smFind s.binds bid with
  | none => s
  | some b =>
    let xs := regionElems b.desc k reg
    if b.broken || faceHeld s (b.face k) (kFill reg) then s
    else match xs with
      | [] => s
      | x :: _ => match higherOut b.desc k x with
        | some e => copyRegion s bid b k reg e xs
        | none => if exchanged b.desc k then takeRegion s bid b k reg
          else if b.ending then s else fillRegion s bid b k reg xs
/-- GHOST_REGION_FILLED (R277). -/
def execGhostRegionFilled (b k reg : Nat) (s : State) : Res := .next (tryRegion s b k reg)

/-! Strips (R279, R280). -/

/-- The elements of a face's outbound work, each with what it reads. -/
def faceWork (b : Binding) (k : Nat) : List (List Int × List (List Int)) :=
  if exchanged b.desc k then (stripElems b.desc k).map fun x => (x, [x])
  else (ownElems b.desc k).map fun x => (x, fillReads b.desc k x)
/-- READ: the interior part, as it stands at the commit. Elements that read ghosts stay for later. -/
def tryRead (s : State) (bid k : Nat) : State :=
  match smFind s.binds bid with
  | none => s
  | some b =>
    let f := b.face k
    let go := match f.st with | .waitRel => !exchanged b.desc k || released s b k f.cur | .read => true | _ => false
    if b.broken || b.ending || faceHeld s f kRead || !go then s
    else
      let s := s.adjFace bid k fun f => { f with st := .read }
      let inner := fun (p : List Int × List (List Int)) =>
        p.2.all (fun x => (outDims b.desc x).isEmpty) && (exchanged b.desc k || outDims b.desc p.1 == [k / 2])
      let work := faceWork b k
      let f' := fun x vs => if exchanged b.desc k then vs.getD 0 0 else fillValue b.desc k x vs
      let tok := faceTok bid k kRead f.cur
      match computeElems b.ctx (dSize b.desc) tok (fun x => (elemPlace b.desc f.cur x).1) f'
          (work.map fun p => (p.1, if inner p then p.2 else [])) s with
      | .wait s => s
      | .fault s c va => faceFault s bid k kRead f.cur c va
      | .ok s vs =>
        let s := (faceOk s bid k kRead tok).adjFace bid k fun f =>
          { f with strip := vs, st := if k / 2 = 0 then .send else .waitLow }
        wakeSteps s bid
/-- FACE_STRIP_READ (R279). -/
def execFaceStripRead (b k : Nat) (s : State) : Res := .next (tryRead s b k)
/-- The face's round is sent (R279): it is idle, and may enter the next committed round. -/
def sendDone (s : State) (bid k : Nat) : State :=
  wakeSteps (advance (s.adjFace bid k fun f => { f with st := .idle, strip := [], started := false }) bid) bid
/-- SEND across the interposer: writes through the receiver's windows (R280). -/
def sendLocal (s : State) (bid k : Nat) (yid : Nat) (y : Binding) (r : Nat) (vs : List (Nat × Bool)) : State :=
  let j := k ^^^ 1
  let tok := faceTok yid j kTake r
  if y.broken then sendDone s bid k
  else if faceHeld s (y.face j) kTake then s
  else
    let s := s.adjFace bid k fun f => { f with started := true }
    match writeElems y.ctx (dSize y.desc) (dStream y.desc) tok (((ownElems y.desc j).map (ghostVa y.desc j (r % 2))).zip vs) s with
    | .wait s => s
    | .fault s c va =>
      let s := faceFault s yid j kTake r c va
      if parksAs c then s else sendDone s bid k
    | .ok s _ => sendDone ((faceOk s yid j kTake tok).adjFace yid j fun f => { f with recv := r + 1 }) bid k
/-- SEND on the fabric: counted writes at the receiver's ghost offsets, closed by a release (R281, R394). The round stays
in SEND until its close is delivered (R279); a pair that is not open breaks the binding (log 42). -/
def sendFar (s : State) (bid : Nat) (b : Binding) (k num r : Nat) (vs : List (Nat × Bool)) : State :=
  let j := k ^^^ 1
  let peer := entPeer (b.nbEntry k)
  let st := dStream b.desc
  -- the receiver's descriptor differs along the face's dimension only
  let nb := neighbour b.desc k
  let yd := BitVec.ofNat 1024 ((List.range 3).foldl (fun v e => setFld v (256 + 8 * e) 8 (nb.getD e 0)) b.desc.toNat)
  let offs := (ownElems yd j).map fun x => boxBase yd j (r % 2) + boxIndex yd j x * dSize yd
  match smFind s.fab.send (pairKey b.ctx st peer) with
  | none => s.adjBind bid fun b => { b with broken := true }
  | some e =>
    if e.st = .refused then s.adjBind bid fun b => { b with broken := true }
    else if 2 ^ 30 < e.wc.toNat + vs.length || livePlanes s == [] then s
    else
      let s1 := (offs.zip vs).foldl (fun s p =>
        sendCounted s b.ctx st peer 0x0a (num * 2 ^ 40 + p.1) (toBytes (dSize yd) p.2.1) p.2.2) s
      let s1 := closeBatch s1 b.ctx st peer 0x0b (num * 2 ^ 40) (grelVal false j r)
      s1.adjFace bid k fun f => { f with started := true }
/-- Every write of a face's round has been performed at the receiving package, and its close is delivered (R279). -/
def takeDelivery (s : State) (bid k r : Nat) : State :=
  match smFind s.binds bid with
  | none => s
  | some b =>
    let f := b.face k
    if !nbLocal s b k && f.st == .send && f.started && f.cur == r then sendDone s bid k else s
/-- WAITLOW and SEND of an exchanged face. -/
def trySend (s : State) (bid k : Nat) : State :=
  match smFind s.binds bid with
  | none => s
  | some b =>
    let f := b.face k
    let r := f.cur
    let work := faceWork b k
    if b.broken || (b.ending && !f.started) || faceHeld s f kSend || !exchanged b.desc k
        || (f.st != .waitLow && f.st != .send) then s
    else if f.started && !nbLocal s b k then s
    else if !readsReady b r (work.map Prod.fst) then s
    else
      let s := s.adjFace bid k fun f => { f with st := .send }
      match f.partner with
      | none => s
      | some num =>
        let low := fun (p : List Int × List (List Int)) => !(outDims b.desc p.1).isEmpty
        let tok := faceTok bid k kSend r
        match computeElems b.ctx (dSize b.desc) tok (fun x => (elemPlace b.desc r x).1) (fun _ vs => vs.getD 0 0)
            (work.filter low) s with
        | .wait s => s
        | .fault s c va => faceFault s bid k kSend f.cur c va
        | .ok s lows =>
          let s := faceOk s bid k kSend tok
          let lowEls := (work.filter low).map Prod.fst
          let vs := (work.zip f.strip).map fun p =>
            if low p.1 then lows.getD (lowEls.idxOf p.1.1) (0, false) else p.2
          if nbLocal s b k then
            match smFind s.binds num with
            | some y => sendLocal s bid k num y r vs
            | none => s.adjFace bid k fun f => { f with partner := none }
          else sendFar s bid b k num r vs
/-- FACE_SEND_DONE (R279). -/
def execFaceSendDone (b k : Nat) (s : State) : Res := .next (trySend s b k)
/-- PENUMBRA_FAULT_RETRY (R284): the held accesses of a face are tried again; face 6 stands for the completion counter. -/
def execPenumbraFaultRetry (bid k : Nat) (s : State) : Res :=
  .next (
    match smFind s.binds bid with
    | none => s
    | some b =>
      if k = 6 then countRound bid 3 s
      else
        let held := (b.face k).held
        let s := if (smFind held kRead).isSome then tryRead s bid k else s
        let s := if (smFind held kSend).isSome then trySend s bid k else s
        -- a send into this face is its sender's access
        let s := match (smFind held kTake), partnerOf s b k with
          | some _, some (yid, _) => trySend s yid (k ^^^ 1)
          | _, _ => s
        (regionsOf b.desc k).foldl (fun s r => if (smFind held (kFill r)).isSome then tryRegion s bid k r else s) s)

/-! The exchange (R31, R393). -/

/-- The fields that descriptors of one grid share (R31). -/
def sharedFields (d : BitVec 1024) : List B64 :=
  [BitVec.ofNat 64 (dfld d 0 28), BitVec.ofNat 64 (dfld d 32 24), BitVec.ofNat 64 (dfld d 64 18), BitVec.ofNat 64 (dTmo d),
    BitVec.ofNat 64 (dfld d 128 64), BitVec.ofNat 64 (dfld d 192 32), BitVec.ofNat 64 (dfld d 224 24)] ++
    (List.range 6).map fun k => BitVec.ofNat 64 (dConst d k)
/-- Owner entries as index and entry. -/
def ownerWords (o : SMap B32) : List B64 := List.map (fun p => BitVec.ofNat 64 (p.1 * 2 ^ 32 + p.2.toNat)) o
/-- The shared fields agree, and so do the owner entries that both have read: an engine has no others (R35). That the
digest covers just these is the model's choice (log 42). -/
def sharedAgree (b : Binding) (w : List B64) : Bool :=
  w.take 13 == sharedFields b.desc && (w.drop 13).all fun x =>
    match smFind b.owners (x.toNat / 2 ^ 32) with
    | some e => e.toNat == x.toNat % 2 ^ 32
    | none => true
/-- The binding that serves a partition on this package's engine of a socket, among those that a test admits (R393). -/
def findBinding (s : State) (ok : Binding → Bool) (sock : Nat) (coord : List Nat) (stream : Nat) : Option (Nat × Binding) :=
  List.find? (fun p : Nat × Binding => ok p.2 && entSock p.2.ownEntry == sock && !p.2.ending && selfCoord p.2.desc == coord
    && dStream p.2.desc == stream) s.binds
/-- An entry as GRID_DESCRIPTOR names it (R31). -/
def nameEntry (e : B32) : B64 := BitVec.ofNat 64 (e.toNat % 2 ^ 14)
/-- A binding's exchange fails: its next GSTEP names the other partition (R31). -/
def setBad (s : State) (bid : Nat) (e : B32) : State := s.adjBind bid fun b => { b with bad := some (nameEntry e) }
/-- With no binding of the tenant at a face's neighbour: a binding of another tenant there that takes this one for its own
neighbour, and has none of its tenant in that place, receives GRID_DESCRIPTOR (R280, log 42). -/
def strangers (s : State) (b : Binding) (k : Nat) : State :=
  let mine := fun (y : Binding) => y.ten != b.ten && exchanged y.desc (k ^^^ 1) && y.nbEntry (k ^^^ 1) == b.ownEntry
    && (y.face (k ^^^ 1)).partner.isNone
    && (findBinding s (fun z => z.ten == y.ten) (entSock b.ownEntry) (selfCoord b.desc) (dStream b.desc)).isNone
    && sharedAgree b (sharedFields y.desc ++ ownerWords y.owners)
  match findBinding s mine (entSock (b.nbEntry k)) (neighbour b.desc k) (dStream b.desc) with
  | some (yid, _) => setBad s yid b.ownEntry
  | none => s
/-- Search for a face's partner: among this package's bindings of the tenant, or by a control message to the peer's
engine (message kind 3, log 8), whose digest is a free value (log 7). -/
def searchPartner (s : State) (bid k : Nat) : State :=
  match smFind s.binds bid with
  | none => s
  | some b =>
    let sock := entSock (b.nbEntry k)
    if b.broken || b.ending || (b.face k).partner.isSome || !(sharedFaces b.desc).contains k then s
    else if nbLocal s b k then
      match findBinding s (fun y => y.ten == b.ten) sock (neighbour b.desc k) (dStream b.desc) with
      | none => strangers s b k
      | some (yid, y) =>
        if sharedAgree b (sharedFields y.desc ++ ownerWords y.owners) then
          s.adjFace bid k fun f => { f with partner := some yid }
        else setBad (setBad s bid (b.nbEntry k)) yid b.ownEntry
    else if (b.face k).asked then s
    else
      let body := [3#8, BitVec.ofNat 8 bid, BitVec.ofNat 8 k, BitVec.ofNat 8 sock, BitVec.ofNat 8 (entSock b.ownEntry)]
        ++ (neighbour b.desc k).map (BitVec.ofNat 8 ·)
        ++ toBytes 32 (Config.gridDigest (sharedFields b.desc ++ ownerWords b.owners))
      sendFlit (s.adjFace bid k fun f => { f with asked := true })
        (mkFlit s 0x08 (entPeer (b.nbEntry k)) (dStream b.desc) b.ctx 0 0 0 body false)
/-- A peer's engine at a socket asks for a partition at a socket of this package, for its own face (R393): the binding of
the context that owns the open arrival entry, and the reply with its number and whether the digests agree, on the plane of the
request (R326). A mismatch names the asker (R31). -/
def answerExchange (s : State) (port peer sctx stream sock asker : Nat) (coord : List Nat) (shared : List B64) : State :=
  let own := ((smFind s.fab.arr (arrKey peer sctx stream)).filter fun a => a.st == .opened).map (·.owner)
  let hit := own.bind fun c => findBinding s (fun y => y.ctx == c) sock coord stream
  let agree := match hit with | some (_, y) => sharedAgree y shared | none => false
  let s := match hit with
    | some (yid, _) => if agree then s else setBad s yid (BitVec.ofNat 32 (peer % 512 * 32 + asker % 32))
    | none => s
  let body := [3#8, match hit with | some (_, y) => BitVec.ofNat 8 y.number | none => 0xff#8, if agree then 1 else 0]
  sendOn s (some port) (mkFlit s 0x09 peer stream sctx 0 0 0 body false)
/-- A peer's reply: its binding's number once the digests agree; the latest notice then follows. With no binding found
the engine asks again. -/
def takeReply (s : State) (bid k : Nat) (number : Option Nat) (agree : Bool) : State :=
  let s := s.adjFace bid k fun f => { f with asked := false }
  match smFind s.binds bid, number with
  | some b, some n =>
    if nbLocal s b k then s
    else if agree then
      let s := s.adjFace bid k fun f => { f with partner := some n }
      if b.noted ≠ 0 ∧ (b.ins).contains k then
        match smFind s.binds bid with | some b => sendNotice s bid b k | none => s
      else s
    else setBad s bid (b.nbEntry k)
  | _, _ => s
/-! Binding (R35, R37, R271, R273, R274). -/

/-- What reading a descriptor and its owner entries gives. -/
inductive BindRead where
  | ok (s : State) (d : BitVec 1024) (o : SMap B32)
  | wait (s : State)
  | fault (s : State) (c : Code) (va : Nat) (parks : Bool)
/-- Read owner entries by index. -/
def readOwners (ctx : Nat) (cl : Option (Nat × Nat)) (tok : List Nat) (base : Nat) : List Nat → State → SMap B32 →
    Except (Code × Nat × Bool) (Option State) × State × SMap B32
  | [], s, o => (.ok none, s, o)
  | i :: l, s, o =>
    let va := (base + 4 * i) % 2 ^ 64
    match readPart s ctx cl (tok ++ [i]) (s.winOf ctx) .load va 4 with
    | .ok s bs none => readOwners ctx cl tok base l s (smPut o i (BitVec.ofNat 32 (leNat bs)))
    | .ok s _ (some p) => (.error (.dataPoison, va + p, false), s, o)
    | .wait s => (.ok (some s), s, o)
    | .fault s c a parks => (.error (c, a, parks), s, o)
/-- Read the descriptor, check its own fields, and read the owner entries (R35). -/
def readGrid (s : State) (ctx : Nat) (cl : Option (Nat × Nat)) (tok : List Nat) (va : Nat) : BindRead :=
  match readPart s ctx cl (tok ++ [0]) (s.winOf ctx) .load va 128 with
  | .wait s => .wait s
  | .fault s c a parks => .fault s c a parks
  | .ok s bs psn =>
    let d := BitVec.ofNat 1024 (leNat bs)
    match psn with
    | some p => .fault s .dataPoison (va + p) false
    | none =>
      if !descOk d then .fault s .gridDescriptor va false
      else match readOwners ctx cl (tok ++ [1]) (dOwner d) (ownerIdx d) s [] with
        | (.error e, s, _) => .fault s e.1 e.2.1 e.2.2
        | (.ok (some s), _, _) => .wait s
        | (.ok none, s, o) => .ok s d o
/-- R37's checks on owner entries and streams. -/
def ownersOk (s : State) (ctx : Nat) (b : Binding) : Bool :=
  let far := (allFaces b.desc).filter fun k => !nbLocal s b k
  let st := dStream b.desc
  List.all b.owners (fun p => p.2.toNat / 2 ^ 14 == 0 && decide (entSock p.2 ≤ 7)) && entPeer b.ownEntry == s.pf.peerid.toNat
    && far.all (fun k =>
      let p := entPeer (b.nbEntry k)
      (smFind s.fab.send (pairKey ctx st p)).any (·.st == .opened)
        && List.any s.fab.arr fun a => a.1 / 16384 == p && a.1 % 16 == st && a.2.owner == ctx && a.2.st == .opened && !a.2.closing)
/-- The engine holds a live binding for the tenant, COORD and STREAM of another (R393). -/
def secondBinding (s : State) (b : Binding) : Bool :=
  List.any s.binds fun y => y.2.ten == b.ten && !y.2.ending && entSock y.2.ownEntry == entSock b.ownEntry
    && selfCoord y.2.desc == selfCoord b.desc && dStream y.2.desc == dStream b.desc
/-- The lowest binding number that a context does not use (R393). -/
def freeNumber (s : State) (ctx : Nat) : Nat :=
  let used := (List.filter (fun p : Nat × Binding => p.2.ctx == ctx) s.binds).map fun p => p.2.number
  ((List.range 65).find? fun n => !used.contains n).getD 0
/-- The gang becomes a participant that has arrived for step 0, or joins at the last committed step (R274). -/
def joinBinding (s : State) (bid gid e : Nat) : State :=
  match smFind s.binds bid, smFind s.gangs gid with
  | some b, some g =>
    let s := s.adjBind bid fun b => { b with parts := b.parts ++ [gid] }
    if b.steps = 0 then
      let s := s.adjBind bid fun b => { b with arrivals := smPut b.arrivals 0 (smGet b.arrivals 0 0 + 1) }
      (s.adjGang gid fun g => { g with bind := some bid, step := 0 }).adjFrag gid e fun f =>
        { f with st := .blocked, wait := .step bid 0 }
    else
      ((endRegion s g).adjGang gid fun g => { g with bind := some bid, step := b.steps - 1 }).adjFrag gid e fun f =>
        { f.step with st := .ready, wait := .none }
  | _, _ => s
/-- A bind, its operands at hand. A join is checked as the first bind is, with the fields that the engine holds (R37, R274);
a bind whose descriptor's memory is not ready has issued, and reads it later. -/
def doBind (i : Instr) (va : B64) (p gid e : Nat) (pc : B64) (word : B32) (s : State) : State :=
  match smFind s.gangs gid with
  | none => s
  | some g =>
    let tok := [9, gid, e]
    let vals := [va, BitVec.ofNat 64 p]
    let gd := fun (s : State) => terminate s gid .gridDescriptor pc word 0 va
    if g.bind.isSome ∨ va = 0 ∨ va.toNat % 128 ≠ 0 ∨ p = 0 ∨ 65535 < p then gd s
    else match List.find? (fun q : Nat × Binding => q.2.ctx == g.ctx && q.2.va == va) s.binds with
      | some (bid, b) =>
        let s := dropTok s tok
        if b.broken then gd s
        else if b.ending then s.adjFrag gid e fun f => { f with st := .blocked, wait := .bind va p }
        else if b.p ≠ p ∨ p ≤ b.parts.length ∨ !ownersOk s g.ctx b then gd s
        else joinBinding s bid gid e
      | none =>
        if Config.bindingsPerCtx ≤ (List.filter (fun q : Nat × Binding => q.2.ctx == g.ctx) s.binds).length then gd (dropTok s tok)
        else match readGrid s g.ctx (clusterOf s g.wg) tok va.toNat with
          | .wait s => redoLater s gid e i vals
          | .fault s c a parks =>
            let s := dropTok s tok
            if parks then park s gid e c (.redo i vals) pc word 0 (BitVec.ofNat 64 a)
            else terminate s gid c pc word 0 (BitVec.ofNat 64 a)
          | .ok s d o =>
            let s := dropTok s tok
            let b : Binding :=
              ⟨g.ctx, g.ten, va, d, o, p, 0, [], [], [], [], 0, 0, false, 0, false, false, none, freeNumber s g.ctx, s.next⟩
            if !ownersOk s g.ctx b || secondBinding s b then gd s
            else
              let bid := s.next
              joinBinding { s with binds := smPut s.binds bid b, next := bid + 1 } bid gid e
/-- The gang is no longer a participant; the last one leaves the binding ending, its unstarted rounds dropped (R273). -/
def unbindGang (s : State) (gid : Nat) : State :=
  match (smFind s.gangs gid).bind (·.bind) with
  | none => s
  | some bid =>
    let s := s.adjGang gid fun g => { g with bind := none, step := 0 }
    s.adjBind bid fun b =>
      let ps := b.parts.filter (· ≠ gid)
      if ps ≠ [] then { b with parts := ps }
      else { b with parts := [], ending := true,
                    faces := smMap (fun _ (f : Face) => if f.started then f else { f with st := .idle, strip := [] }) b.faces }
/-- BINDING_ENDED (R273): the started sends are complete. Binds that waited are made. -/
def execBindingEnded (bid : Nat) (s : State) : Res :=
  .next (
    match smFind s.binds bid with
    | none => s
    | some b =>
      if !b.ending || (List.any b.faces (fun p => p.2.started) && !b.broken) then s
      else
        let binds := smMap (fun _ (y : Binding) => { y with faces := smMap (fun k (f : Face) =>
          if f.partner == some bid && nbLocal s y k then { f with partner := none } else f) y.faces }) (smDel s.binds bid)
        let s := { s with binds := binds }
        (waiters s fun g w => match w with | .bind va _ => g.ctx == b.ctx && va == b.va | _ => false).foldl (fun s p =>
          match (smFind s.gangs p.1).bind fun g => smFind g.frags p.2 with
          | some f => match f.wait with
            | .bind va n => doBind f.instrAt.2 va n p.1 p.2 f.pc f.instrAt.1 s
            | _ => s
          | none => s) s)
/-- The gangs of the issuer's workgroup (R273): e1 of the launch; a Lantern gang stands alone. -/
def groupSize (s : State) (g : Gang) : Nat :=
  if g.lantern then 1 else match g.wg.bind (smFind s.wgs ·) with | some w => w.gangs.length | none => 1
def bindWord (i : Instr) (gd : Guard) (x : BitVec 6) (p : Iss → State → B64) (s : State) : Res :=
  group i gd s fun u s => doBind i (gReg u.g x.toNat) (min (p u s).toNat 65536) u.gid u.e u.f.pc u.word s
/-- R273. -/
def execGbind (g : Guard) (x : BitVec 6) (s : State) : Res :=
  bindWord (.gbind g x) g x (fun u s => BitVec.ofNat 64 (groupSize s u.g)) s
def execGbindN (g : Guard) (x y : BitVec 6) (s : State) : Res := bindWord (.gbindN g x y) g x (fun u _ => gReg u.g y.toNat) s
def execGbindUn (g : Guard) (s : State) : Res := group (.gbindUn g) g s fun u s => u.adv (unbindGang s u.gid)
/-- R275. An arrival for a step that others have committed already completes it. -/
def execGstep (g : Guard) (x : BitVec 6) (s : State) : Res :=
  group (.gstep g x) g s fun u s =>
    let t := (gReg u.g x.toNat).toNat
    if List.length u.g.frags ≠ 1 then u.term .illegalConvergence s
    else match u.g.bind.bind fun b => (smFind s.binds b).map (b, ·) with
      | none => u.term .gridDescriptor s
      | some (bid, b) =>
        if b.broken then u.term .gridDescriptor s 0 b.va
        else match b.bad with
          | some a => u.term .gridDescriptor s 0 a
          | none =>
            if t ≠ u.g.step + 1 ∨ 2 ^ 63 ≤ t then u.term .gridDescriptor s 0 b.va
            else
              let s := s.adjBind bid fun b =>
                if t < b.steps then b else { b with arrivals := smPut b.arrivals t (smGet b.arrivals t 0 + 1) }
              wakeSteps (u.block (.step bid t) (s.adjGang u.gid fun g => { g with step := t })) bid
/-- STEP_COMMIT (R275): P arrivals for the next step are counted. -/
def execStepCommit (bid : Nat) (s : State) : Res :=
  .next (
    match smFind s.binds bid with
    | none => s
    | some b =>
      if b.broken || b.ending || decide (smGet b.arrivals b.steps 0 < b.p) then s
      else
        let s := s.adjBind bid fun b => { b with arrivals := smDel b.arrivals b.steps, steps := b.steps + 1 }
        wakeFaces (wakeSteps (advance s bid) bid) bid)

end Sys2Proof.Machine
end

