-- ==== Sys2Proof/Machine/Fabric.lean ====
section
/-! DEFINITION. The Ibcel fabric: ports and the link layer (R325-R331), exports (R332, R333), streams and counted batches
(R334-R339), the remote words RLD to RATOMV, RREL and RFENCE (R340-R344), and faults beyond the core (R345). -/
namespace Sys2Proof.Machine

/-! The remote words (R340-R344). -/

/-- A remote lane word: the peer by lane (R340-R342). -/
def remoteWord (i : Instr) (gd : Guard) (m : MDesc) (a : BitVec 6) (peer : Iss → Nat → Nat) (s : State) : Res :=
  issue i s
    (fun u s =>
      let m := { m with stream := u.g.stream.toNat }
      let qs := (bitList (partLanes u.g u.f gd)).map fun l =>
        mkReq m (laneReg u.g l) l (laneReg u.g l (a.toNat + 1) ++ laneReg u.g l a.toNat) (peer u l)
      memFrag m qs u (if qs.isEmpty then s else touch s u.g.ctx (0x300000 &&& s.plat.live))) none
def gPeer (c : BitVec 6) (u : Iss) (_ : Nat) : Nat := (gReg u.g c.toNat).toNat
def vPeer (c : BitVec 6) (u : Iss) (l : Nat) : Nat := (laneReg u.g l c.toNat).toNat
def remDesc (dir : MDir) (m : BitVec 2) (d : BitVec 6) : MDesc :=
  ⟨.plain, dir, .remote, 4 * 2 ^ m.toNat, false, d.toNat, 1, 0, false⟩
/-- RATOM's operation by M: an acquire and a release at FAB scope when it returns (R341). -/
def remAtom (m : BitVec 2) (d : BitVec 6) : MDesc :=
  let op := match m.toNat with | 0 | 1 => AOp.add | 2 => .exch | _ => .cas
  ⟨.atomic op (m == 1) true false 4, .atom, .remote, 8, false, d.toNat, 1, 0, false⟩
def execRld (g : Guard) (m : BitVec 2) (d a c : BitVec 6) (s : State) : Res :=
  remoteWord (.rld g m d a c) g (remDesc .load m d) a (gPeer c) s
def execRst (g : Guard) (m : BitVec 2) (d a c : BitVec 6) (s : State) : Res :=
  remoteWord (.rst g m d a c) g (remDesc .store m d) a (gPeer c) s
def execRatom (g : Guard) (m : BitVec 2) (d a c : BitVec 6) (s : State) : Res :=
  remoteWord (.ratom g m d a c) g (remAtom m d) a (gPeer c) s
def execRldv (g : Guard) (m : BitVec 2) (d a c : BitVec 6) (s : State) : Res :=
  remoteWord (.rldv g m d a c) g (remDesc .load m d) a (vPeer c) s
def execRstv (g : Guard) (m : BitVec 2) (d a c : BitVec 6) (s : State) : Res :=
  remoteWord (.rstv g m d a c) g (remDesc .store m d) a (vPeer c) s
def execRatomv (g : Guard) (m : BitVec 2) (d a c : BitVec 6) (s : State) : Res :=
  remoteWord (.ratomv g m d a c) g (remAtom m d) a (vPeer c) s

/-- RREL from its operands: peer, address, value and stream (R343). The fragment's remote loads and returning atomics have
their responses, since a fragment waits for them before its next word. -/
def doRrel (i : Instr) (vals : List B64) (gid e : Nat) (pc : B64) (word : B32) (s : State) : State :=
  match smFind s.gangs gid with
  | none => s
  | some g =>
    let peer := vals.getD 0 0
    let addr := vals.getD 1 0
    let stream := (vals.getD 3 0).toNat
    let at_ := remAddr peer.toNat addr.toNat
    match peerCheck s g.ctx stream true peer addr with
    | some (c, false) => terminate s gid c pc word 0 at_
    | some (c, true) => park s gid e c (.redo i vals) pc word 0 at_
    | none =>
      if lostDies s 0x300000 then terminate s gid (.dieLost (lostSock s 0x300000)) pc word 0 at_
      else
        let s := closeBatch (touch s g.ctx 0x300000) g.ctx stream peer.toNat 0x06 addr.toNat
          (vals.getD 2 0 &&& 0x7fffffffffffffff#64)
        s.adjFrag gid e fun f => { f.step with st := .ready, wait := .none }
def execRrel (g : Guard) (x y z : BitVec 6) (s : State) : Res :=
  group (.rrel g x y z) g s fun u s =>
    let a := gReg u.g y.toNat
    if a &&& 7 ≠ 0 then u.term .misaligned s 0 (remAddr (gReg u.g x.toNat).toNat a.toNat)
    else doRrel (.rrel g x y z) [gReg u.g x.toNat, a, gReg u.g z.toNat, u.g.stream.setWidth 64] u.gid u.e u.f.pc u.word s
/-- A remote instruction of the fragment that has not completed. -/
def remotePending (s : State) (gid e : Nat) : Bool :=
  List.any s.ops fun p => p.2.gid == gid && p.2.entry == e && !p.2.resp.isEmpty
/-- R344: blocked while a response is outstanding; a write is accepted by its first hop when it is sent. -/
def execRfence (g : Guard) (s : State) : Res :=
  group (.rfence g) g s fun u s => if remotePending s u.gid u.e then s else u.adv s
def execRfenceCnt (g : Guard) (d a : BitVec 6) (s : State) : Res :=
  group (.rfenceCnt g d a) g s fun u s =>
    if remotePending s u.gid u.e then s
    else
      let peer := (gReg u.g a.toNat).toNat % 512
      match smFind s.fab.send (pairKey u.g.ctx u.g.stream.toNat peer) with
      | none => u.term .streamOverrun s 0 (remAddr peer 0)
      | some x => u.adv (s.adjGang u.gid (setGReg · d.toNat (x.bn ++ x.wc)))

/-! Ports and the link layer (R326, R329-R331). -/

/-- The I/O die of a port (R54). -/
def ioDie (port : Nat) : Nat := 20 + port / 32 % 2
def State.adjPort (s : State) (p : Nat) (f : Port → Port) : State :=
  s.setFab { s.fab with ports := smAdj s.fab.ports p f }
/-- Take the last n flits of a port out of what has been sent, newest first. The link layer's own are not replayed, and
stay. -/
def takeBack (p : Nat) : Nat → List (Nat × Flit) → List (Nat × Flit)
  | _, [] => []
  | n, x :: l =>
    if x.1 ≠ p ∨ x.2.type = 0x3f then x :: takeBack p n l
    else match n with
      | 0 => x :: l
      | n + 1 => takeBack p n l
/-- What has been sent, but for the n flits that a port sent last. -/
def unsent (s : State) (p n : Nat) : List (Nat × Flit) := if n = 0 then s.fab.out else (takeBack p n s.fab.out.reverse).reverse
/-- A link fails: its plane leaves the live set, the flits that it holds unacknowledged are lost, and management learns of
it (R326). -/
def failPlane (s : State) (p : Nat) : State :=
  let held := match smFind s.fab.ports p with | some x => x.replay.length | none => 0
  let s := s.setFab { s.fab with out := unsent s p held, events := s.fab.events ++ [(0, p)] }
  s.adjPort p fun x => { x with live := false, trained := false, replay := [] }
/-- A switch reports the discard of flits that were in the fabric for more than 500 us (R329, R339). -/
def agedOut (s : State) (plane : Nat) : State := s.setFab { s.fab with events := s.fab.events ++ [(1, plane)] }
/-- PLANE_FAILURE (R326). -/
def execPlaneFailure (plane : Nat) (s : State) : Res :=
  .next (match smFind s.fab.ports plane with
    | some x => if x.live then failPlane s plane else s
    | none => s)
/-- A link-layer flit of this port, under its key bank (R330): message kind 0 acknowledges a count, kind 1 asks for replay from
it (log 8). -/
def sendLnk (s : State) (p kind n : Nat) : State :=
  let kg := match smFind s.fab.ports p with | some x => x.kg | none => 0
  let f := { mkFlit s 0x3f 0 0 0 0 (n % 2 ^ 16) 0 [BitVec.ofNat 8 kind] false with kg := BitVec.ofNat 1 kg }
  s.setFab { s.fab with out := s.fab.out ++ [(p, f)] }
/-- FLIT_CHECK_FAILURE (R329): the flit is dropped, and replay asked for; after 8 consecutive failed replays the link
fails. -/
def execFlitCheckFailure (port : Nat) (s : State) : Res :=
  .next (match smFind s.fab.ports port with
    | none => s
    | some x =>
      if !x.live then s
      else
        let s := s.adjPort port fun x => { x with fails := x.fails + 1, errs := x.errs + 1 }
        if 8 ≤ x.fails then failPlane s port else sendLnk s port 1 x.recv)
/-- What a link-layer message does: acknowledged flits leave the replay buffer, oldest first; a replay sends the rest again in
order, each under the key bank that now protects what the port sends (R329, R330). -/
def takeLnk (s : State) (port : Nat) (x : Port) (kind : LnkKind) (n : BitVec 16) : State :=
  let base := x.sent - x.replay.length
  let k := (n.toNat + 2 ^ 16 - base % 2 ^ 16) % 2 ^ 16
  if x.replay.length < k then s
  else match kind with
    | .ack => s.adjPort port fun x => { x with replay := x.replay.drop k }
    | .replay =>
      let rest := (x.replay.drop k).map fun f => { f with kg := BitVec.ofNat 1 x.kg }
      (s.setFab { s.fab with out := unsent s port rest.length ++ rest.map fun f => (port, f) }).adjPort port fun x =>
        { x with replay := rest }
/-- A flit under the new key bank has come (R330). -/
def countKey (kg : Nat) (x : Port) : Port := { x with newFlits := x.newFlits + if kg = x.kg then 1 else 0 }
/-- LNK (R329), under a key that the port holds: a flit that names an erased bank fails its check (R330). -/
def execLnkFlit (port : Nat) (m : LnkMsg) (s : State) : Res :=
  match smFind s.fab.ports port with
  | none => .next s
  | some x =>
    if (smFind x.keys m.kg.toNat).isNone then execFlitCheckFailure port s
    else .next (takeLnk (s.adjPort port (countKey m.kg.toNat)) port x m.kind m.n)
/-- IBCEL_LINK_TRAIN (R331): the ends share major version 1, and version 1.0 is used; counts start again. The key banks
start with the key negotiated at training, named 0. -/
def execIbcelLinkTrain (port : Nat) (versions : List (BitVec 16)) (s : State) : Res :=
  .next (if port < 64 ∧ versions.any (fun v => v.toNat / 256 == 1) ∧ s.plat.live.getLsbD (ioDie port) then
      s.setFab { s.fab with ports := smPut s.fab.ports port ⟨true, true, 0x0100, 0, 0, [], 0, 0, [(0, 0)], 0,
        match smFind s.fab.ports port with | some x => x.errs | none => 0⟩ }
    else s)
/-- LINK_REKEY (R330): the key goes to the bank not in use, which later flits name. -/
def execLinkRekey (port key : Nat) (s : State) : Res :=
  .next (s.adjPort port fun x => { x with keys := smPut x.keys (1 - x.kg) key, kg := 1 - x.kg, newFlits := 0 })
/-- OLD_KEY_ERASE (R330): 4,096 flits under the new key have arrived. -/
def execOldKeyErase (port : Nat) (s : State) : Res :=
  .next (s.adjPort port fun x => if 4096 ≤ x.newFlits then { x with keys := smDel x.keys (1 - x.kg) } else x)
/-- Receive a flit under a key bank at a live port: counted and acknowledged, under a key that the port holds (R329, R330).
A flit that names an erased bank fails its check. -/
def receiveAt (port kg : Nat) (s : State) (k : State → State) : Res :=
  match smFind s.fab.ports port with
  | none => .next s
  | some x =>
    if !x.live || !s.plat.live.getLsbD (ioDie port) then .next s
    else if (smFind x.keys kg).isNone then execFlitCheckFailure port s
    else .next (k (sendLnk (s.adjPort port fun x => countKey kg { x with recv := x.recv + 1, fails := 0 }) port 0 (x.recv + 1)))
def receive (port : Nat) (f : Flit) (s : State) (k : State → State) : Res := receiveAt port f.kg.toNat s k
/-- A control message arrives (R328, R329). -/
def takeMsg (v : Via) (s : State) (k : State → State) : Res := receiveAt v.port v.kg.toNat s k
/-- The flit types of R328. -/
def flitTypes : List Nat := [1, 2, 3, 4, 5, 6, 7, 8, 9, 10, 11, 63]
/-- FLIT_BAD_TYPE (R328): dropped and counted by the port. -/
def execFlitBadType (port : Nat) (f : Flit) (s : State) : Res :=
  if flitTypes.contains f.type.toNat then .next s
  else receive port f s fun s => s.adjPort port fun x => { x with errs := x.errs + 1 }

/-! Exports (R332, R333). -/

def exHome (e : BitVec 128) : Nat := fld e.toNat 106 8
def exTen (e : BitVec 128) : Nat := fld e.toNat 114 10
/-- InboundTranslate (R333), then the page under the tenant of the export: a place, or a refusal with the socket whose log
records it. Of an access whose requester is answered (`ret`), only the faults that park are recorded at the translation
home (R345). The on-chip map is not reached from outside, and only reads of a remote page are passed on (log 46). -/
def inPlace (s : State) (port addr : Nat) (k : AccKind) (ret : Bool) : Except (Code × Nat) (State × Spot × Nat) :=
  let e := smGet s.pf.exports (fld addr 40 8) 0#128
  let off := addr % 2 ^ 40
  let ok := match k with
    | .load => e.getLsbD 126
    | .store => e.getLsbD 125
    | _ => e.getLsbD 124 && e.getLsbD 125
  if !e.getLsbD 127 || decide (fld e.toNat 0 24 < off / 2 ^ 16) || !ok then .error (.remoteAccess, ioDie port)
  else
    let ia := fld e.toNat 64 36 * 2 ^ 16 + off
    let log := fun c => if ret && !parksAs c then ioDie port else 8 + transHome ia
    if isMap ia then .error (.permission, ioDie port)
    else match lookup s (ioHolder (ioDie port)) (exTen e) ia (some k) with
      | .error c => .error (c, log c)
      | .ok (s, p) =>
        if lostDies s (pageDies s.pf p) || (p.st == 3 && k != .load) then .error (.remoteAccess, log .remoteAccess)
        else .ok (s, ⟨p, ia, exHome e, 1⟩, exTen e)
/-- What an inbound access came to. -/
inductive InRes where
  | done (s : State) (bs : List Byte) (psn : Bool)
  | wait (s : State)
  | refused (s : State) (c : Code) (sock : Nat)
/-- The name that requests of inbound accesses carry in place of a context. -/
def noCtx : Nat := 1024
/-- Inbound reads and writes of [addr, addr + n), in pieces of one 64-byte half, under a mark. -/
def inRead (port : Nat) (tok : List Nat) : List (Nat × Nat) → State → List Byte → Bool → InRes
  | [], s, acc, p => .done (dropTok s tok) acc p
  | (a, n) :: l, s, acc, p =>
    match inPlace s port a .load true with
    | .error e => .refused s e.1 e.2
    | .ok (s, x, ten) =>
      match engineDo s noCtx (tok ++ [l.length]) x n .load (some ten) with
      | .done s f => inRead port tok l s (acc ++ f.data) (p || f.psn.isSome)
      | .wait s _ => .wait s
      | .fault s c parks => .refused (dropTok s tok) c (if parks then 8 + transHome x.ia else ioDie port)
def putPieces (port : Nat) (tok : List Nat) (psn : Bool) : List (Nat × Nat) → List Byte → State → InRes
  | [], _, s => .done (dropTok s tok) [] false
  | (a, n) :: l, bs, s =>
    match inPlace s port a .store false with
    | .error e => .refused s e.1 e.2
    | .ok (s, x, ten) =>
      match engineDo s noCtx (tok ++ [l.length]) x n (.store (bs.take n)) (some ten) psn with
      | .done s _ => putPieces port tok psn l (bs.drop n) (if psn then markPoison s x else s)
      | .wait s _ => .wait s
      | .fault s c _ => .refused (dropTok s tok) c (8 + transHome x.ia)
/-- The pieces of a write that has to wait: those that hold it back have asked for what they need, the others are not yet
performed. None where nothing holds it back. -/
def piecesWait (port : Nat) (tok : List Nat) (psn : Bool) : List (Nat × Nat) → List Byte → State → Option State
  | [], _, _ => none
  | (a, n) :: l, bs, s =>
    match inPlace s port a .store false with
    | .error _ => none
    | .ok (s1, x, ten) =>
      match engineDo s1 noCtx (tok ++ [l.length]) x n (.store (bs.take n)) (some ten) psn with
      | .wait s1 _ => some ((piecesWait port tok psn l (bs.drop n) s1).getD s1)
      | _ => piecesWait port tok psn l (bs.drop n) s
/-- A write is discarded whole where any piece of it is refused (R345), and waits whole. -/
def inWrite (port : Nat) (tok : List Nat) (psn : Bool) (ps : List (Nat × Nat)) (bs : List Byte) (s : State) : InRes :=
  match ps.findSome? fun q => match inPlace s port q.1 .store false with | .error e => some e | .ok _ => none with
  | some e => .refused (dropTok s tok) e.1 e.2
  | none => match piecesWait port tok psn ps bs s with
    | some s => .wait s
    | none => putPieces port tok psn ps bs s
/-- An inbound atomic (R198, R345): at the home slice on a directory-tracked or pool page, far on the others. -/
def inAtom (s : State) (port : Nat) (tok : List Nat) (addr n : Nat) (ret : Bool) (f : List Byte → Option (List Byte)) : InRes :=
  match inPlace s port addr .atomic ret with
  | .error e => .refused s e.1 e.2
  | .ok (s, x, ten) =>
    let d := Do.rmw f
    let r := if x.page.st = 4 ∨ x.page.cls = 0 then engineDo s noCtx tok x n d (some ten)
      else engTurn s (keyUnit (homeKey x.ia x.home)) (x.ia / 128) (.eng tok) x.page fun s =>
        match farAccess s x.page x.ia x.home n d with
        | .done s f => .done s f
        | .wait s t => .wait s t
        | .cxl s .. => .wait s 0
    match r with
    | .done s r =>
      let s := dropTok s tok
      if r.psn.isSome then .refused (markPoison s x) .dataPoison (8 + transHome x.ia) else .done s r.data false
    | .wait s _ => .wait s
    | .fault s c _ => .refused (dropTok s tok) c (8 + transHome x.ia)
/-- An entry of an inbound fault log (R345). -/
def logFault (s : State) (sock : Nat) (f : Flit) (c : Code) : State :=
  let l := smGet s.fab.logs sock [] ++ [⟨f.src.toNat, f.stream.toNat, f.count.toNat, c, f.addr.toNat⟩]
  s.setFab { s.fab with logs := smPut s.fab.logs sock l }
/-- Count an error at the I/O die of a port. -/
def countError (s : State) (port : Nat) : State :=
  let i := port / 32 % 2
  s.setFab { s.fab with errors := smPut s.fab.errors i (smGet s.fab.errors i 0 + 1) }

/-! Responses (R341, R345). -/

/-- Status words of responses (log 8): 1 refused, 2 refused and parking, 3 poisoned. A payload of one word is a status. -/
def statusOf (c : Code) : Nat := if parksAs c then 2 else if c == .dataPoison then 3 else 1
/-- Answer a request: on the plane of its port, in the request's generation. -/
def respond (s : State) (port type : Nat) (f : Flit) (tag : Nat) (r : Except Code (List Byte × Bool)) : State :=
  let send := fun bs psn =>
    sendOn s (some port) (mkFlit s type f.src.toNat f.stream.toNat f.sctx.toNat f.gen.toNat tag f.addr.toNat bs psn)
  match r with
  | .ok (bs, psn) => send (bs ++ List.replicate (8 - bs.length) 0) psn
  | .error c => send (toBytes 4 (statusOf c)) false
/-- An answer reaches one request: its lane, or the engine that made it. -/
def answerReq (s : State) (k : Nat) (q : RReq) (r : RAns) : State :=
  match q.op with
  | some o =>
    let n := match smFind s.ops o with
      | some o => match o.kind with | .mem m => m.size | _ => 8
      | none => 8
    answerLane (s.setFab { s.fab with reqs := smDel s.fab.reqs k }) o q.lane (match r with
      | .data _ true => .error (.dataPoison, false, remAddr q.peer q.addr)
      | .data bs false => .ok ((if q.atom then bs else bs.drop (q.addr % 16)).take n)
      | .fault c parks => .error (c, parks, remAddr q.peer q.addr))
  | none => s.setFab { s.fab with reqs := smPut s.fab.reqs k { q with ans := some r } }
/-- What a response says. -/
def answerOf (f : Flit) : RAns :=
  if f.payload.length ≤ 4 then
    match leNat f.payload with
    | 2 => .fault .remoteAccess true
    | 3 => .fault .dataPoison false
    | _ => .fault .remoteAccess false
  else .data f.payload (f.psn == 1)
/-- A response arrives: for its request, and for the lanes of its issue that read the same bytes (R223). -/
def takeResponse (s : State) (f : Flit) : State :=
  match smFind s.fab.reqs f.count.toNat with
  | none => s
  | some q =>
    if q.ans.isSome then s
    else
      let ks := if q.op.isSome && !q.atom then smKeys (fun _ (x : RReq) => x.sameRead q.op q.peer q.addr) s.fab.reqs
        else [f.count.toNat]
      ks.foldl (fun s k => match smFind s.fab.reqs k with | some q => answerReq s k q (answerOf f) | none => s) s
def execRdrFlit (port : Nat) (f : Flit) (s : State) : Res := receive port f s fun s => takeResponse s f
def execAtomrFlit (port : Nat) (f : Flit) (s : State) : Res := receive port f s fun s => takeResponse s f
/-- REMOTE_REQUEST_TIMEOUT (R345): loads park, atomics end; an engine's access meets the same code. -/
def execRemoteRequestTimeout (tag : Nat) (s : State) : Res :=
  .next (match smFind s.fab.reqs tag with
    | none => s
    | some q => if s.now < q.deadline || q.ans.isSome then s else answerReq s tag q (.fault .remoteTimeout (!q.atom)))

/-! Arrival entries and flags (R335-R339). -/

def State.adjArr (s : State) (k : Nat) (f : ArrE → ArrE) : State := s.setFab { s.fab with arr := smAdj s.fab.arr k f }
def flitKey (f : Flit) : Nat := arrKey f.src.toNat f.sctx.toNat f.stream.toNat
def flagVal (f : Flit) : Nat := leNat (f.payload.take 8)
def flagCount (f : Flit) : Nat := leNat ((f.payload.drop 8).take 4)
def ArrE.slot (e : ArrE) (j : Nat) : BSlot := smGet e.slots j ⟨0, none⟩
/-- The batch lies in the window of 16 (R335). -/
def inWindow (e : ArrE) (f : Flit) : Bool := decide ((f.count - e.nb).toNat < 16)
def slotNo (f : Flit) : Nat := f.count.toNat % 16
/-- A stream's record (R364) at the I/O die of a port. -/
def streamRec (code : Code) (port peer ctx stream batch n : Nat) (addr : B64) : Rec :=
  ⟨code, .async, 2, ioDie port, none, 0, 0, 0, addr, BitVec.ofNat 64 (peer + ctx * 2 ^ 9 + stream * 2 ^ 19),
    BitVec.ofNat 64 (batch + n * 2 ^ 32), 0, false, none⟩
/-- An NTC to a sender (log 8): cause, stream, batch, write count and address. -/
def sendNtc (s : State) (f : Flit) (code : Code) (n : Nat) (addr : B64) : State :=
  let body := [BitVec.ofNat 8 code.num, f.stream.setWidth 8] ++ toBytes 4 f.count.toNat ++ toBytes 4 n ++ toBytes 8 addr.toNat
  sendFlit s (mkFlit s 0x07 f.src.toNat f.stream.toNat f.sctx.toNat f.gen.toNat 0 0 body false)
/-- The binding that a GREL or GWR names: of the context that owns the entry (R394). -/
def gridOf (s : State) (e : ArrE) (f : Flit) : Option (Nat × Binding) :=
  List.find? (fun p : Nat × Binding => p.2.ctx == e.owner && p.2.number == fld f.addr.toNat 40 8) s.binds
/-- Store a flag's value at its target. -/
def storeFlag (s : State) (port : Nat) (f : Flit) (v : Nat) : InRes :=
  inWrite port [11, flitKey f, f.count.toNat] false (cutHalves 2 f.addr.toNat 8) (toBytes 8 v) s
/-- A GREL's effect on a face (R281): a strip close or a notice. -/
def applyGrel (s : State) (e : ArrE) (f : Flit) : State :=
  match gridOf s e f with
  | none => s
  | some (bid, b) =>
    let v := flagVal f
    let k := fld v 56 3
    let r := fld v 0 52
    if fld v 59 1 = 1 then
      s.adjFace bid k fun x => { x with notice := max x.notice (r * dDepth b.desc + 1) }
    else s.adjFace bid k fun x => { x with recv := max x.recv (r + 1) }
/-- Mark a flag's word as poisoned (R312). -/
def markFlag (s : State) (f : Flit) : State :=
  let e := smGet s.pf.exports (fld f.addr.toNat 40 8) 0#128
  let ia := fld e.toNat 64 36 * 2 ^ 16 + f.addr.toNat % 2 ^ 40
  s.setMem { s.mem with flagMarks := smPut s.mem.flagMarks (ia / 8) true }
/-- Write a flag as poisoned (R338); none while its store must wait. The entry becomes REFUSED. -/
def poisonFlag (s : State) (key : Nat) (e : ArrE) (port : Nat) (f : Flit) (cnt : Nat) (overrun : Bool) : Except State State :=
  let code := if overrun then Code.streamOverrun else .fabricIncomplete
  let n := flagCount f
  let fin := fun (s : State) (stored : Bool) =>
    let s := s.adjArr key fun e => { e with st := .refused, due := true }
    let s := postRec s e.owner
      (streamRec code port f.src.toNat f.sctx.toNat f.stream.toNat f.count.toNat n (BitVec.ofNat 64 cnt))
    if stored then sendNtc s f code n (BitVec.ofNat 64 cnt)
    else sendNtc s f .remoteWriteFaulted n (remAddr s.pf.peerid.toNat f.addr.toNat)
  if f.type = 0x0b then
    let s := match gridOf s e f with
      | some (bid, _) => s.adjBind bid fun b => { b with broken := true }
      | none => s
    .ok (fin s true)
  else match storeFlag s port f (flagVal f % 2 ^ 63 + 2 ^ 63) with
    | .done s .. => .ok (fin (markFlag s f) true)
    | .wait s => .error s
    | .refused s c sock => .ok (fin (logFault s sock f c) false)
/-- Poison every withheld flag in ascending batch order, with the entry's cause (R338); stops where a store must wait, to go
on later. -/
def poisonAll (key : Nat) : List Nat → State → State
  | [], s => s
  | i :: l, s =>
    match smFind s.fab.arr key with
    | none => s
    | some e =>
      let j := (e.nb.toNat + i) % 16
      let b := e.slot j
      match b.flag with
      | none => poisonAll key l s
      | some (f, _, port) =>
        match poisonFlag s key e port f b.cnt e.overrun with
        | .error s => s
        | .ok s => poisonAll key l (s.adjArr key fun e => { e with slots := smPut e.slots j ⟨b.cnt, none⟩ })
/-- A held flit is a flag of an entry. -/
def InWrite.flagOf (w : InWrite) (key : Nat) : Bool := w.key == key && (w.f.type == 0x06 || w.f.type == 0x0b)
/-- A flag's batch in its entry's window. -/
def ArrE.turn (e : ArrE) (f : Flit) : Nat := (f.count - e.nb).toNat
/-- A flag that is to be poisoned comes after others of its entry that wait for their own stores (R338): withheld ones of its
batch or an earlier one, and held flits. -/
def poisonBehind (s : State) (key : Nat) (e : ArrE) (f : Flit) (held : Nat) : Bool :=
  List.any e.slots (fun p => p.2.flag.any fun x => decide (e.turn x.1 ≤ e.turn f))
    || List.any s.fab.writes fun p => p.2.flagOf key && (decide (e.turn p.2.f < e.turn f) || (e.turn p.2.f == e.turn f && decide (p.1 < held)))
/-- CTXSTAT after a command: done, or refused with a code. -/
def setCtx (s : State) (code : Nat) : State :=
  s.setPf { s.pf with ctxstat := BitVec.ofNat 64 ((if code = 0 then 2 else 3) * 2 ^ 62 + code * 2 ^ 56 + s.now % 2 ^ 56) }
/-- A context is gone (R39). -/
def endDestroy (s : State) (c : Nat) : State :=
  setCtx ({ s with
    ctxs := smDel s.ctxs c
    launches := smKeep (fun _ l => l.ctx != c) s.launches
    lanterns := smKeep (fun _ l => l.ctx != c) s.lanterns }.setPf { s.pf with destroying := none }) 0
/-- A DESTROY that waits for the arrival entries of its context is over once the last has been freed (R39). -/
def goOnDestroy (s : State) : State :=
  match s.pf.destroying with
  | none => s
  | some c => if List.any s.fab.arr fun p => p.2.owner == c then s else endDestroy s c
/-- A closing entry with no withheld flag is freed, and the waiting command is done (R334). -/
def settleEntry (s : State) (key : Nat) : State :=
  match smFind s.fab.arr key with
  | none => s
  | some e =>
    if !e.closing || List.any e.slots (fun p => p.2.flag.isSome) || List.any s.fab.writes (fun p => p.2.flagOf key) then s
    else
      let s := goOnDestroy (s.setFab { s.fab with arr := smDel s.fab.arr key })
      if s.pf.closing = some key then
        s.setPf { s.pf with closing := none, strstat := BitVec.ofNat 64 (2 * 2 ^ 62 + e.gen % 2 ^ 16) }
      else s
/-- Apply flags in batch order (R337): each once its slot's count is its write count; a count above it is an overrun. An
entry that a flag's own fault has made REFUSED applies no more, and what it withholds is poisoned at FTMO (R338, R345). -/
def serviceEntry (key : Nat) : Nat → State → State
  | 0, s => s
  | n + 1, s =>
    match smFind s.fab.arr key with
    | none => s
    | some e =>
      let past := List.any e.slots fun p => match p.2.flag with | some (f, _) => decide (flagCount f < p.2.cnt) | none => false
      if e.st = .tainted ∨ e.due then settleEntry (poisonAll key (List.range 16) s) key
      else if e.st = .refused then settleEntry s key
      else if past then serviceEntry key n (s.adjArr key fun e => { e with st := .tainted, overrun := true })
      else
        let j := e.nb.toNat % 16
        match (e.slot j).flag with
        | none => settleEntry s key
        | some (f, _, port) =>
          if (e.slot j).cnt ≠ flagCount f then settleEntry s key
          else
            let next := fun (s : State) => s.adjArr key fun e => { e with nb := e.nb + 1, slots := smDel e.slots j }
            if f.type = 0x0b then serviceEntry key n (applyGrel (next s) e f)
            else match storeFlag s port f (flagVal f % 2 ^ 63) with
              | .done s .. => serviceEntry key n (next s)
              | .wait s => s
              | .refused s c sock =>
                let s := (next (logFault s sock f c)).adjArr key fun e => { e with st := .refused }
                settleEntry (sendNtc s f .remoteWriteFaulted (flagCount f) (remAddr s.pf.peerid.toNat f.addr.toNat)) key
/-- The entry becomes TAINTED, and its withheld flags are poisoned (R338, R339). -/
def taint (s : State) (key : Nat) (overrun : Bool) : State :=
  serviceEntry key 17 (s.adjArr key fun e => if e.st = .opened then { e with st := .tainted, overrun := overrun } else e)
/-- What admission says of a counted or flag flit (R335, R339). -/
inductive Admit where
  | take (e : ArrE)
  | drop (s : State)
  /-- Refused traffic. -/
  | refuse
def acceptFlit (s : State) (port : Nat) (f : Flit) : Admit :=
  let key := flitKey f
  match smFind s.fab.arr key with
  | none => .drop (countError s port)
  | some e =>
    if e.st = .refused then .refuse
    else if f.gen.toNat ≠ e.gen % 4 then .drop s
    else if !inWindow e f then .drop (taint s key true)
    else .take e
/-- Keep an admitted flit until it is performed. -/
def holdFlit (s : State) (port : Nat) (f : Flit) : State :=
  { s with next := s.next + 1, fab := { s.fab with writes := smPut s.fab.writes s.next ⟨flitKey f, f, port⟩ } }

/-! Performing inbound requests. -/

/-- The operation, width, tag and operands of an ATOM's payload (log 8). -/
def atomOp (f : Flit) : Nat := ((f.payload[0]?).getD 0).toNat
def atomSize (f : Flit) : Nat := ((f.payload[1]?).getD 8).toNat
def atomTag (f : Flit) : Nat := leNat ((f.payload.drop 2).take 4)
def atomReturns (f : Flit) : Bool := decide (atomOp f < 128)
/-- The fault that a strip's element would meet at its address in the binding's windows, if any (R209, R345). -/
def elemFault (s : State) (b : Binding) (va : Nat) : Option Code :=
  match reach s b.ctx (s.winOf b.ctx) va .store with
  | .fault c => some c
  | .map _ => some .permission
  | .spot s x =>
    if x.page.st = 3 then
      (peerCheck s b.ctx (dStream b.desc) true (BitVec.ofNat 64 x.page.peer) (BitVec.ofNat 64 (x.page.exp * 2 ^ 40 + x.page.at_))).map
        fun r => asyncCode r.1 r.2
    else none
/-- The log that keeps a strip's fault at a VA: the translation home's, or for a VA that no window covers the I/O die's. -/
def elemHome (s : State) (b : Binding) (port va : Nat) : Nat :=
  match translate (s.winOf b.ctx) va (some .store) with
  | .ok (ia, _) => 8 + transHome ia
  | .error _ => ioDie port
/-- Perform a held write or atomic at its target. A strip is discarded whole where any element of it faults, and waits whole. -/
def performIn (s : State) (k : Nat) (w : InWrite) : InRes :=
  let f := w.f
  let tok := [10, k]
  let a := f.addr.toNat
  match f.type.toNat with
  | 0x04 =>
    let n := if atomSize f = 4 then 4 else 8
    inAtom s w.port tok a n (atomReturns f) fun old =>
      (atomNew (AOp.ofNum (atomOp f % 128)) n (leNat old) (leNat ((f.payload.drop 6).take 8))
        (leNat ((f.payload.drop 14).take 8))).map (toBytes n)
  | 0x0a =>
    match (smFind s.fab.arr w.key).bind fun e => gridOf s e f with
    -- the binding has ended: the flit is counted and writes nothing (log 13)
    | none => .done s [] false
    | some (_, b) =>
      let n := dSize b.desc
      let els := (List.range (f.payload.length / n)).map fun i =>
        ((dGhost b.desc + a % 2 ^ 40 + i * n), leNat ((f.payload.drop (i * n)).take n), f.psn == 1)
      match els.findSome? fun q => (elemFault s b q.1).map (·, q.1) with
      | some (c, va) => .refused (dropTok s tok) c (elemHome s b w.port va)
      | none => match elemsWait b.ctx n (dStream b.desc) tok els s with
        | some s => .wait s
        | none => match writeElems b.ctx n (dStream b.desc) tok els s with
          | .ok s _ => .done (dropTok s tok) [] false
          | .wait s => .wait s
          | .fault s c va => .refused (dropTok s tok) c (elemHome s b w.port va)
  | _ => inWrite w.port tok (f.psn == 1) (cutHalves 8 a f.payload.length) f.payload s
/-- Count an admitted write in its slot, then test the entry's flags (R335); a fault taints in the same act. -/
def countWrite (s : State) (w : InWrite) (c : Option (Code × Nat)) : State :=
  let f := w.f
  let j := slotNo f
  let s := s.adjArr w.key fun e => { e with slots := smPut e.slots j { e.slot j with cnt := (e.slot j).cnt + 1 } }
  match c with
  | none => serviceEntry w.key 17 s
  | some (code, sock) =>
    let s := logFault s sock f code
    -- an atomic's poison stays with the location, and a returning one's requester learns of any fault: neither taints (R345)
    if f.type = 0x04 ∧ (atomReturns f ∨ code = .dataPoison) then serviceEntry w.key 17 s
    else taint (sendNtc s f .remoteWriteFaulted 0 (remAddr s.pf.peerid.toNat f.addr.toNat)) w.key false
/-- A held request of the same source and line comes first (R326). -/
def behind (s : State) (k : Nat) (w : InWrite) : Bool :=
  List.any s.fab.writes fun p => decide (p.1 < k) && p.2.f.src == w.f.src && p.2.f.addr.toNat / 128 == w.f.addr.toNat / 128
/-- WRITE_COUNTED (R335): a held write is performed or discarded and counted, a held read is served, a held flag is
written as poisoned. What must wait stays held. -/
def execWriteCounted (k : Nat) (s : State) : Res :=
  .next (match smFind s.fab.writes k with
    | none => s
    | some w =>
      let gone := fun (s : State) => s.setFab { s.fab with writes := smDel s.fab.writes k }
      let f := w.f
      if behind s k w then s
      else match f.type.toNat with
        | 0x02 =>
          match inRead w.port [10, k] [(f.addr.toNat / 16 * 16, 16)] s [] false with
          | .wait s => s
          | .done s bs psn => respond (gone s) w.port 0x03 f f.count.toNat (.ok (bs, psn))
          | .refused s c sock => respond (logFault (gone s) sock f c) w.port 0x03 f f.count.toNat (.error c)
        | 0x06 | 0x0b =>
          match smFind s.fab.arr w.key with
          | none => gone s
          | some e =>
            if f.gen.toNat ≠ e.gen % 4 then gone s
            else if poisonBehind s w.key e f k then s
            else match poisonFlag s w.key e w.port f (e.slot (slotNo f)).cnt e.overrun with
              | .ok s => settleEntry (gone s) w.key
              | .error s => s
        | _ =>
          match acceptFlit s w.port f with
          | .drop s => gone s
          | .refuse =>
            if f.type = 0x04 ∧ atomReturns f then respond (gone s) w.port 0x05 f (atomTag f) (.error .remoteAccess) else gone s
          | .take _ =>
            let answer := fun (s : State) (r : Except Code (List Byte × Bool)) =>
              if f.type = 0x04 ∧ atomReturns f then respond s w.port 0x05 f (atomTag f) r else s
            match performIn s k w with
            | .wait s => s
            | .done s bs psn => countWrite (answer (gone s) (.ok (bs, psn))) w none
            | .refused s c sock => countWrite (answer (gone s) (.error c)) w (some (c, sock)))
/-- A counted flit arrives (R335): discarded, or held until performed. -/
def arriveCounted (port : Nat) (f : Flit) (s : State) : State :=
  match acceptFlit s port f with
  | .drop s => s
  | .refuse => if f.type = 0x04 ∧ atomReturns f then respond s port 0x05 f (atomTag f) (.error .remoteAccess) else s
  | .take _ => holdFlit s port f
/-- WR (R335), GWR (R394), ATOM (R341): held, to be performed and counted by WRITE_COUNTED. -/
def execWrFlit (port : Nat) (f : Flit) (s : State) : Res := receive port f s (arriveCounted port { f with type := 0x01 })
def execGwrFlit (port : Nat) (f : Flit) (s : State) : Res := receive port f s (arriveCounted port { f with type := 0x0a })
def execAtomFlit (port : Nat) (f : Flit) (s : State) : Res := receive port f s (arriveCounted port { f with type := 0x04 })
/-- RD (R333): held, to be served. -/
def execRdFlit (port : Nat) (f : Flit) (s : State) : Res := receive port f s fun s => holdFlit s port { f with type := 0x02 }
/-- Poison a flag that has just arrived (R338), or keep it until those before it are written and its store can be made. -/
def poisonOrHold (s : State) (key : Nat) (e : ArrE) (port : Nat) (f : Flit) : State :=
  if poisonBehind s key e f s.next then holdFlit s port f
  else match poisonFlag s key e port f (e.slot (slotNo f)).cnt e.overrun with
  | .ok s => s
  | .error s => holdFlit s port f
/-- A flag arrives (R337, R338): withheld in its slot; poisoned at a tainted entry, or with a second flag of one slot. -/
def arriveFlag (port : Nat) (f : Flit) (s : State) : State :=
  match acceptFlit s port f with
  | .drop s => s
  | .refuse => s
  | .take e =>
    let key := flitKey f
    let j := slotNo f
    if e.st = .tainted then
      poisonOrHold s key e port f
    else if (e.slot j).flag.isSome then
      let s := taint s key true
      match smFind s.fab.arr key with
      | some e => poisonOrHold s key e port f
      | none => s
    else
      serviceEntry key 17 (s.adjArr key fun e => { e with slots := smPut e.slots j { e.slot j with flag := some (f, s.now, port) } })
def execRelFlit (port : Nat) (f : Flit) (s : State) : Res := receive port f s (arriveFlag port { f with type := 0x06 })
def execGrelFlit (port : Nat) (f : Flit) (s : State) : Res := receive port f s (arriveFlag port { f with type := 0x0b })
/-- FLAG_TIMEOUT (R338): withheld FTMO after its arrival, every withheld flag is poisoned. Before that, flags whose
application had to wait are tried again. -/
def execFlagTimeout (key slot : Nat) (s : State) : Res :=
  .next (match smFind s.fab.arr key with
    | none => s
    | some e => match (e.slot slot).flag with
      | none => s
      | some (_, t, _) =>
        if t + 1000 * e.ftmo ≤ s.now then settleEntry (poisonAll key (List.range 16) (s.adjArr key fun e => { e with due := true })) key
        else serviceEntry key 17 s)
/-- NTC (R338, R339, R345): the pair becomes REFUSED, and the sender's context receives the record. -/
def execNtcFlit (port : Nat) (f : Flit) (s : State) : Res :=
  receive port f s fun s =>
    let ctx := f.sctx.toNat
    let codes : List Code := [.fabricIncomplete, .streamOverrun, .remoteWriteFaulted]
    let c := (codes.find? fun c => c.num == ((f.payload[0]?).getD 0).toNat).getD .remoteWriteFaulted
    let stream := ((f.payload[1]?).getD 0).toNat
    let batch := leNat ((f.payload.drop 2).take 4)
    let n := leNat ((f.payload.drop 6).take 4)
    let s := s.setFab { s.fab with send := smAdj s.fab.send (pairKey ctx stream f.src.toNat) fun e => { e with st := .refused } }
    postRec s ctx (streamRec c port f.src.toNat ctx stream batch n (BitVec.ofNat 64 (leNat ((f.payload.drop 10).take 8))))

/-! Streams (R334) and resets (R163). -/

/-- STRSTAT's value. -/
def strStat (st code gen : Nat) : B64 := BitVec.ofNat 64 (st * 2 ^ 62 + code * 2 ^ 56 + gen % 2 ^ 16)
def setStr (s : State) (st code gen : Nat) : State := s.setPf { s.pf with strstat := strStat st code gen }
def sendKey (c : StreamCmd) : Nat := pairKey c.ctx.toNat c.stream.toNat c.peer.toNat
def recvKey (c : StreamCmd) : Nat := arrKey c.peer.toNat c.rctx.toNat c.stream.toNat
/-- The generation of the pair that a command names at its end here: 0 where none is open. -/
def pairGen (s : State) (rcv : Bool) (c : StreamCmd) : Nat :=
  if rcv then (match smFind s.fab.arr (recvKey c) with | some e => e.gen | none => 0)
  else match smFind s.fab.send (sendKey c) with | some e => e.gen | none => 0
/-- A refused command (R334). -/
def refuseStr (s : State) (rcv : Bool) (c : StreamCmd) (code : Nat) : State := setStr s 3 code (pairGen s rcv c)
/-- STRCMD's fields below OP. -/
def strWord (c : StreamCmd) : B64 :=
  0#3 ++ c.ctx ++ c.stream ++ c.peer ++ c.rctx ++ c.ftmo ++ 0#8
/-- A STRCMD command: kept in the register; ignored while one is busy; refused for a reserved bit or a value out of range; an open
also for a context that is not there. -/
def strCmd (s0 : State) (op : Nat) (c : StreamCmd) (k : State → State) : Res :=
  let rcv := op % 2 == 1
  let s := s0.setPf { s0.pf with strcmd := BitVec.ofNat 64 (op * 2 ^ 61) ||| strWord c }
  .next (if s0.pf.closing.isSome then s0
    else if c.rsv ≠ 0 ∨ (!rcv ∧ c.rctx ≠ 0) ∨ (op < 2 ∧ (smFind s.ctxs c.ctx.toNat).isNone) then refuseStr s rcv c 3
    else k s)
/-- OPEN_SEND (R334). -/
def execOpenSend (c : StreamCmd) (s : State) : Res :=
  strCmd s 0 c fun s =>
    if (smFind s.fab.send (sendKey c)).isSome then refuseStr s false c 2
    else if Config.streamEntries ≤ List.length s.fab.send then refuseStr s false c 1
    else if lostDies s 0x300000 then refuseStr s false c 3
    else
      let s := touch s c.ctx.toNat 0x300000
      setStr (s.setFab { s.fab with send := smPut s.fab.send (sendKey c) ⟨.opened, 0, 0, 0, 0⟩ }) 2 0 0
/-- OPEN_RECEIVE (R334). -/
def execOpenReceive (c : StreamCmd) (s : State) : Res :=
  strCmd s 1 c fun s =>
    let t := c.ftmo.toNat
    if t ≠ 0 ∧ (t < 16 ∨ 1000000 < t) then refuseStr s true c 3
    else if (smFind s.fab.arr (recvKey c)).isSome then refuseStr s true c 2
    else if Config.streamEntries ≤ List.length s.fab.arr then refuseStr s true c 1
    else if lostDies s 0x300000 then refuseStr s true c 3
    else
      let s := touch s c.ctx.toNat 0x300000
      setStr (s.setFab { s.fab with
        arr := smPut s.fab.arr (recvKey c) ⟨c.ctx.toNat, .opened, false, 0, 0, [], if t = 0 then 1000 else t, false, false⟩ }) 2 0 0
/-- CLOSE_SEND (R334): the entry is freed at once. -/
def execCloseSend (c : StreamCmd) (s : State) : Res :=
  strCmd s 2 c fun s =>
    match smFind s.fab.send (sendKey c) with
    | none => refuseStr s false c 4
    | some e => setStr (s.setFab { s.fab with send := smDel s.fab.send (sendKey c) }) 2 0 e.gen
/-- CLOSE_RECEIVE (R334): busy until every withheld flag has been applied or poisoned. -/
def execCloseReceive (c : StreamCmd) (s : State) : Res :=
  strCmd s 3 c fun s =>
    match smFind s.fab.arr (recvKey c) with
    | none => refuseStr s true c 4
    | some e =>
      if e.owner ≠ c.ctx.toNat then refuseStr s true c 4
      else
        let s := setStr (s.adjArr (recvKey c) fun e => { e with closing := true }) 1 0 e.gen
        settleEntry (s.setPf { s.pf with closing := some (recvKey c) }) (recvKey c)
/-- RSRESET at the peer (R163, R339): the arrival entry opens at the next generation, empty, its discarded flags waiting for
nothing more; the message is acknowledged. -/
def execRsresetRequest (port : Nat) (f : Flit) (s : State) : Res :=
  receive port f s fun s =>
    let s := dropTok s [11, flitKey f]
    let s := s.adjArr (flitKey f) fun e => { e with st := .opened, overrun := false, gen := e.gen + 1, nb := 0, slots := [], due := false }
    let s := s.setFab { s.fab with writes := smKeep (fun _ w => !w.flagOf (flitKey f)) s.fab.writes }
    settleEntry (sendOn s (some port) (mkFlit s 0x09 f.src.toNat f.stream.toNat f.sctx.toNat 0 f.count.toNat 0 [1#8, 0#8] false))
      (flitKey f)
/-- Complete an RSRESET once it is acknowledged and 500 us have passed since the pair's last reset (R163, R339). -/
def finishReset (s : State) (gid e : Nat) : State :=
  match (smFind s.gangs gid).bind fun g => smFind g.frags e with
  | none => s
  | some f => match f.wait with
    | .reset ctx stream peer z _ true =>
      match smFind s.fab.send (pairKey ctx stream peer) with
      | none => (s.adjGang gid (setGReg · z 1)).adjFrag gid e fun f => { f.step with st := .ready, wait := .none }
      | some x =>
        if x.lastReset ≠ 0 ∧ s.now < x.lastReset + 500000 then s
        else
          let x' : SendE := ⟨.opened, x.gen + 1, 0, 0, s.now⟩
          let s := s.setFab { s.fab with send := smPut s.fab.send (pairKey ctx stream peer) x' }
          (s.adjGang gid (setGReg · z (BitVec.ofNat 64 ((x.gen + 1) % 2 ^ 16 * 2 ^ 32)))).adjFrag gid e fun f =>
            { f.step with st := .ready, wait := .none }
    | _ => s
/-- CTLA (R328): the acknowledgement of an RSRESET lets the waiting fragment complete. -/
def execCtlaFlit (port : Nat) (f : Flit) (s : State) : Res :=
  receive port f s fun s =>
    if f.payload[0]? ≠ some 1#8 then s
    else
      (waiters s fun _ w => match w with
        | .reset ctx stream peer _ _ false => ctx == f.sctx.toNat && stream == f.stream.toNat && peer == f.src.toNat
        | _ => false).foldl (fun s p =>
          finishReset (s.adjFrag p.1 p.2 fun f => match f.wait with
            | .reset c st pe z d _ => { f with wait := .reset c st pe z d true }
            | _ => f) p.1 p.2) s
/-- RSRESET_HOLDOFF_END (R339). -/
def execRsresetHoldoffEnd (gid e : Nat) (s : State) : Res := .next (finishReset s gid e)

/-! The Penumbra exchange (R279, R393). -/

/-- PENUMBRA_EXCHANGE (R393): a search, a peer's message or its reply, which arrive at a port as every flit does, or the
delivery of a round (log 42). -/
def execPenumbraExchange (m : ExchangeMsg) (s : State) : Res :=
  match m with
  | .search b k => .next (searchPartner s b k)
  | .inbound via peer sctx stream sock asker _ coord shared =>
    takeMsg via s fun s => answerExchange s via.port peer sctx stream sock asker coord shared
  | .reply via b k n agree => takeMsg via s fun s => takeReply s b k n agree
  | .delivered b k r => .next (takeDelivery s b k r)

end Sys2Proof.Machine
end

