-- ==== Sys2Proof/Machine/Fetch.lean ====
section
/-! DEFINITION. Clauses (R71-R79): the classes of R77, clause enders, a clause's fetch and its checks in order, re-fetch
at a resume word, and the start of a clause. -/
namespace Sys2Proof.Machine

/-- The class of a long-latency operation (R77): false SA, true SB, none for fixed latency. -/
def opClass : Instr → Option Bool
  | .ldg .. | .ldgh .. | .ldgb .. | .lds .. | .ldsh .. | .ldsb .. | .lda .. | .gld .. => some false
  | .rld .. | .rldv .. | .gldk .. | .launchG .. => some false
  | .fdivF32 .. | .fsqrtF32 .. | .fdivF64 .. | .fsqrtF64 .. => some false
  | .stg .. | .stgh .. | .stgb .. | .sts .. | .stsh .. | .stsb .. | .stl .. | .cctl .. => some true
  | .rst .. | .rstv .. | .gstk .. => some true
  | .mma .. | .mmag .. | .mldt .. | .mstt .. | .mza .. | .mrdaTile .. | .mrdaScratch .. => some true
  | .atomAdd _ r _ _ _ _ _ => some (r == 1)
  | .atomFadd _ _ r _ _ _ _ _ => some (r == 1)
  | .atomMin _ _ r _ _ _ _ _ => some (r == 1)
  | .atomMax _ _ r _ _ _ _ _ => some (r == 1)
  | .atomBit .. | .atomExch .. | .cas .. => some false
  | .atomsc _ m _ _ _ _ => some (m == 3)
  | .ratom _ m _ _ _ | .ratomv _ m _ _ _ => some (m == 1)
  | _ => none
/-- The clause enders of R74. -/
def isEnder : Instr → Bool
  | .bra .. | .brq .. | .brx .. | .callG .. | .retG .. | .joinG .. | .regang .. | .gfuseRcv .. | .gfuseDon ..
  | .exitG .. | .yieldG .. | .dbr .. => true
  | _ => false

/-- The checks of R73 on the header word alone. -/
def hdrOk (w : Nat) : Bool :=
  let code := fun k => decide (k < 12) || k == 15
  fld w 28 4 == 10 && fld w 24 4 == 0 && code (fld w 20 4) && code (fld w 16 4)
/-- The instruction words that follow a header. -/
def hdrLen (w : Nat) : Nat := fld w 0 4 + 1
/-- A word's legal instruction class; a word that will take ILLEGAL_INSTR is no operation. An executor accepts more
atomics (R292). -/
def wordClass (run : Bool) (w : B32) : Option Bool :=
  match decodeWord w.toNat with
  | .ok i => if legal (if run then runForm i else i) then opClass i else none
  | .error _ => none
def wordEnds (w : B32) : Bool :=
  match decodeWord w.toNat with
  | .ok i => isEnder i
  | .error _ => false
/-- The checks of R73 that depend on the words. -/
def wordsOk (run : Bool) (hdr : Nat) (ws : List B32) : Bool :=
  ws.all (fun w => match wordClass run w with
    | some false => fld hdr 16 4 != 15
    | some true => fld hdr 20 4 != 15
    | none => true) && !((ws.dropLast).any wordEnds)

/-- What a clause's fetch gives; a fault's flag says whether the fetch parks. -/
inductive Fetched where
  | ok (s : State) (word : B32) (ws : List B32)
  | fault (s : State) (c : Code) (va : Nat) (word : B32) (parks : Bool)
  | wait (s : State)
/-- Split bytes into words. -/
def wordsOf (bs : List Byte) : List B32 :=
  (List.range (bs.length / 4)).map fun i => BitVec.ofNat 32 (leNat ((bs.drop (4 * i)).take 4))
/-- Fetch and check a whole clause in the order of R75, under the mark `tok`. -/
def fetchClause (s : State) (ctx : Nat) (tok : List Nat) (win : SMap (BitVec 192)) (hdr : B64) (run : Bool) : Fetched :=
  let va := hdr.toNat
  match readPart s ctx none (tok ++ [0]) win .fetch va 4 with
  | .wait s => .wait s
  | .fault s c a parks => .fault (dropTok s tok) c a 0 parks
  | .ok s bs psn =>
    let h := leNat bs
    let w := BitVec.ofNat 32 h
    if psn.isSome then .fault (dropTok s tok) .dataPoison (va + psn.getD 0) 0 false
    else if !hdrOk h then .fault (dropTok s tok) .illegalClause 0 w false
    else
      match readPart s ctx none (tok ++ [1]) win .fetch (va + 4) (4 * hdrLen h) with
      | .wait s => .wait s
      | .fault s c a parks => .fault (dropTok s tok) c a w parks
      | .ok s bs psn =>
        let s := dropTok s tok
        if psn.isSome then .fault s .dataPoison (va + 4 + psn.getD 0) w false
        else if wordsOk run h (wordsOf bs) then .ok s w (wordsOf bs)
        else .fault s .illegalClause 0 w false

/-- A fragment has no clause to issue from, or one to fetch again (R76). -/
def Frag.needsFetch (f : Frag) : Bool := match f.clause with | none => true | some c => c.stale
/-- CLAUSE_FETCH (R75, R76). -/
def execClauseFetch (gid e : Nat) (s : State) : Res :=
  .next (match smFind s.gangs gid with
    | none => s
    | some g =>
      match smFind g.frags e with
      | none => s
      | some f =>
        if !(f.st == .ready && f.needsFetch && g.ending.isNone && !g.held) then s
        else
          match fetchClause s g.ctx [7, gid, e] (s.winOf g.ctx) f.hdr false with
          | .wait s => s
          | .fault s c va w parks =>
            if parks then park s gid e c .fetch f.hdr w 0 (BitVec.ofNat 64 va)
            else terminate s gid c f.hdr w 0 (BitVec.ofNat 64 va)
          | .ok s w ws =>
            -- a resume word beyond the re-fetched clause (R76)
            if (f.pc - f.hdr).toNat / 4 ≤ ws.length then
              s.adjFrag gid e fun f => { f with clause := some ⟨f.hdr, w, ws, f.pc ≠ f.hdr, false⟩ }
            else terminate s gid .illegalClause f.hdr w 0 0)
/-- Every flag that a clause's WAIT selects is clear (R79). -/
def waitClear (g : Gang) (hdr : B32) : Bool := (List.range 12).all fun k => !hdr.getLsbD (4 + k) || smGet g.flags k 0 == 0
/-- CLAUSE_START (R79). -/
def execClauseStart (gid e : Nat) (s : State) : Res :=
  .next (match smFind s.gangs gid with
    | none => s
    | some g =>
      match smFind g.frags e with
      | none => s
      | some f =>
        match f.clause with
        | none => s
        | some c =>
          if f.st == .ready && !c.started && !c.stale && g.ending.isNone && !g.held && waitClear g c.word then
            s.adjFrag gid e fun f => { f with pc := f.hdr + 4, clause := some { c with started := true } }
          else s)

end Sys2Proof.Machine
end

