-- ==== Sys2Proof/Machine/Executors.lean ====
section
/-! DEFINITION. Near-bank executors (R286-R297): BXRUN, BXWAIT, the start of a run, its clauses, retries, releases, ends
and aborts. -/
namespace Sys2Proof.Machine

def slotOf (g : Gang) (k : Nat) : Slot := smGet g.slots k .idle
def setSlot (g : Gang) (k : Nat) (x : Slot) : Gang := { g with slots := smSet g.slots k x .idle }
def Slot.num : Slot → Nat
  | .idle => 0 | .running => 1 | .ended => 2 | .faulted => 3

/-- R289: the checks, the wait for the slot, and the start; the region ends. -/
def execBxrun (g : Guard) (m : BitVec 2) (x y : BitVec 6) (z : BitVec 5) (s : State) : Res :=
  group (.bxrun g m x y z) g s fun u s =>
    let p := (gReg u.g x.toNat).toNat
    let anchor := gReg u.g y.toNat
    if fld p 57 3 ≠ 0 then u.term .illegalInstr s
    else if p % 4 ≠ 0 then u.term .misaligned s 0 (BitVec.ofNat 64 (fld p 0 57))
    else
      match translate (s.winOf u.g.ctx) anchor.toNat (some .load) with
      | .error c => u.term c s 0 anchor
      | .ok (ia, _) =>
        if slotOf u.g m.toNat == .running then s
        else
          let run : Run := ⟨u.g.ctx, u.g.ten, u.gid, m.toNat, (u.g.core, u.g.quarter, u.g.slot),
            u.g.lantern, (if fld p 60 4 = 0 then 15 else fld p 60 4), anchor, gReg u.g (2 * z.toNat), gReg u.g (2 * z.toNat + 1), u.f.pc,
            u.word, 8 + transHome ia, none, 0, [], 0, [], .lines [], BitVec.ofNat 64 (fld p 0 57),
            BitVec.ofNat 64 (fld p 0 57), none, .start, none⟩
          let s := endRegion s u.g
          let s := s.adjGang u.gid (setSlot · m.toNat .running)
          u.adv { s with runs := smPut s.runs s.next run, next := s.next + 1 }

/-- No slot named in a mask is running. -/
def slotsDone (g : Gang) (mask : Nat) : Bool := (List.range 4).all fun k => !mask.testBit k || slotOf g k != .running
/-- The status bytes of R290. -/
def slotBytes (g : Gang) : B64 :=
  BitVec.ofNat 64 ((List.range 4).foldl (fun v k => v + (slotOf g k).num * 2 ^ (8 * k)) 0)
/-- A BXWAIT that can end: its result, the acquire at DEV scope, and the next word (R290). -/
def wakeSlots (s : State) (gid e : Nat) : State :=
  match smFind s.gangs gid with
  | none => s
  | some g =>
    match (smFind g.frags e).map fun (f : Frag) => f.wait with
    | some (Wait.slots x mask) =>
      if slotsDone g mask then
        (acquireAt (s.adjGang gid (setGReg · x (slotBytes g))) g.core 3).adjFrag gid e fun f =>
          { f.step with st := .ready, wait := .none }
      else s
    | _ => s
/-- R290. -/
def execBxwait (g : Guard) (x y : BitVec 6) (s : State) : Res :=
  group (.bxwait g x y) g s fun u s =>
    let m := (gReg u.g y.toNat).toNat
    if 16 ≤ m then u.term .illegalInstr s else wakeSlots (u.block (.slots x.toNat m) s) u.gid u.e
def execBxwaitTry (g : Guard) (x y : BitVec 6) (z : BitVec 3) (s : State) : Res :=
  group (.bxwaitTry g x y z) g s fun u s =>
    let m := (gReg u.g y.toNat).toNat
    if 16 ≤ m then u.term .illegalInstr s
    else
      let done := slotsDone u.g m
      let s := s.adjGang u.gid fun g => setQReg (setGReg g x.toNat (slotBytes u.g)) z.toNat done
      u.adv (if done then acquireAt s u.g.core 3 else s)

/-- A run is over: its slot is marked, in its gang or in the image that holds it, and its context is free (R295). -/
def closeRun (s : State) (r : Nat) (fin : Slot) : State :=
  match smFind s.runs r with
  | none => s
  | some x =>
    let s := { s with runs := smDel s.runs r }
    let mark := fun (g : Gang) => setSlot g x.rslot fin
    let s := s.adjGang x.gid mark
    let s := { s with images := smMap (fun _ im => { im with gangs := smAdj im.gangs x.gid mark }) s.images }
    (List.range 8).foldl (fun s e => wakeSlots s x.gid e) s
/-- The executor contexts of a unit that hold a run. -/
def busyCtxs (s : State) (unit : Nat) : List Nat :=
  (s.runs.filter fun p => p.2.unit == some unit).map fun p => p.2.ectx
/-- A run whose anchor faults has no unit: its record names the BXRUN (R296). -/
def anchorFault (s : State) (r : Nat) (x : Run) (cause : Nat) : State := runFault s r cause x.bpc x.bword x.anchor
/-- EXECUTOR_RUN_START (R289). -/
def execExecutorRunStart (r : Nat) (s : State) : Res :=
  .next (match smFind s.runs r with
    | none => s
    | some x =>
      if x.wait ≠ .start then s
      else
        match reach s x.ctx (s.winOf x.ctx) x.anchor.toNat .load with
        | .fault c => anchorFault s r x c.num
        | .map _ => anchorFault s r x Code.permission.num
        | .spot s0 sp =>
          if 3 ≤ sp.page.st then anchorFault s r x 0x60
          else if sp.page.st = 2 then s
          else
            let u := unitOf s.pf sp.page.at_
            match (List.range 4).find? fun k => x.cmask.testBit k && !(busyCtxs s u).contains k with
            | none => s
            | some k =>
              if partBusy s (winDies (s.winOf x.ctx)) (some (9, sp.page.at_)) then s else
              let s := touch s0 x.ctx (1#32 <<< (8 + u / 64))
              let s := releasePart s (some x.place.1) (winDies (s.winOf x.ctx)) (some (9, sp.page.at_))
              let lo := fun (b : B64) => b.setWidth 32
              let hi := fun (b : B64) => (b >>> 32).setWidth 32
              let v := [lo x.z0, hi x.z0, lo x.z1, hi x.z1, lo x.anchor, hi x.anchor, BitVec.ofNat 32 (u + 1024 * k)]
              let regs := v.zipIdx.foldl (fun m p => smSet m p.2 p.1 (0#32)) ([] : SMap B32)
              s.adjRun r fun x => { x with unit := some u, ectx := k, v := regs, win := s.winOf x.ctx, wait := .going })
/-- EXECUTOR_CLAUSE_FETCH (R287, R288). -/
def execExecutorClauseFetch (r : Nat) (s : State) : Res :=
  .next (match smFind s.runs r with
    | none => s
    | some x =>
      if x.wait ≠ .going ∨ x.clause.isSome then s
      else
        match fetchClause s x.ctx [8, r] x.win x.hdr true with
        | .wait s => s
        | .fault s .illegalClause _ w _ => runFault s r 0x02 x.hdr w x.anchor
        | .fault s c va _ _ => runFault s r c.num (BitVec.ofNat 64 va) 0 (BitVec.ofNat 64 va)
        | .ok s w ws => s.adjRun r fun x => { x with clause := some ⟨x.hdr, w, ws, true, false⟩, pc := x.hdr + 4 })
/-- The word that a run stands at. -/
def Run.wordAt (x : Run) : B32 :=
  (x.clause.bind fun c => if x.pc = c.hdr then none else c.words[((x.pc - c.hdr).toNat / 4 - 1)]?).getD 0
/-- The write set's back-invalidations at the home slices of the snapshot's windows (R294). -/
def runBackInv (s : State) (x : Run) (w : WSet) : State × Bool := backInv s (winDies x.win) (x.unit.getD 0) w
/-- The releasing write of a run, its acknowledgements being in (R294): performed at the frame, its own line is then
back-invalidated, which empties the write set; a bank under refresh stalls it (R293). -/
def releaseWrite (s : State) (r : Nat) (x : Run) (sp : Spot) (m : MDesc) (q : LaneReq) : State :=
  match runPerf s r x.unit sp m q with
  | .wait s t => s.adjRun r fun x => { x with wait := .stall (max s.now t) }
  | .cxl s _ _ _ => s
  | .done s f =>
    if f.psn.isSome && m.dir != .store then
      runFault s r Code.dataPoison.num x.pc x.wordAt (q.va + BitVec.ofNat 64 (f.psn.getD 0))
    else
      let b := runBackInv (runDone s r m sp.ia f) x (.lines [sp.ia / 128])
      b.1.adjRun r fun x => if b.2 then { x with wset := .lines [] } else { x with wait := .release none }
/-- Issue a run's waiting access again, with the same registers (R293). -/
def runAgain (s : State) (r : Nat) (x : Run) : State :=
  match x.pend with
  | none => s.adjRun r fun x => { x with wait := .going }
  | some (m, q) =>
    match runReach s x q.va.toNat m.xkind with
    | .error c => runFault s r c x.pc x.wordAt q.va
    | .ok (s, sp) => if m.relDev then releaseWrite s r x sp m q else runTry s r x sp m q x.wordAt
/-- EXECUTOR_REFRESH_RETRY (R293): the stalled access is issued again. -/
def execExecutorRefreshRetry (r : Nat) (s : State) : Res :=
  .next (match smFind s.runs r with
    | some x => match x.wait with
      | .stall t => if t ≤ s.now then runAgain s r x else s
      | _ => s
    | none => s)
/-- EXECUTOR_RELEASE_ACKED (R294, R295): once every covered line is gone, the releasing access is performed, or the run
ends. -/
def execExecutorReleaseAcked (r : Nat) (s : State) : Res :=
  .next (match smFind s.runs r with
    | none => s
    | some x =>
      match x.wait with
      | .release fin =>
        let b := runBackInv s x x.wset
        if !b.2 then b.1
        else
          let s := b.1.adjRun r fun x => { x with wset := .lines [] }
          match fin, x.pend with
          | some k, _ => closeRun s r k
          | none, none => s.adjRun r fun x => { x with wait := .going }
          | none, some (m, q) =>
            match runReach s x q.va.toNat m.xkind with
            | .error c => runFault s r c x.pc x.wordAt q.va
            | .ok (s, sp) => releaseWrite s r x sp m q
      | _ => s)
/-- Abort a run (R297): it ends with cause 0, unless it is ending already. -/
def abortRun (s : State) (r : Nat) : State :=
  match smFind s.runs r with
  | none => s
  | some x => match x.wait with
    | .release (some _) => s
    | .start => anchorFault s r x 0
    | _ => runFault s r 0 x.pc x.wordAt x.anchor

end Sys2Proof.Machine
end

