-- ==== Sys2Proof/Machine/HostPool.lean ====
section
/-! DEFINITION. The host and the pool (R347-R357): host reads and writes through HDM windows, host bits, external snoops,
fills through the device snoop filter, their failures, and the training of host and pool ports. Messages out are
`host.out`: 0 read shared, 1 read exclusive, 2 write-back, 3 BISnpInv, 4 snoop answer, 6 uncached read, 7 uncached write,
8 data for a host read. -/
namespace Sys2Proof.Machine

def State.adjHport (s : State) (p : Nat) (f : HPort → HPort) : State :=
  { s with host := { s.host with ports := smPut s.host.ports p (f (hport s p)) } }
def hostSend (s : State) (kind a : Nat) (bs : List Byte) (psn : Bool) : State :=
  { s with host := { s.host with out := s.host.out ++ [(kind, a, bs, psn)] } }

/-! Host requests (R350). -/

/-- The HDM window of a port that covers a host address, and the IA with its home set and tenant. -/
def hdmWindow (pf : Pf) (port hpa : Nat) : Option (Nat × Nat × Nat) :=
  (((List.range 8).map fun n => (smGet pf.hdmw (port * 8 + n) 0#128).toNat).find? fun w =>
      w.testBit 109 && decide (fld w 0 40 ≤ hpa / 2 ^ 16) && decide (hpa / 2 ^ 16 ≤ fld w 0 40 + fld w 40 24)).map fun w =>
    (fld w 64 36 * 2 ^ 16 + (hpa - fld w 0 40 * 2 ^ 16), fld w 120 8, fld w 110 10)
/-- Where a host access goes; none where the request is refused. -/
def hostPlace (s : State) (port hpa : Nat) (k : AccKind) : Option (State × Spot) :=
  match hdmWindow s.pf port hpa with
  | none => none
  | some (ia, home, ten) =>
    if 2 ^ 52 ≤ ia ∨ isMap ia ∨ home = 0 then none
    else
      match lookup s (keyUnit (homeKey ia home)) ten ia (some k) with
      | .error _ => none
      | .ok (s, p) => if 2 ≤ p.st ∨ lostDies s (pageDies s.pf p) then none else some (s, ⟨p, ia, home, 1⟩)
/-- A host request is refused: its port counts an error. -/
def hostRefused (s : State) (port : Nat) : State := s.adjHport port fun x => { x with errs := x.errs + 1 }
/-- A piece of a host's request, in its turn at its home slice (R203). -/
def hostPiece (s : State) (k : Nat) (i : Nat) (x : Spot) (n : Nat) (d : Do) : Eng :=
  engTurn s (keyUnit (homeKey x.ia x.home)) (x.ia / 128) (.eng [15, k, i]) x.page fun s =>
    -- a write reaches the frame at once, and so waits for its bank
    if d.writes && bankBusy s x.page.at_ then .wait s (hintEnd s x.page.at_)
    else match engineAccess s x n d with
    | .done s f => .done s f
    | .wait s t => .wait s t
    | .cxl s .. => .wait s 0
/-- What a host's request has come to. -/
inductive HostRes where
  | done (s : State) (bs : List Byte) (psn : Bool)
  /-- It waits before its part that begins at an address; so many bytes of it are done. -/
  | wait (s : State) (done : Nat)
  | refused (s : State)
/-- The data of a host read. -/
def hostFetch (port k : Nat) : List (Nat × Nat) → State → List Byte → Bool → HostRes
  | [], s, acc, p => .done s acc p
  | (a, n) :: l, s, acc, p =>
    match hostPlace s port a .load with
    | none => .refused s
    | some (s, x) =>
      match hostPiece s k l.length x n .load with
      | .done s f => hostFetch port k l s (acc ++ f.data) (p || f.psn.isSome)
      | .wait s _ | .fault s .. => .wait s 0
/-- The halves that a host receives for caching keep a host bit each (R351). -/
def setHostBits (s : State) (port hpa len : Nat) : State :=
  (List.range (len / 64)).foldl (fun s i =>
    match hostPlace s port (hpa + 64 * i) .load with
    | some (s, x) => s.setMem { s.mem with hostBits := smPut s.mem.hostBits (x.ia / 64) x.page.at_ }
    | none => s) s
/-- A host write's pieces: the host's own copy of a half needs no snoop. -/
def hostStore (port k : Nat) : List (Nat × Nat) → List Byte → Nat → State → HostRes
  | [], _, _, s => .done s [] false
  | (a, n) :: l, bs, at_, s =>
    match hostPlace s port a .store with
    | none => .refused s
    | some (s, x) =>
      let bits := s.mem.hostBits
      match hostPiece (s.setMem { s.mem with hostBits := smDel bits (x.ia / 64) }) k l.length x n (.store (bs.take n)) with
      | .done s _ =>
        -- the bytes reach the frame, where the translation home reads its tables (R207)
        let key := homeKey x.ia x.home
        let m := match smFind s.mem.l2 key with | some l => cleanLine s.mem key l | none => s.mem
        hostStore port k l (bs.drop n) (at_ + n) (s.setMem { m with hostBits := bits })
      | .wait s _ | .fault s .. => .wait (s.setMem { s.mem with hostBits := bits }) at_
/-- Perform a host's request as far as it goes; what must wait stays, to be performed later. A read of whole halves through
CXL 3.1 is for caching; any other read is uncached. -/
def hostServe (k : Nat) (s : State) : State :=
  match smFind s.host.pend k with
  | none => s
  | some q =>
    let ps := cutHalves (q.len / 64 + 2) q.hpa q.len
    let gone := fun (s : State) => dropTok { s with host := { s.host with pend := smDel s.host.pend k } } [15, k]
    match q.data with
    | none => match hostFetch q.port k ps s [] false with
      | .refused s => hostSend (hostRefused (gone s) q.port) 8 q.hpa (List.replicate q.len 0) true
      | .wait s _ => s
      | .done s bs psn =>
        let s := gone s
        let cache := (hport s q.port).cxl = 0x0301#16 ∧ q.hpa % 64 = 0 ∧ q.len % 64 = 0
        hostSend (if cache then setHostBits s q.port q.hpa q.len else s) 8 q.hpa bs psn
    | some bs => match hostStore q.port k ps bs 0 s with
      | .refused s => hostRefused (gone s) q.port
      | .wait s n =>
        let q := { q with hpa := q.hpa + n, len := q.len - n, data := some (bs.drop n) }
        { s with host := { s.host with pend := smPut s.host.pend k q } }
      | .done s .. => gone s
/-- A host's request arrives. -/
def hostTake (q : HostReq) (s : State) : State :=
  hostServe s.next { s with next := s.next + 1, host := { s.host with pend := smPut s.host.pend s.next q } }
/-- HOST_READ (R350). -/
def execHostRead (port hpa len : Nat) (s : State) : Res := .next (hostTake ⟨port, hpa, len, none⟩ s)
/-- HOST_WRITE (R350): a refused write is dropped and counted. -/
def execHostWrite (port hpa : Nat) (data : List (BitVec 8)) (s : State) : Res :=
  let ps := cutHalves (data.length / 64 + 2) hpa data.length
  .next (if ps.all fun q => (hostPlace s port q.1 .store).isSome then hostTake ⟨port, hpa, data.length, some data⟩ s
    else hostRefused s port)
/-! The bridge (R352-R355). -/

/-- The home line of a half of a pool or host line. -/
def poolKey (s : State) (half : Nat) : Option Nat :=
  (smKeys (fun k l => keyLine k == half / 2 && (match l.under with | .pool _ => true | .frame _ => false)) s.mem.l2).head?
/-- EXTERNAL_SNOOP (R354, R355). -/
def execExternalSnoop (half : Nat) (kind : SnoopKind) (s : State) : Res :=
  .next (
    let s := match poolKey s half with
      | none => s
      | some key =>
        let st := match smFind s.mem.l2 key with | some l => l.half (half % 2) | none => .i
        if st == .i || (st == .s && kind == .data) then s else surrender s key (half % 2) (kind == .data)
    hostSend s 4 half [] false)
/-- Give up the half with a snoop-filter entry (R353). -/
def evictHalf (s : State) (half : Nat) : State :=
  match poolKey s half with
  | some key => surrender s key (half % 2) false
  | none => s.setMem { s.mem with filter := smDel s.mem.filter half }
/-- The least recently filled entry among some. -/
def oldestEntry (l : SMap (Nat × Nat × Nat)) : Option Nat :=
  (l.foldl (fun (best : Option (Nat × Nat)) p =>
    match best with
    | some b => if p.2.2.1 < b.2 then some (p.1, p.2.2.1) else best
    | none => some (p.1, p.2.2.1)) none).map Prod.fst
/-- Room in the snoop filter for one more entry of a tenant (R352, R353). -/
def makeRoom (s : State) (ten : Nat) : State :=
  let mine := smKeep (fun _ e => e.1 == ten) s.mem.filter
  let q := min 16 (s.tenant ten).quota
  let victim := if q ≠ 0 ∧ q * 2 ^ 20 ≤ List.length mine then oldestEntry mine
    else if Config.snoopEntries ≤ List.length s.mem.filter then oldestEntry s.mem.filter
    else none
  match victim with
  | some h => evictHalf s h
  | none => s
/-- The marks of a line whose half j has arrived. -/
def halfMarks (l : L2Line) (j : Nat) (f : Bool → Bool) : BitVec 8 :=
  ofBits 8 ((List.range 8).filter fun i => if i / 4 = j then f (l.poison.getLsbD i) else l.poison.getLsbD i)
/-- A half's line with what has arrived for it (R354): data for a half not held; an upgrade keeps the half's bytes; a half
held E or M stays as it is. Poison marks the data (R357). -/
def takeHalf (l : L2Line) (j : Nat) (excl : Bool) (data : List Byte) (psn : Bool) : L2Line :=
  let st := if excl then HState.e else .s
  match l.half j with
  | .i => { l with bytes := patch l.bytes (64 * j) ((data ++ List.replicate 64 0).take 64)
                   poison := halfMarks l j fun _ => psn }.setHalf j st
  | .s => { l with poison := halfMarks l j fun x => x || psn }.setHalf j st
  | .e | .m => l
/-- A half arrives for a home line (R352, R354). A new line takes its way in the set with the lowest priority, which the
access then raises (R199); it waits where the host must first give up what that evicts. -/
def fillHalf (s : State) (q : CxlReq) (data : List Byte) (psn : Bool) : Except State State :=
  let j := q.half % 2
  let s := if (smFind s.mem.filter q.half).isSome then s else makeRoom s q.ten
  let at_ : Except State (State × L2Line) := match smFind s.mem.l2 q.key with
    | some l => .ok (s, l)
    | none => room s q.key ⟨List.replicate 128 0, 0, 0, .pool (q.pa / 128 * 128), 0, 0, .i, .i, 0, s.mem.clock, false⟩
  at_.map fun (s, l) =>
    let r := recallL1 s.mem (keyLine q.key) l (fun _ _ => true)
    s.setMem { r.1 with
      l2 := smPut r.1.l2 q.key (takeHalf r.2 j q.excl data psn)
      filter := if (smFind r.1.filter q.half).isSome then r.1.filter else smPut r.1.filter q.half (q.ten, s.next, q.ctx) }
/-- The address that a failed write's record names: the lane's VA, or the IA. -/
def writeAddr (q : CxlReq) : B64 :=
  match q.lane with
  | some x => x.va
  | none => BitVec.ofNat 64 (q.half * 64 + (match q.write with | some w => w.1 | none => 0))
def State.setReq (s : State) (k : Nat) (q : CxlReq) : State := { s with host := { s.host with reqs := smPut s.host.reqs k q } }
/-- A lane's answer, with the lanes of its issue that read the same half (R223); an LDA of a flag that is marked poisoned parks
(R312). -/
def answerLanes (s : State) (q : CxlReq) (data : List Byte) (psn : Bool) : State :=
  (smKeys (fun _ x => x.sameRead q) s.host.reqs).foldl (fun s k =>
    match smFind s.host.reqs k with
    | some x => match x.op, x.lane with
      | some o, some l =>
        let flag := (smFind s.ops o).any (fun y => match y.kind with | .mem m => m.acquires && m.dir == .load | _ => false)
          && smGet s.mem.flagMarks ((q.half * 64 + l.va.toNat % 64) / 8) false
        answerLane { s with host := { s.host with reqs := smDel s.host.reqs k } } o l
          (if psn then .error (.dataPoison, false, l.va) else if flag then .error (.flagPoisoned, true, l.va)
            else .ok ((data.drop (l.va.toNat % 64)).take 64))
      | _, _ => s
    | none => s) s
/-- An uncached atomic of a lane has read its half: it writes what it makes of it, and keeps the old bytes; a compare that
fails writes nothing, and answers with them (R198, R235, R352). -/
def laneRmw (s : State) (k : Nat) (q : CxlReq) (o : Nat) (l : LaneReq) (data : List Byte) : State :=
  match (smFind s.ops o).map fun (x : Op) => x.kind with
  | some (OpKind.mem m) =>
    let off := l.va.toNat % 64
    let old := (data.drop off).take m.size
    match laneDo m l with
    | .rmw f => match f old with
      | some v =>
        hostSend (s.setReq k { q with write := some (off, v), old := some old, deadline := s.now + 10000000,
                                      port := poolPort s q.pa }) 7 q.pa v false
      | none => answerLane { s with host := { s.host with reqs := smDel s.host.reqs k } } o l (.ok old)
    | _ => s
  | _ => s
/-- An uncached store that the pool or the host has performed clears the marks of the flags it has written (R312). -/
def unmarkAt (s : State) (q : CxlReq) : State :=
  match q.write with
  | some w => s.setMem (unmark s.mem (q.half * 64 + w.1) w.2.length)
  | none => s
/-- A CXL answer is taken: data, poisoned or not; a write that failed posts its record (R357). -/
def takeCxl (s : State) (k : Nat) (q : CxlReq) (data : List Byte) (psn : Bool) : State :=
  let s0 := { s with host := { s.host with reqs := smDel s.host.reqs k }, next := s.next + 1 }
  if !q.direct then
    match fillHalf s0 q data psn with
    | .ok s => redoAll s
    | .error s => s.setReq k { q with ans := some (data, psn) }
  else match q.write, q.op, q.lane with
    | none, some o, some l =>
      if !q.excl then answerLanes s q data psn
      else if psn then answerLane s0 o l (.error (.dataPoison, false, l.va))
      else laneRmw s k q o l data
    | none, _, _ => s.setReq k { q with ans := some (data, psn) }
    | some _, op, lane =>
      let rec_ : Rec := ⟨.dataPoison, .async, 0, keyDie q.key, none, 0, 0, 0, writeAddr q, 0, 0, 0, false, none⟩
      let post := fun s => if psn then postRec s q.ctx rec_ else s
      let wrote := fun s => if psn then postRec s q.ctx rec_ else unmarkAt s q
      match op, lane with
      | some o, some l => answerLane (wrote s0) o l (.ok (q.old.getD []))
      -- a write-back brings nothing new
      | _, _ => if q.tok = [] then post s0 else wrote (s.setReq k { q with ans := some ([], psn) })
/-- Fills that waited for their way in the set are made. -/
def fillWaiting (s : State) : State :=
  (smKeys (fun _ (q : CxlReq) => !q.direct && q.ans.isSome) s.host.reqs).foldl (fun s k =>
    match smFind s.host.reqs k with
    | some q => match q.ans with
      | some (bs, psn) => takeCxl s k q bs psn
      | none => s
    | none => s) s
/-- Records that waited for their place are written, in every context. -/
def drainAll (s : State) : State := (List.map Prod.fst s.ctxs).foldl drainQueue s
/-- The host's dirty data of a half reaches its home line, whose L1 copies give way to it, or the frame (R306, R351); it is a
store to the flags it covers (R312). -/
def birspData (m : Mem) (half pa : Nat) (bs : List Byte) : Mem :=
  let bs := bs.take 64
  let ia := 64 * half
  let home := m.l2.find? fun p => keyLine p.1 == half / 2 && p.2.under == .frame (pa / 128 * 128)
  let m := match home with
    | some (k, l) => (sliceAccess m l ia bs.length k (.store bs)).1
    | none => (onFrame m pa bs.length (.store bs)).1
  unmark m ia bs.length
/-- BIRSP (R351): the half's dirty data, if any, reaches the home line or the frame, and the host bit clears; what waited for
it goes on. -/
def execBirsp (half : Nat) (dirty : Option (List (BitVec 8))) (s : State) : Res :=
  .next (match smFind s.mem.snooping half with
    | none => s
    | some pa =>
      let m := { s.mem with snooping := smDel s.mem.snooping half, hostBits := smDel s.mem.hostBits half }
      let m := match dirty with
        | some bs => birspData m half pa bs
        | none => m
      redoAll (drainAll (fillWaiting (refit (s.setMem m)))))

/-- CXL_FILL_RESPONSE (R352): read data, or a write's completion; `psn` on a completion says that the write was refused. -/
def execCxlFillResponse (req : Nat) (data : List (BitVec 8)) (psn : Bool) (s : State) : Res :=
  .next (match smFind s.host.reqs req with
    | none => s
    | some q => if q.ans.isSome then s else takeCxl s req q data psn)
/-- A request that has failed: poisoned data, or a write not completed. -/
def failCxl (s : State) (k : Nat) : State :=
  match smFind s.host.reqs k with
  | none => s
  | some q => if q.ans.isSome then s else takeCxl s k q (List.replicate 64 0) true
/-- CXL_REQUEST_TIMEOUT (R357): after 10 ms of package time. -/
def execCxlRequestTimeout (req : Nat) (s : State) : Res :=
  .next (match smFind s.host.reqs req with
    | none => s
    | some q => if q.deadline ≤ s.now then failCxl s req else s)
/-- The requests that have gone out on a port fail with it (R357). -/
def failPort (s : State) (port : Nat) : State :=
  (smKeys (fun _ (q : CxlReq) => q.port == port) s.host.reqs).foldl failCxl s
/-- POOL_PORT_FAILURE (R357): later requests take the next live port. -/
def execPoolPortFailure (port : Nat) (s : State) : Res :=
  .next (failPort (s.adjHport (2 + port) fun x => { x with live := false }) (2 + port))

/-- What a host or pool port's training settles (R347, R348): the CXL version, the speed, the width and the flit size; a host
port without CXL runs plain PCIe. 64 GT/s runs in flit mode only, CXL 2.0 with 68-byte flits. -/
def trainHost (port : Nat) (o : LinkOffer) (errs : Nat) : HPort :=
  let v := match o.cxl with
    | some v => if 0x0301#16 ≤ v then 0x0301#16 else if 0x0200#16 ≤ v ∧ port < 2 then 0x0200#16 else 0#16
    | none => 0#16
  let big := decide (256 ≤ o.flit ∧ v ≠ 0x0200#16)
  let gts := if 64 ≤ o.gts ∧ big then 64 else if 32 ≤ o.gts then 32 else if 16 ≤ o.gts then 16 else 0
  let lanes := if 16 ≤ o.lanes then 16 else if 8 ≤ o.lanes then 8 else if 4 ≤ o.lanes then 4 else 0
  let up := if port < 2 then decide (gts ≠ 0 ∧ lanes ≠ 0) else decide (v = 0x0301#16 ∧ big ∧ gts ≠ 0 ∧ lanes = 16)
  if up then ⟨true, v, gts, lanes, if big then 256 else if v = 0 then 0 else 68, false, errs⟩
  else ⟨false, 0, 0, 0, 0, false, errs⟩
/-- A trained host port has failed: a loss of I/O die 20 + i for its host memory (R357, R56). Its requests fail, and every
context that has accessed that memory takes DIE_LOST. -/
def hostPortLost (s : State) (i : Nat) : State :=
  let s := failPort (s.adjHport i fun x => { x with failed := true }) i
  { s with ctxs := smMap (fun _ (c : Ctx) =>
      if c.hosts.getLsbD i && c.doomed.isNone then { c with doomed := some (20 + i) } else c) s.ctxs }
/-- HOST_LINK_TRAIN (R348): ports 0 and 1 are host ports, 2 to 5 are pool ports 0 to 3. A trained port that no longer trains
has failed (R357, log 47). -/
def execHostLinkTrain (port : Nat) (offer : LinkOffer) (s : State) : Res :=
  .next (
    if 6 ≤ port then s
    else
      let was := (hport s port).live
      -- a failed port stays so until it trains again
      let s := s.adjHport port fun x =>
        let y := trainHost port offer x.errs
        { y with failed := x.failed && !y.live }
      if !was || (hport s port).live then s
      else if port < 2 then hostPortLost s port
      else failPort s port)

end Sys2Proof.Machine
end

