-- ==== Sys2Proof/Machine/Launch.lean ====
section
/-! DEFINITION. Launching and retiring work (R13-R19, R41-R53, R58-R61, R157, R375, R382, R384): headers, LAUNCH,
eligibility, the dispatcher's order and placement, restores, Lantern gangs, the ends of gangs and workgroups, completion. -/
namespace Sys2Proof.Machine

/-! The launch header (R43-R45). -/

abbrev Hdr := BitVec 1024
def hf (h : Hdr) (lo n : Nat) : Nat := fld h.toNat lo n
def hPrio (h : Hdr) : Nat := hf h 16 4
def hIdem (h : Hdr) : Bool := hf h 20 1 == 1
/-- Width wk (R13). -/
def hW (h : Hdr) (k : Nat) : Nat := hf h (28 + 6 * k) 6
/-- b(k): the lowest bit of field k (R13). -/
def hB (h : Hdr) (k : Nat) : Nat := ((List.range k).map (hW h)).sum
/-- Field k of LASTID. -/
def hLast (h : Hdr) (k : Nat) : Nat := fld (hf h 128 64) (hB h k) (hW h k)
def hZero (h : Hdr) (k : Nat) : Bool := (hf h 244 6).testBit k
/-- Extent ek (R43). -/
def hE (h : Hdr) (k : Nat) : Nat := if hZero h k then 0 else hLast h k + 1
def hRegs (h : Hdr) : Nat := hf h 192 7
def hTiles (h : Hdr) : Nat := hf h 200 5
def hAccs (h : Hdr) : Nat := hf h 205 3
def hScratch (h : Hdr) : Nat := hf h 208 20
def hSpill (h : Hdr) : Nat := hf h 228 12
def hWaiten (h : Hdr) : Nat := hf h 250 4
def hSigen (h : Hdr) : Nat := hf h 254 2
def hEntry (h : Hdr) : Nat := hf h 64 64
/-- A counter's VA (R43). -/
def hCounter (h : Hdr) (off : Nat) : B64 := BitVec.ofNat 64 (hf h 448 64 + 8 * off)
/-- The checks of R45 on the header's contents. -/
def launchOk (h : Hdr) : Bool :=
  hf h 0 16 == 0x0100 && hf h 23 1 == 0 && hf h 199 1 == 0 && hf h 240 4 == 0
    && hW h 0 == 5 && decide (hW h 1 ≤ 4) && decide (hW h 2 ≤ 3) && decide (hW h 3 ≤ 59) && decide (hW h 4 ≤ 59)
    && decide (hW h 5 ≤ 59) && decide (hB h 6 ≤ 64) && hf h 128 64 / 2 ^ hB h 6 == 0
    && (List.range 6).all (fun k => !(hZero h k && hLast h k != 0))
    && decide (hRegs h ≤ 64) && decide (hTiles h ≤ 16) && decide (hAccs h ≤ 4) && decide (hScratch h ≤ 524288)
    && hScratch h % 16 == 0 && hEntry h % 4 == 0 && hEntry h / 2 ^ 57 == 0 && hf h 256 64 % 8 == 0
    && hf h 320 64 % 128 == 0 && hf h 384 64 % 64 == 0 && ((hWaiten h == 0 && hSigen h == 0) || hf h 448 64 % 8 == 0)
/-- No extent is zero (R15). -/
def hasWork (h : Hdr) : Bool := (List.range 6).all fun k => hE h k != 0
/-- The clusters of a launch (R15). -/
def clusters (h : Hdr) : Nat := if hasWork h then hE h 3 * hE h 4 * hE h 5 else 0
/-- The fields 3 to 5 of cluster n, and the work identifier of gang f1 of workgroup f2 in it, field 0 clear (R13, R15). -/
def gangWid (h : Hdr) (n f2 f1 : Nat) : Nat :=
  f1 * 2 ^ hB h 1 + f2 * 2 ^ hB h 2 + n % hE h 3 * 2 ^ hB h 3 + n / hE h 3 % hE h 4 * 2 ^ hB h 4
    + n / (hE h 3 * hE h 4) * 2 ^ hB h 5

/-! Core resources (R58, R60). -/

/-- What one workgroup takes: gangs, and for each gang its registers, tiles and accumulators; scratchpad bytes. -/
structure Needs where
  gangs : Nat
  regs : Nat
  tiles : Nat
  accs : Nat
  alloc : Nat
def hNeeds (h : Hdr) : Needs :=
  ⟨hE h 1, roundUp (hRegs h) 8, hTiles h, hAccs h, roundUp (hScratch h + hE h 1 * 16 * hSpill h) 1024⟩
/-- A core's free resources: for each quarter its free slots and registers; tiles, accumulators, scratchpad. -/
structure Room where
  slots : List (List Nat)
  regs : List Nat
  tiles : Nat
  accs : Nat
  scratch : Nat
def Room.all : Room :=
  ⟨List.replicate 4 (List.range Config.slotsPerQuarter), List.replicate 4 Config.regSlots, Config.tilesPerCore,
    Config.accsPerCore, Config.scratchPerCore⟩
def roomOf (s : State) (core : Nat) : Room :=
  let gs := (s.gangs.filter fun p => p.2.core == core).map Prod.snd
  let inQ := fun q => gs.filter fun (g : Gang) => g.quarter == q
  ⟨(List.range 4).map fun q => (List.range Config.slotsPerQuarter).filter fun k => !((inQ q).any fun g => g.slot == k),
    (List.range 4).map fun q => Config.regSlots - ((inQ q).map fun g => roundUp g.regs 8).sum,
    Config.tilesPerCore - (gs.map (·.tilesN)).sum, Config.accsPerCore - (gs.map (·.accsN)).sum,
    Config.scratchPerCore - ((s.wgs.filter fun p => p.2.core == core).map fun p => p.2.alloc).sum⟩
/-- Place gangs one after another on the lowest quarter with room, each in its lowest free slot: the model's choice (log 43). -/
def takeGangs (n : Needs) : Nat → Room → List (Nat × Nat) → Option (Room × List (Nat × Nat))
  | 0, r, acc => some (r, acc)
  | k + 1, r, acc =>
    match (List.range 4).find? fun q => !(r.slots.getD q []).isEmpty && decide (n.regs ≤ r.regs.getD q 0) with
    | none => none
    | some q =>
      match r.slots.getD q [] with
      | [] => none
      | sl :: rest =>
        takeGangs n k { r with slots := r.slots.set q rest, regs := r.regs.set q (r.regs.getD q 0 - n.regs) } (acc ++ [(q, sl)])
/-- Place a workgroup on a core: the room left and its gangs' quarters and slots. -/
def takeWg (n : Needs) (r : Room) : Option (Room × List (Nat × Nat)) :=
  if n.gangs * n.tiles ≤ r.tiles ∧ n.gangs * n.accs ≤ r.accs ∧ n.alloc ≤ r.scratch then
    (takeGangs n n.gangs r []).map fun x =>
      ({ x.1 with tiles := r.tiles - n.gangs * n.tiles, accs := r.accs - n.gangs * n.accs, scratch := r.scratch - n.alloc }, x.2)
  else none
/-- Place workgroups on the cores named, one core each: every gang's place. -/
def takeCores (s : State) (n : Needs) : List Nat → SMap Room → List (Nat × List (Nat × Nat)) → Option (List (Nat × List (Nat × Nat)))
  | [], _, acc => some acc
  | c :: cs, rooms, acc =>
    match takeWg n (smGet rooms c (roomOf s c)) with
    | none => none
    | some (r, ps) => takeCores s n cs (smPut rooms c r) (acc ++ [(c, ps)])
/-- The live cores of a tenant's core set on a die. -/
def dieCores (s : State) (ten die : Nat) : List Nat :=
  if s.plat.live.getLsbD die then (bitList (smGet (s.tenant ten).cores die 0)).map (64 * die + ·) else []
/-- How many workgroups fit in a room, up to k. -/
def fitCount (n : Needs) : Nat → Room → Nat
  | 0, _ => 0
  | k + 1, r => match takeWg n r with | none => 0 | some x => fitCount n k x.1 + 1
/-- Cores of one die that hold k workgroups together, each core filled in turn. -/
def fitDie (s : State) (ten : Nat) (n : Needs) (k die : Nat) : Option (List Nat) :=
  let cs := (dieCores s ten die).flatMap fun c => List.replicate (fitCount n k (roomOf s c)) c
  if k ≤ cs.length then some (cs.take k) else none
def findFit (s : State) (ten : Nat) (n : Needs) (k : Nat) : Option (List Nat) := (List.range 8).findSome? (fitDie s ten n k)
/-- The needs fit on the tenant's live dies with every core empty (R61). -/
def fitsEmpty (s : State) (ten : Nat) (n : Needs) (k : Nat) : Bool :=
  let m := fitCount n k Room.all
  (List.range 8).any fun d => decide (k ≤ m * (dieCores s ten d).length) && decide (m ≠ 0)
/-- Cores named for a placement: in the tenant's set, live, and of one die. -/
def coresOk (s : State) (ten : Nat) (cores : List Nat) : Bool :=
  match cores with
  | [] => false
  | c :: _ => cores.all fun x => x / 64 == c / 64 && (dieCores s ten (c / 64)).contains x

/-! Eligibility (R48, R49, R61). -/

/-- A dispatcher's record (R49, R61). -/
def dispRec (code : Code) (id : B64) (addr : B64) : Rec := ⟨code, .async, 5, 20, none, 0, 0, 0, addr, id, 0, 0, false, none⟩
/-- Read the enabled counters of launch `key`: whether all have reached their targets. Answers the launch's new state. -/
def pollCounters (key : Nat) (l : Launch) : List Nat → State → Launch → Option (State × Option (Launch × Bool))
  | [], s, x => some (s, some (x, true))
  | k :: ks, s, x =>
    let va := hCounter l.hdr (hf l.hdr (896 + 32 * k) 32)
    let fault := fun (s : State) (c : Code) =>
      if c == .pageNotPresent then
        let s := if x.posted.getLsbD k then s else postRec s l.ctx (dispRec c l.id va)
        some (s, some ({ x with posted := x.posted ||| (1#6 <<< k), retryAt := s.now + 10000 }, false))
      else some (postRec s l.ctx (dispRec c l.id va), none)
    match reach s l.ctx (s.winOf l.ctx) va.toNat .load with
    | .fault c => fault s c
    | .map _ => fault s .permission
    | .spot s p =>
      match engineDo s l.ctx [1, key, k] p 8 .load with
      | .wait s _ => some (s, some (x, false))
      | .fault s c parks => fault (dropTok s [1, key]) (asyncCode c parks)
      | .done s f =>
        if f.psn.isSome then fault (dropTok s [1, key]) .dataPoison
        else
          let x := { x with posted := x.posted &&& ~~~(1#6 <<< k) }
          if hf l.hdr (640 + 64 * k) 64 ≤ leNat f.data then pollCounters key l ks s x
          else some (dropTok s [1, key], some (x, false))
/-- Test a queued launch's conditions; one that first becomes eligible is checked against the core set (R61). -/
def testLaunch (s : State) (k : Nat) : State :=
  match smFind s.launches k with
  | none => s
  | some l =>
    if l.eligible then s
    else
      match pollCounters k l ((List.range 4).filter (hWaiten l.hdr).testBit) s { l with retryAt := 0 } with
      | none => s
      | some (s, none) => { s with launches := smDel s.launches k }
      | some (s, some (x, false)) => { s with launches := smPut s.launches k x }
      | some (s, some (x, true)) =>
        let s := dropTok s [1, k]
        let x := { x with eligible := true, retryAt := 0 }
        if hasWork x.hdr && !fitsEmpty s x.ten (hNeeds x.hdr) (hE x.hdr 2) then
          postRec { s with launches := smPut s.launches k { x with failed := true, nextCluster := clusters x.hdr } } x.ctx
            (dispRec .illegalInstr x.id x.hdrVa)
        else { s with launches := smPut s.launches k x }
/-- LAUNCH_ELIGIBLE (R48). -/
def execLaunchEligible (l : Nat) (s : State) : Res :=
  .next (match smFind s.launches l with
    | some x => if x.retryAt = 0 then testLaunch s l else s
    | none => s)
/-- LAUNCH_COUNTER_RETRY (R49). -/
def execLaunchCounterRetry (l : Nat) (s : State) : Res :=
  .next (match smFind s.launches l with
    | some x => if x.retryAt ≠ 0 ∧ x.retryAt ≤ s.now ∧ x.phase = 0 then testLaunch s l else s
    | none => s)

/-! LAUNCH (R44-R46, R157). -/

/-- The pending launches of a tenant's queue (R46): those with a workgroup not yet placed. -/
def pendingIn (s : State) (ten prio : Nat) : Nat :=
  List.length (s.launches.filter fun p => p.2.ten == ten && p.2.prio == prio && decide (p.2.phase = 0)
    && (!p.2.eligible || decide (p.2.nextCluster < clusters p.2.hdr) || !p.2.again.isEmpty))
/-- Read a header: 128 bytes at a VA of a context, for a cluster, under a mark (R44). -/
def readHdr (s : State) (ctx : Nat) (cl : Option (Nat × Nat)) (tok : List Nat) (va : Nat) : Got :=
  readBlock s ctx cl tok (s.winOf ctx) .load va 128
/-- Queue a launch (R46): the identifier is the context's next. One with no enabled wait condition is eligible as soon as it is
queued, and is checked against the core set at once (R48, R61). -/
def queueLaunch (s : State) (ctx ten : Nat) (va : B64) (h : Hdr) : State × B64 :=
  let id := match smFind s.ctxs ctx with | some c => c.nextLaunch | none => 1
  let l : Launch := ⟨ctx, ten, hPrio h, va, h, id, false, 0, 0, 0, [], 0, [], [], false, 0⟩
  let t := ({ s with launches := smPut s.launches s.next l, next := s.next + 1 } : State).adjCtx ctx fun c =>
    { c with nextLaunch := c.nextLaunch + 1 }
  (if hWaiten h = 0 then testLaunch t s.next else t, id)
/-- What a LAUNCH comes to; a fault's flag says whether it parks. -/
inductive Launched where
  | queued (s : State) (id : B64)
  /-- The header's memory is not ready. -/
  | wait (s : State)
  /-- The queue is full (R46). -/
  | full (s : State)
  | fault (s : State) (c : Code) (parks : Bool)
/-- The checks and the queueing of R44-R46, for a fragment. -/
def tryLaunch (s : State) (g : Gang) (gid e : Nat) (va : B64) : Launched :=
  if va.toNat % 128 ≠ 0 then .fault s .misaligned false
  else
    match readHdr s g.ctx (clusterOf s g.wg) [12, gid, e] va.toNat with
    | .wait s => .wait s
    | .fault s c _ parks => .fault (dropTok s [12, gid, e]) c parks
    | .ok s bs psn =>
      let h : Hdr := BitVec.ofNat 1024 (leNat bs)
      if psn.isSome then .fault s .dataPoison false
      else if !launchOk h then .fault s .illegalInstr false
      else if Config.queueDepth ≤ pendingIn s g.ten (hPrio h) then .full s
      else
        let r := queueLaunch s g.ctx g.ten va h
        .queued r.1 r.2
/-- The faults that a Lantern gang takes as asynchronous (R45). -/
def lanternAsync (c : Code) : Bool :=
  c == .illegalInstr || c == .misaligned || c == .windowMiss || c == .permission || c == .dataPoison
/-- A LAUNCH that is counted on its flag as operation k meets a fault (R45): a page fault parks, a Lantern gang goes on with
identifier 0, any other fault ends the gang's workgroup. -/
def launchFault (s : State) (k : Nat) (o : Op) (g : Gang) (x : Nat) (c : Code) (parks : Bool) (va : B64) : State :=
  if parks then
    park (s.setOp k { o with parked := true, todo := [⟨0, va, 0, 0, 0⟩] }) o.gid o.entry c (.op k) o.pc o.word 0 va
  else if g.lantern && lanternAsync c then
    unblock ((asyncRec s g c o.pc o.word va).setOp k { o with gout := [(x, 0)], todo := [], parked := false }) o.gid o.entry
  else terminate (closeOp s k) o.gid c o.pc o.word 0 va
/-- The header's place and the destination of a LAUNCH word. -/
def launchDest (w : B32) : Nat :=
  match decodeWord w.toNat with
  | .ok (.launchG _ x _) => x.toNat
  | _ => 0
/-- A LAUNCH that is counted on its flag as operation k is tried: first made after its issue, or replayed (R45). Its fragment
waits while the header's memory is not ready, and after a replay while the queue is full (log 49). -/
def launchAgain (k : Nat) (s : State) : State :=
  match smFind s.ops k with
  | none => s
  | some o =>
    match smFind s.gangs o.gid, o.todo with
    | some g, q :: _ =>
      match tryLaunch s g o.gid o.entry q.va with
      | .wait s | .full s =>
        (s.setOp k { o with parked := false }).adjFrag o.gid o.entry fun f => { f with st := .blocked, wait := .op k }
      | .fault s c parks =>
        -- a gang that has ended takes no fault more (R362)
        if g.ending.isSome then closeOp s k else launchFault s k o g (launchDest o.word) c parks q.va
      | .queued s id =>
        (s.setOp k { o with gout := [(launchDest o.word, id)], todo := [], parked := false }).adjFrag o.gid o.entry
          fun f => { f with st := .ready, wait := .none }
    | _, _ => s
/-- R157. A queue that is full holds the word back (R46); a header whose memory is not ready is read once the word has
issued (R101). -/
def execLaunchG (g : Guard) (x y : BitVec 6) (s : State) : Res :=
  groupOp (.launchG g x y) false g s fun u s =>
    let va := gReg u.g y.toNat
    match tryLaunch s u.g u.gid u.e va with
    | .full s => s
    | .wait s =>
      let r := openOp s { u.op false .launch with todo := [⟨0, va, 0, 0, 0⟩] }
      (u.adv r.1).adjFrag u.gid u.e fun f => { f with st := .blocked, wait := .op r.2 }
    | .queued s id => u.adv (openOp s { u.op false .launch with gout := [(x.toNat, id)] }).1
    | .fault s c parks =>
      let r := openOp s (u.op false .launch)
      launchFault (u.adv r.1) r.2 (u.op false .launch) u.g x.toNat c parks va

/-! The dispatcher's order (R50, R376, R384). -/

def ctxRuns (s : State) (ctx : Nat) : Bool := match smFind s.ctxs ctx with | some c => !c.stopped && !c.lost | none => false
def imageNeeds (im : Image) : Needs :=
  let g := im.gangs.map Prod.snd
  let n := match im.wgs with | p :: _ => p.2.gangs.length | [] => 1
  ⟨n, (g.head?.map fun x => roundUp x.regs 8).getD 0, (g.head?.map (·.tilesN)).getD 0, (g.head?.map (·.accsN)).getD 0,
    (im.wgs.head?.map fun p => p.2.alloc).getD 0⟩
/-- The image's cluster has more than one workgroup, whether or not all of them are in the image (R375). -/
def imageWide (s : State) (im : Image) : Bool :=
  match im.launch.bind fun l => smFind s.launches l with
  | some x => decide (2 ≤ hE x.hdr 2)
  | none => false
/-- Recorded positions are free (R375). -/
def imageFree (s : State) (im : Image) : Bool :=
  im.wgs.all fun p =>
    let r := roomOf s p.2.core
    let gs := (im.gangs.filter fun q => q.2.core == p.2.core).map Prod.snd
    gs.all (fun g => (r.slots.getD g.quarter []).contains g.slot)
      && (List.range 4).all (fun q => decide (((gs.filter fun g => g.quarter == q).map fun g => roundUp g.regs 8).sum ≤ r.regs.getD q 0))
      && decide ((gs.map (·.tilesN)).sum ≤ r.tiles) && decide ((gs.map (·.accsN)).sum ≤ r.accs)
      && decide (((im.wgs.filter fun q => q.2.core == p.2.core).map fun q => q.2.alloc).sum ≤ r.scratch)
def imageTen (s : State) (im : Image) : Nat := s.tenOf im.ctx
/-- The cores that an image records. -/
def imageCores (im : Image) : List Nat := im.wgs.map fun p => p.2.core
/-- The cores that an item can be placed on now: none where it cannot be. -/
def itemCores (s : State) (w : PlaceItem) : Option (List Nat) :=
  match w with
  | .fresh l => (smFind s.launches l).bind fun x =>
      if x.eligible && x.phase == 0 && decide (x.nextCluster < clusters x.hdr) && ctxRuns s x.ctx then
        findFit s x.ten (hNeeds x.hdr) (hE x.hdr 2) else none
  | .again l n => (smFind s.launches l).bind fun x =>
      if x.again.contains n && ctxRuns s x.ctx then findFit s x.ten (hNeeds x.hdr) (hE x.hdr 2) else none
  | .saved k => (smFind s.images k).bind fun im =>
      if !ctxRuns s im.ctx then none
      else if !imageWide s im then findFit s (imageTen s im) (imageNeeds im) 1
      else if imageFree s im && coresOk s (imageTen s im) (imageCores im) then some (imageCores im) else none
def itemTen (s : State) (w : PlaceItem) : Nat :=
  match w with
  | .fresh l | .again l _ => match smFind s.launches l with | some x => x.ten | none => 0
  | .saved k => match smFind s.images k with | some im => imageTen s im | none => 0
/-- A launch stands before another in the queues (R50): a higher priority, then the older. -/
def ahead (s : State) (l k : Nat) : Bool :=
  match smFind s.launches l, smFind s.launches k with
  | some x, some y => decide (y.prio < x.prio) || (x.prio == y.prio && decide (l < k))
  | _, _ => false
/-- The items of a tenant that are offered resources before an item. -/
def itemsBefore (s : State) (w : PlaceItem) : List PlaceItem :=
  let ten := itemTen s w
  let imgs := (s.images.filter fun p => imageTen s p.2 == ten).map fun p => PlaceItem.saved p.1
  let ls := (s.launches.filter fun p => p.2.ten == ten)
  let agains := ls.flatMap fun p => p.2.again.map fun n => PlaceItem.again p.1 n
  match w with
  | .saved _ => []
  | .again l _ => imgs ++ (ls.filter fun p => ahead s p.1 l).flatMap fun p => p.2.again.map fun n => PlaceItem.again p.1 n
  | .fresh l => imgs ++ agains ++ (ls.filter fun p => ahead s p.1 l).map fun p => PlaceItem.fresh p.1
/-- A Lantern gang of the tenant waits and fits somewhere (R384). -/
def lanternWaits (s : State) (ten : Nat) : Bool :=
  List.any s.lanterns fun p => s.tenOf p.2.ctx == ten && ctxRuns s p.2.ctx && (findFit s ten (hNeeds p.2.hdr) 1).isSome

/-! Placement (R16, R47, R60). -/

/-- A gang as it is placed. -/
def newGang (s : State) (h : Hdr) (ctx ten : Nat) (launch : Option Nat) (id : B64) (wg f1 core : Nat) (at_ : Nat × Nat)
    (wid : Nat) (lantern : Bool) : Gang :=
  let live : Lanes := BitVec.ofNat 32 (2 ^ hE h 0 - 1)
  let entry := BitVec.ofNat 64 (hEntry h)
  let g : SMap B64 := [(256, 0), (320, 1), (384, 2)].foldl (fun m p => smSet m p.2 (BitVec.ofNat 64 (hf h p.1 64)) 0) []
  ⟨ctx, ten, launch, some wg, f1, lantern, id, BitVec.ofNat 64 wid, core, at_.1, at_.2, hPrio h, hRegs h, hTiles h, hAccs h,
    hSpill h, hScratch h, hIdem h, BitVec.ofNat 64 (hf h 384 64), g, 0, [], [],
    (List.range (hE h 0)).foldl (fun m l => smSet m l (BitVec.ofNat 64 (wid + l)) 0) [], 0, 0, 0, 1, [], [], [], [], none, 0,
    live, 0, live, [], [], [(0, ⟨.ready, laneSlices live, entry, 0, false, entry, none, 0, 0, false, s.turn, .none⟩)], none, false⟩
/-- Place one workgroup: its record and its gangs, ordered after the launch's acquires and release (R48, R157). -/
def placeWg (h : Hdr) (ctx ten : Nat) (launch : Option Nat) (id : B64) (owner n : Nat) (lantern : Bool) (f2 : Nat)
    (p : Nat × List (Nat × Nat)) (s : State) : State :=
  let wg := s.next
  let gids := (List.range p.2.length).map (wg + 1 + ·)
  let need := hNeeds h
  let rec_ : Workgroup := ⟨owner, n, f2, ctx, ten, p.1, hScratch h, need.alloc, [], gids, p.2.length, false, false, [], []⟩
  let s := { s with wgs := smPut s.wgs wg rec_, next := wg + 1 + p.2.length }
  let s := (p.2.zipIdx).foldl (fun (s : State) q =>
    s.setGang (wg + 1 + q.2) (newGang s h ctx ten launch id wg q.2 p.1 q.1 (if lantern then 0 else gangWid h n f2 q.2) lantern)) s
  acquireSi (touch s ctx (1#32 <<< (p.1 / 64))) p.1
/-- Place cluster n of a launch on the cores named. -/
def placeCluster (s : State) (l n : Nat) (x : Launch) (cores : List Nat) : State :=
  match takeCores s (hNeeds x.hdr) cores [] [] with
  | none => s
  | some ps => (ps.zipIdx).foldl (fun s q => placeWg x.hdr x.ctx x.ten (some l) x.id l n false q.2 q.1 s) s

/-! Restores (R374, R375). -/

/-- A restored fragment: re-fetched, with no penalty, bypass or age; a stalled GWAIT gets a fresh TMO. -/
def wakeFrag (s : State) (f : Frag) : Frag :=
  let old : Option Clause := f.clause.map fun (c : Clause) => { c with stale := true }
  let f := { f with clause := old, penalty := 0, bypass := 0, urgent := false, age := s.turn }
  match f.wait with
  | .faces t m _ i => { f with wait := .faces t m (s.now + 1000 * (match smFind s.binds i with | some b => dTmo b.desc | none => 0)) i }
  | .parked p => { f with wait := .parked { p with resolvable := false } }
  | _ => f
/-- Each parked fragment of a restored gang posts a fresh record with the original code and class (R375). -/
def repost (s : State) (gid : Nat) (g : Gang) : State :=
  (fragsOf g).foldl (fun s q => match q.2.wait with
    | .parked p =>
      let r := gangRec g p.code .parked p.pc p.word p.mask p.addr
      postRec s g.ctx { r with owner := some (gid, q.1) }
    | _ => s) s
/-- A restored fragment's wait for a binding that was ending, which may have come true while it was saved (R273). -/
def rewakeFrag (s : State) (gid e : Nat) : State :=
  match (smFind s.gangs gid).bind fun g => (smFind g.frags e).map (g, ·) with
  | none => s
  | some (g, f) => match f.wait with
    | .bind va n =>
      if List.any s.binds fun q => q.2.ctx == g.ctx && q.2.va == va && q.2.ending then s
      else doBind f.instrAt.2 va n gid e f.pc f.instrAt.1 s
    | _ => s
/-- Waits of a restored gang that have come true meanwhile. -/
def rewake (s : State) (gid : Nat) : State :=
  match smFind s.gangs gid with
  | none => s
  | some g =>
    let s := (List.range 8).foldl (fun s e => rewakeFrag (wakeSlots s gid e) gid e) s
    let s := match g.bind with | some b => wakeFaces (wakeSteps s b) b | none => s
    redoAll s
/-- Put an image's parts back, each gang at its place. -/
def restore (s : State) (k : Nat) (im : Image) (places : List (Nat × List (Nat × Nat))) : State :=
  let at_ := fun (gid : Nat) (g : Gang) => match (im.wgs.zip places).find? fun p => p.1.2.gangs.contains gid with
    | some (w, c, ps) => (c, ps.getD (w.2.gangs.idxOf gid) (g.quarter, g.slot))
    | none => (g.core, (g.quarter, g.slot))
  let gangs := im.gangs.map fun p =>
    let c := at_ p.1 p.2
    (p.1, { p.2 with core := c.1, quarter := c.2.1, slot := c.2.2, held := false, hint := 1,
                     frags := smMap (fun _ f => wakeFrag s f) p.2.frags })
  let s := { s with images := smDel s.images k }
  let s := (im.wgs.zip places).foldl (fun (s : State) p => { s with wgs := smPut s.wgs p.1.1 { p.1.2 with core := p.2.1 } }) s
  let s := gangs.foldl (fun s p => s.setGang p.1 p.2) s
  let s := im.ops.foldl (fun s p => s.setOp p.1 (match p.2.kind with
    | .mem m => match m.form, smFind s.gangs p.2.gid with
      | .grid _, some g => { p.2 with deadline := stallEnd s g m }
      | _, _ => p.2
    | _ => p.2)) s
  let s := im.copies.foldl (fun (s : State) p =>
    let core := match p.2.wg.bind (smFind s.wgs ·) with | some w => w.core | none => p.2.core
    { s with copies := smPut s.copies p.1 { p.2 with core := core } }) s
  let s := (places.map Prod.fst).foldl (fun s c => acquireSi (touch s im.ctx (1#32 <<< (c / 64))) c) s
  let s := gangs.foldl (fun s p => repost s p.1 p.2) s
  gangs.foldl (fun s p => rewake s p.1) s
/-- The dispatcher's record of an image that is not restored. -/
def imageRec (s : State) (im : Image) (code : Code) (sock : Nat) (addr : B64) : State :=
  let id := match im.launch.bind (smFind s.launches ·) with | some l => l.id | none => 0
  postRec s im.ctx { dispRec code id addr with sock := sock }
/-- The launch of an image that cannot be restored completes as failed (R374, R375). -/
def failImage (s : State) (im : Image) : State :=
  match im.launch with
  | some l => s.adjLaunch l fun x => { x with failed := true }
  | none => s
/-- Gangs that are not restored are no participants of their bindings any more. -/
def dropGangs (s : State) (gs : List (Nat × Gang)) : State :=
  let s := gs.foldl (fun (s : State) p => unbindGang (s.setGang p.1 p.2) p.1) s
  gs.foldl (fun (s : State) p => { s with gangs := smDel s.gangs p.1 }) s
/-- A saved cluster is no longer saved. -/
def adjSaved (s : State) (im : Image) : State :=
  match im.launch with
  | some l => s.adjLaunch l fun x => { x with saved := x.saved - 1 }
  | none => s
/-- A cluster that is not restored at all. -/
def dropImage (s : State) (k : Nat) (im : Image) : State :=
  dropGangs (adjSaved (failImage { s with images := smDel s.images k } im) im) im.gangs
/-- A place of an image holds the bytes written, every cached copy written back (R374). -/
def savedOk (s : State) (pl : Nat × List Byte) : Bool :=
  let m := (linesOf pl.1 pl.2.length).foldl purgeFrame s.mem
  readBytes m.frames pl.1 pl.2.length == pl.2
/-- A workgroup that is not placed again counts as exited. -/
def wgDone (s : State) (w : Workgroup) : State :=
  s.adjLaunch w.launch fun l =>
    let done := smGet l.part w.cluster [] ++ [w.f2]
    if hE l.hdr 2 ≤ done.length then { l with part := smDel l.part w.cluster, partEnded := l.partEnded.filter (· ≠ w.cluster) }
    else { l with part := smPut l.part w.cluster done }
/-- The workgroups whose image check fails are not placed: a record names each image's PA, and the launch fails (R374). -/
def checkImage (s : State) (im : Image) : State × Image :=
  let bad := (im.wgs.zip im.places).filter fun p => !savedOk s p.2
  let ids := bad.map (·.1.1)
  if ids.isEmpty then (s, im)
  else
    let hit := fun (w : Option Nat) => match w with | some w => ids.contains w | none => false
    let s := bad.foldl (fun s p => wgDone (imageRec s im .dataPoison 20 (BitVec.ofNat 64 p.2.1)) p.1.2) (failImage s im)
    let lost := im.gangs.filter fun p => hit p.2.wg
    let gone := fun gid => lost.any fun p => p.1 == gid
    (dropGangs s lost, { im with
      wgs := im.wgs.filter fun p => !ids.contains p.1
      places := im.places.filter (savedOk s)
      gangs := im.gangs.filter fun p => !hit p.2.wg
      ops := im.ops.filter fun p => !gone p.2.gid
      copies := im.copies.filter fun p => !hit p.2.wg && !ids.contains p.2.barWg })
/-- Restore a saved image (R375). -/
def placeSaved (s : State) (k : Nat) (im : Image) (cores : List Nat) : State :=
  let lost := (im.wgs.map fun p => p.2.core / 64).find? fun d => !s.plat.live.getLsbD d
  if !ctxRuns s im.ctx then s
  else if imageWide s im then
    match lost with
    | some d => imageRec (dropImage s k im) im (.dieLost d) d 0
    | none =>
      if imageFree s im && coresOk s (imageTen s im) (imageCores im) then
        let r := checkImage s im
        adjSaved (restore r.1 k r.2 (r.2.wgs.map fun p =>
          (p.2.core, p.2.gangs.map fun gid =>
            match smFind r.2.gangs gid with | some g => (g.quarter, g.slot) | none => (0, 0)))) im
      else s
  else if coresOk s (imageTen s im) cores && cores.length == 1 then
    match takeCores s (imageNeeds im) cores [] [] with
    | some ps =>
      let r := checkImage s im
      adjSaved (restore r.1 k r.2 (if r.2.wgs.isEmpty then [] else ps)) im
    | none => s
  else s

/-- WORKGROUP_PLACE (R50, R60, R371, R375, R376): nothing that stands before the item can be placed. The clusters of a launch
that have not been placed are taken in ascending number, field 3 fastest: the model's choice, R18 promising no order (log
43). -/
def execWorkgroupPlace (w : PlaceItem) (cores : List Nat) (s : State) : Res :=
  let ten := itemTen s w
  .next (if lanternWaits s ten || (itemsBefore s w).any fun x => (itemCores s x).isSome then s
    else match w with
      | .fresh l =>
        match smFind s.launches l with
        | none => s
        | some x =>
          if (itemCores s w).isSome && coresOk s x.ten cores && cores.length == hE x.hdr 2
              && (takeCores s (hNeeds x.hdr) cores [] []).isSome then
            placeCluster (s.adjLaunch l fun y => { y with nextCluster := y.nextCluster + 1 }) l x.nextCluster x cores
          else s
      | .again l n =>
        match smFind s.launches l with
        | none => s
        | some x =>
          if (itemCores s w).isSome && coresOk s x.ten cores && cores.length == hE x.hdr 2
              && (takeCores s (hNeeds x.hdr) cores [] []).isSome then
            placeCluster (s.adjLaunch l fun y => { y with again := y.again.erase n }) l n x cores
          else s
      | .saved k => match smFind s.images k with
        | some im => placeSaved s k im cores
        | none => s)

/-! Lantern gangs (R384). -/

/-- ST of LGCMD. -/
def setLg (s : State) (st : Nat) : State := s.setPf { s.pf with lgcmd := BitVec.ofNat 64 (setFld s.pf.lgcmd.toNat 61 2 st) }
/-- The Lantern gangs of a tenant: resident, saved and waiting. -/
def lanternCount (s : State) (ten : Nat) : Nat :=
  List.length (s.gangs.filter fun p => p.2.lantern && p.2.ten == ten)
    + List.length (s.images.filter fun p => p.2.launch.isNone && imageTen s p.2 == ten)
    + List.length (s.lanterns.filter fun p => s.tenOf p.2.ctx == ten)
/-- The header's demands of R384 beyond R45. -/
def lanternOk (h : Hdr) : Bool :=
  launchOk h && hE h 0 == 32 && (List.range 5).all (fun k => hE h (k + 1) == 1) && hWaiten h == 0 && hSigen h == 0 && !hIdem h
/-- A Lantern gang is started or refused (R384); while its header's memory is not ready, ST stays 1. -/
def lgStart (ctx hdr : Nat) (s : State) : State :=
  let refuse := fun (s : State) => setLg ((dropTok s [13]).setPf { s.pf with lgwait := none }) 3
  match smFind s.ctxs ctx with
  | none => refuse s
  | some c =>
    if c.lost then refuse s
    else
      match readHdr s ctx none [13] (128 * hdr) with
      | .wait s => setLg (s.setPf { s.pf with lgwait := some (ctx, hdr) }) 1
      | .fault s .. => refuse s
      | .ok s bs psn =>
        let h : Hdr := BitVec.ofNat 1024 (leNat bs)
        if psn.isSome || !lanternOk h || decide (8 ≤ lanternCount s c.ten) || !fitsEmpty s c.ten (hNeeds h) 1 then refuse s
        else
          let s := s.setPf { s.pf with lgwait := none }
          setLg { s with lanterns := smPut s.lanterns s.next ⟨ctx, h⟩, next := s.next + 1 } 1
/-- The header of an accepted write of LGCMD is read again. -/
def lgAgain (s : State) : State :=
  match s.pf.lgwait with
  | some p => lgStart p.1 p.2 s
  | none => s
/-- LGCMD_START (R384): a write of LGCMD with GO = 1. A reserved bit is ignored (R5). -/
def execLgcmdStart (ctx : BitVec 10) (_b50 : BitVec 1) (hdr : BitVec 50) (s : State) : Res :=
  .next (if fld s.pf.lgcmd.toNat 61 2 = 1 then s
    else lgStart ctx.toNat hdr.toNat (s.setPf { s.pf with lgcmd := BitVec.ofNat 64 (ctx.toNat * 2 ^ 51 + hdr.toNat) }))
/-- LANTERN_PLACE (R384): ahead of every workgroup of the tenant not yet placed; none of a stopped context (R376). -/
def execLanternPlace (k core : Nat) (s : State) : Res :=
  .next (match smFind s.lanterns k with
    | none => s
    | some x =>
      let ten := s.tenOf x.ctx
      match takeCores s (hNeeds x.hdr) [core] [] [] with
      | some (p :: _) =>
        if coresOk s ten [core] && ctxRuns s x.ctx then
          let s := { s with lanterns := smDel s.lanterns k }
          setLg (placeWg x.hdr x.ctx ten none 0 k 0 true 0 p s) 2
        else s
      | _ => s)

/-! Retirement (R115, R382). -/

/-- A workgroup whose last gang has ended: it has exited (R382). -/
def wgExit (s : State) (w : Nat) : State :=
  match smFind s.wgs w with
  | none => s
  | some x =>
    if x.left ≠ 0 then s
    else
      let s := s.adjLaunch x.launch fun l =>
        let done := smGet l.part x.cluster [] ++ [x.f2]
        if hE l.hdr 2 ≤ done.length then { l with part := smDel l.part x.cluster, partEnded := l.partEnded.filter (· ≠ x.cluster) }
        else { l with part := smPut l.part x.cluster done
                      partEnded := if x.regionEnded then l.partEnded ++ [x.cluster] else l.partEnded }
      tidyWg s w
/-- A gang leaves its core (R115, R382): resources, run-slot states and binding go with it. -/
def retireGang (s : State) (gid : Nat) (g : Gang) : State :=
  let s := unbindGang s gid
  let s := { s with gangs := smDel s.gangs gid, ops := smKeep (fun _ o => o.gid != gid) s.ops }
  match g.wg with
  | none => s
  | some w => wgExit (s.adjWg w fun x => { x with left := x.left - 1 }) w
/-- A map address names a gang's slot (R66). -/
def namesSlot (g : Gang) (ia : Nat) : Bool :=
  let res := fld ia 28 3
  let slotNo := fld ia 0 28 / (match res with | 0 => 2 ^ 19 | 1 => 2 ^ 13 | _ => 2 ^ 15)
  isMap ia && fld ia 31 9 == g.core && slotNo == 16 * g.quarter + g.slot
/-- A VA of a context that names a gang's slot through the map. -/
def vaNames (s : State) (g : Gang) (ctx va : Nat) : Bool :=
  match translate (s.winOf ctx) va none with
  | .ok (ia, _) => namesSlot g ia
  | .error _ => false
/-- Map accesses to a gang's slot that have been accepted and still wait (R68, R382): lanes, LAUNCH's header, the reads of
acts that have issued, and pieces of chunks begun. -/
def mapPending (s : State) (g : Gang) : Bool :=
  List.any s.ops (fun p => !p.2.parked && p.2.todo.any fun q =>
      match smFind s.gangs p.2.gid with | some x => vaNames s g x.ctx q.va.toNat | none => false)
    || List.any s.gangs (fun p => p.2.ending.isNone && (fragsOf p.2).any fun q => match q.2.wait with
      | .redo _ vals => (vals.take 2).any fun va => vaNames s g p.2.ctx va.toNat
      | _ => false)
    || List.any s.copies fun p => !p.2.parked && List.any p.2.moved fun m =>
      match ((chunkPieces p.2 m.1).drop m.2).head? with
      | some x => (tf p.2.tmpl 496 2 != 1 && vaNames s g p.2.ctx x.dst)
        || (tf p.2.tmpl 494 2 != 1 && x.src.any fun y => vaNames s g p.2.ctx y.1)
      | none => false
/-- GANG_END (R115): the gang has ended and its flags are clear. Map accesses to it that wait complete first (R382). -/
def execGangEnd (gid : Nat) (s : State) : Res :=
  .next (match smFind s.gangs gid with
    | none => s
    | some g =>
      if g.ending.isSome && flagsClear g then
        let s := redoAll s
        if mapPending s g then s else retireGang s gid g
      else s)

/-! Completion (R51-R53). -/

/-- Every workgroup of the launch has exited, its scratchpad released: no chunk in flight writes it or counts on a barrier in
it (R382, R383). -/
def launchDone (s : State) (l : Nat) (x : Launch) : Bool :=
  x.eligible && decide (clusters x.hdr ≤ x.nextCluster) && x.again.isEmpty && x.saved == 0
    && !(List.any s.wgs fun p => p.2.launch == l)
/-- The completion release waits for writes to the host and the pool (R356). -/
def writesOut (s : State) (ctx : Nat) : Bool := List.any s.host.reqs fun p => p.2.ctx == ctx && p.2.write.isSome
/-- The steps of R51 from the launch's phase on, as far as they go. A signal on a remote page is a returning atomic on stream 0
(log 38): the next step waits until it has been performed. -/
def completeSteps : Nat → State → Nat → State
  | 0, s, _ => s
  | n + 1, s, k =>
    match smFind s.launches k with
    | none => s
    | some x =>
      let go := fun (s : State) (p : Nat) => s.adjLaunch k fun y => { y with phase := p, retryAt := 0 }
      match x.phase with
      | 0 =>
        if writesOut s x.ctx || (hf x.hdr 21 1 == 1 && releaseBusy s 5) then s
        else completeSteps n (go (if hf x.hdr 21 1 = 1 then releaseAt s 5 else s) (if x.failed then 3 else 1)) k
      | 1 | 2 =>
        let i := x.phase - 1
        if !(hSigen x.hdr).testBit i then completeSteps n (go s (x.phase + 1)) k
        else
          let va := hCounter x.hdr (hf x.hdr (512 + 64 * i) 32)
          match addCounter s x.ctx 0 [1, k, 4 + i] true va (BitVec.ofNat 64 (hf x.hdr (544 + 64 * i) 32)) with
          | .wait s => s
          | .done s => completeSteps n (go s (x.phase + 1)) k
          | .fault s c =>
            if parksAs c then
              let s := if x.posted.getLsbD (4 + i) then s else postRec s x.ctx (dispRec c x.id va)
              s.adjLaunch k fun y => { y with retryAt := s.now + 10000, posted := y.posted ||| (1#6 <<< (4 + i)) }
            else completeSteps n (go (postRec s x.ctx (dispRec c x.id va)) (x.phase + 1)) k
      | 3 =>
        let s := if hf x.hdr 22 1 = 1 then sendMsix s x.ten (hf x.hdr 24 4) else s
        { s with launches := smDel s.launches k }
      | _ => { s with launches := smDel s.launches k }
/-- LAUNCH_COMPLETE (R51-R53, R382). -/
def execLaunchComplete (l : Nat) (s : State) : Res :=
  .next (match smFind s.launches l with
    | none => s
    | some x => if launchDone s l x && x.retryAt == 0 && (ctxRuns s x.ctx || decide (0 < clusters x.hdr)) then completeSteps 5 s l else s)
/-- COMPLETION_SIGNAL_RETRY (R51). -/
def execCompletionSignalRetry (l : Nat) (s : State) : Res :=
  .next (match smFind s.launches l with
    | none => s
    | some x => if x.phase ≠ 0 ∧ x.retryAt ≠ 0 ∧ x.retryAt ≤ s.now then completeSteps 5 s l else s)

end Sys2Proof.Machine
end

