-- ==== Sys2Proof/Machine/Matrix.lean ====
section
/-! DEFINITION. The matrix engine (R254-R268): tiles and cells, format-block records, sums in their order, and the words
MMA, MMAG, MLDT, MSTT, MZA and MRDA, with the events that complete them. -/
namespace Sys2Proof.Machine

/-! Formats and shapes (R89, R257). -/

/-- Bits of an element of a matrix format. -/
def elemBits (t : Nat) : Nat := match t with | 8 | 9 => 16 | 10 => 32 | 11 => 64 | 14 => 4 | _ => 8
/-- The floating format of a type code. -/
def typeFmt (t : Nat) : Fmt := match t with
  | 8 => f16 | 9 => bf16 | 10 => f32 | 11 => f64 | 12 => e5m2 | 13 => e4m3 | _ => a36
/-- K, N and G of a combination (R257). -/
def matShape (fa fb accm bl : Nat) : Option (Nat × Nat × Nat) :=
  let both := fun (p : Nat → Bool) => p fa && p fb
  if both (· == 11) && accm == 2 then some (8, 16, 8)
  else if both (· == 10) && accm == 0 then some (16, 32, 4)
  else if both (fun t => t == 8 || t == 9) && accm == 0 then some (32, 32, 16)
  else if both (fun t => t == 12 || t == 13) && accm == 0 then some (64, 32, 32)
  else if both (fun t => t == 0 || t == 4) && accm == 1 then some (64, 32, 32)
  else if both (· == 14) && accm == 0 then some (128, 32, if bl = 1 then 32 else 16)
  else none
def FmtRec.shape (r : FmtRec) : Nat × Nat × Nat := (matShape r.fa r.fb r.accm r.bl).getD (0, 0, 1)
/-- Element e of w bits (R254, R127). -/
def elemAt (byte : Nat → Byte) (w e : Nat) : Nat :=
  if w = 4 then fld (byte (e / 2)).toNat (4 * (e % 2)) 4
  else leNat ((List.range (w / 8)).map fun i => byte (e * (w / 8) + i))

/-! The order of sums (R262). -/

/-- A decoded element: an A36 NaN with whether it signals, an infinity, its sign, and its exact value. -/
structure MVal where
  nan : Option (Nat × Bool)
  inf : Bool
  neg : Bool
  x : Ex

/-- Decode an element under its format and, for hx4, its block's header. -/
def mval (t code hdr : Nat) : MVal :=
  if t = 14 then
    if hxNaN hdr then ⟨some (a36.dflt, false), false, false, ⟨false, 0, 1⟩⟩
    else let x := hxDecode code hdr; ⟨none, false, x.neg, x⟩
  else
    let f := typeFmt t
    if isNaN f code then ⟨some (convertNaN f a36 (quiet f code), isSNaN f code), false, false, ⟨false, 0, 1⟩⟩
    else if isInf f code then ⟨none, true, f.neg code, ⟨f.neg code, 1, 1⟩⟩
    else ⟨none, false, f.neg code, decodeFp f code⟩
/-- GroupValue of R262 over the pairs of a group, with the block scales' product. -/
def groupValue (ps : List (MVal × MVal)) (sc : Ex) : Nat × Flags :=
  let fs := ps.flatMap fun p => [p.1, p.2]
  match fs.findSome? (·.nan) with
  | some n => (n.1, if fs.any (fun v => match v.nan with | some x => x.2 | none => false) then fIV else 0)
  | none =>
    let infs := ps.filter fun p => p.1.inf || p.2.inf
    let signs := infs.map fun p => xor p.1.neg p.2.neg
    if infs.any (fun p => p.1.x.num == 0 || p.2.x.num == 0) || (signs.contains true && signs.contains false) then
      (a36.dflt, fIV)
    else
      match signs with
      | g :: _ => (infEnc a36 g, 0)
      | [] =>
        let prods := ps.map fun p => { p.1.x.mul p.2.x with neg := xor p.1.neg p.2.neg }
        let s := (prods.foldl Ex.add ⟨false, 0, 1⟩).mul sc
        if s.num = 0 then
          (a36.sgn (prods.all fun p => p.num == 0 && p.neg), 0)
        else roundTo a36 0 false false s
/-- Cells and modes (R255, R130). -/
def cell64 (g : Gang) (a i j : Nat) : Nat :=
  (accCell g a (i * 32 + 2 * j)).toNat + (accCell g a (i * 32 + 2 * j + 1)).toNat % 2 ^ 28 * 2 ^ 36
def put64 (g : Gang) (a i j v : Nat) : Gang :=
  setAccCell (setAccCell g a (i * 32 + 2 * j) (BitVec.ofNat 36 v)) a (i * 32 + 2 * j + 1) (BitVec.ofNat 36 (v / 2 ^ 36))
/-- The header of element (row or column, k) of an operand. -/
def hdrOf (l : List Nat) (K L i k : Nat) : Nat := l.getD (i * (K / L) + k / L) 0
/-- Codes of A's row i and B's column j (R254). -/
def codeA (byte : Nat → Byte) (tr : Bool) (w K i k : Nat) : Nat := elemAt byte w (if tr then k * 32 + i else i * K + k)
def codeB (byte : Nat → Byte) (tr : Bool) (w K N j k : Nat) : Nat := elemAt byte w (if tr then k * N + j else j * K + k)
/-- One floating cell in A36 mode. -/
def cellA36 (G : Nat) (d : Nat) (row col : List (MVal × Nat)) : Nat × Flags :=
  (List.range (row.length / G)).foldl (fun acc n =>
    let x := (row.drop (n * G)).take G
    let y := (col.drop (n * G)).take G
    let hx := fun (l : List (MVal × Nat)) => match l with
      | p :: _ => if p.2 = 2 ^ 16 then (⟨false, 1, 1⟩ : Ex) else hxScale p.2
      | [] => ⟨false, 1, 1⟩
    let c := groupValue ((x.zip y).map fun p => (p.1.1, p.2.1)) ((hx x).mul (hx y))
    let r := fpAdd a36 0 false false acc.1 c.1
    (r.1, acc.2 ||| c.2 ||| r.2)) (d, 0)
/-- One integer cell: groups summed exactly, each sum saturated to 36 bits (R129, R262). -/
def cellInt (d : Int) (row col : List Int) : Int :=
  (List.range (row.length / 32)).foldl (fun d n =>
    satTo true 36 (d + (((row.drop (n * 32)).take 32).zipWith (· * ·) ((col.drop (n * 32)).take 32)).sum)) d
/-- The product of R262 into accumulator `acc`, A's bytes and tile B given: the gang after it, and the flags. -/
def matProduct (g : Gang) (acc : Nat) (a b : Nat → Byte) (ta tb : Bool) (r : FmtRec) : Gang × Flags :=
  let K := r.shape.1
  let N := r.shape.2.1
  let G := r.shape.2.2
  let wa := elemBits r.fa
  let wb := elemBits r.fb
  if r.accm = 2 then
    (List.range (32 * N)).foldl (fun (p : Gang × Flags) n =>
      let i := n / N
      let j := n % N
      let v := (List.range K).foldl (fun (d : Nat × Flags) k =>
        let x := fpFma f64 0 false (codeA a ta wa K i k) (codeB b tb wb K N j k) d.1
        (x.1, d.2 ||| x.2)) (cell64 g acc i j, 0)
      (put64 p.1 acc i j v.1, p.2 ||| v.2)) (g, 0)
  else if r.accm = 1 then
    let rows := (List.range 32).map fun i => (List.range K).map fun k => ofTwos (r.fa == 0) 8 (codeA a ta wa K i k)
    let cols := (List.range N).map fun j => (List.range K).map fun k => ofTwos (r.fb == 0) 8 (codeB b tb wb K N j k)
    ((List.range (32 * N)).foldl (fun p n =>
      let v := cellInt (ofTwos true 36 (accCell g acc n).toNat) (rows.getD (n / N) []) (cols.getD (n % N) [])
      setAccCell p acc n (BitVec.ofNat 36 (toTwos 36 v))) g, 0)
  else
    let hx := r.fa = 14
    let hdr := fun (l : List Nat) (i k : Nat) => if hx then hdrOf l K G i k else 2 ^ 16
    let rows := (List.range 32).map fun i => (List.range K).map fun k =>
      (mval r.fa (codeA a ta wa K i k) (hdr r.hdrA i k), hdr r.hdrA i k)
    let cols := (List.range N).map fun j => (List.range K).map fun k =>
      (mval r.fb (codeB b tb wb K N j k) (hdr r.hdrB j k), hdr r.hdrB j k)
    (List.range (32 * N)).foldl (fun (p : Gang × Flags) n =>
      let v := cellA36 G (accCell g acc n).toNat (rows.getD (n / N) []) (cols.getD (n % N) [])
      (setAccCell p.1 acc n (BitVec.ofNat 36 v.1), p.2 ||| v.2)) (g, 0)

/-! The format-block record (R256-R258). -/

/-- A block of the issuing workgroup's scratchpad, or the fault of a poisoned byte of it (R378). -/
def readSp (u : Iss) (s : State) (a n : Nat) : Except (Code × B64) (List Byte) :=
  let f := readScratch s (u.g.wg.getD 0) a n
  match f.psn with
  | some i => .error (.dataPoison, BitVec.ofNat 64 (a + i))
  | none => .ok f.data
/-- Rows 1 to 4 of R258: the record's value. -/
def readRecord (u : Iss) (s : State) (x : Nat) : Except (Code × B64) Nat :=
  let a := gReg u.g x
  if a.toNat % 32 ≠ 0 then .error (.misaligned, a)
  else if 2 ^ 32 ≤ a.toNat ∨ u.g.scratchN < a.toNat + 32 then .error (.permission, a)
  else
    match readSp u s a.toNat 32 with
    | .error e => .error e
    | .ok bs =>
      let v := leNat bs
      let fa := fld v 8 4
      let fb := fld v 12 4
      let sca := fld v 32 32
      let scb := fld v 64 32
      if fld v 0 8 ≠ 1 ∨ fld v 96 160 ≠ 0 ∨ fld v 24 8 ≠ 0 ∨ fld v 21 1 ≠ 0 ∨ fld v 16 4 ≠ 0
          ∨ (matShape fa fb (fld v 22 2) (fld v 20 1)).isNone
          ∨ (fa ≠ 14 ∧ (sca ≠ 0 ∨ scb ≠ 0 ∨ fld v 20 1 ≠ 0)) then .error (.illegalInstr, a)
      else if sca % 2 ≠ 0 then .error (.misaligned, BitVec.ofNat 64 sca)
      else if scb % 2 ≠ 0 then .error (.misaligned, BitVec.ofNat 64 scb)
      else .ok v
/-- Block headers at even scratchpad addresses: row 5 of R258, then their values. -/
def readHdrs (u : Iss) (s : State) : List Nat → Except (Code × B64) (List Nat)
  | [] => .ok []
  | a :: l =>
    match readSp u s a 2, readHdrs u s l with
    | .error e, _ | _, .error e => .error e
    | .ok bs, .ok r => .ok (leNat bs :: r)
/-- The record with its headers, A's rows indexed by `idx` (R257). -/
def readBlocks (u : Iss) (s : State) (v : Nat) (idx : List Nat) : Except (Code × B64) FmtRec :=
  let r : FmtRec := ⟨fld v 8 4, fld v 12 4, fld v 22 2, fld v 20 1, [], []⟩
  if r.fa ≠ 14 then .ok r
  else
    let n := r.shape.1 / r.shape.2.2
    let addrs := fun (base : Nat) (l : List Nat) => l.flatMap fun i => (List.range n).map fun b => base + 2 * (i * n + b)
    let as_ := addrs (fld v 32 32) idx
    let bs := addrs (fld v 64 32) (List.range r.shape.2.1)
    match (as_ ++ bs).filter fun a => decide (u.g.scratchN < a + 2) with
    | b :: l => .error (.permission, BitVec.ofNat 64 (l.foldl min b))
    | [] =>
      match readHdrs u s as_, readHdrs u s bs with
      | .error e, _ | _, .error e => .error e
      | .ok ha, .ok hb => .ok { r with hdrA := ha, hdrB := hb }

/-! Elements out (R268). -/

/-- Bytes of a destination type, by accumulation mode; 0 where the conversion is not allowed. -/
def rdaSize (accm t : Nat) : Nat :=
  match accm, t with
  | 0, 10 => 4 | 0, 8 | 0, 9 => 2 | 0, 12 | 0, 13 => 1
  | 1, 2 | 1, 10 => 4 | 1, 1 => 2 | 1, 0 | 1, 4 => 1
  | 2, 11 => 8 | 2, 10 => 4
  | _, _ => 0
def rdaN (accm : Nat) : Nat := if accm = 2 then 16 else 32
/-- One element out: its encoding and flags. -/
def rdaElem (g : Gang) (acc accm t rnd : Nat) (sat : Bool) (i j : Nat) : Nat × Flags :=
  match accm with
  | 2 =>
    let v := cell64 g acc i j
    if t = 11 then (v, 0) else cvtFF f64 f32 rnd sat false v
  | 1 =>
    let v := ofTwos true 36 (accCell g acc (i * 32 + j)).toNat
    let n := 8 * rdaSize 1 t
    if t = 10 then cvtIF f32 rnd sat v
    else (toTwos n (if sat then satTo (t != 4) n v else v), 0)
  | _ => cvtFF a36 (typeFmt t) rnd sat false (accCell g acc (i * 32 + j)).toNat
/-- The converted elements row by row, and their flags. -/
def rdaOut (g : Gang) (acc accm t rnd : Nat) (sat : Bool) : List (List Byte) × Flags :=
  let els := (List.range 32).map fun i => (List.range (rdaN accm)).map fun j => rdaElem g acc accm t rnd sat i j
  (els.map fun r => r.flatMap fun e => toBytes (rdaSize accm t) e.1, orFlags (els.flatMap fun r => r.map Prod.snd))
/-! Completion (R260). -/

/-- What a matrix instruction does when it completes: its gang, flags and scratchpad. -/
def matEffect (s : State) (gid : Nat) (g : Gang) (o : Op) (m : MatOp) : State × Flags :=
  let latch := fun i => smGet o.latch i 0
  let on := fun (r : Gang × Flags) => (s.setGang gid r.1, r.2)
  match m with
  | .mma ta tb acc a b r => on (matProduct g acc (tileByte g a) (tileByte g b) ta tb r)
  | .mmag tb acc b r => if o.rows ≠ 0 then (s, 0) else on (matProduct g acc latch (tileByte g b) false tb r)
  | .mldt t => on (putTile g t (o.latch.filter fun p => !o.rows.getLsbD (p.1 / 64)), 0)
  | .mstt _ => (s, 0)
  | .mza acc => on ({ g with acc := smKeep (fun k _ => k / 1024 != acc) g.acc }, 0)
  | .mrdaT acc t mode typ rnd sat =>
    let r := rdaOut g acc mode typ rnd sat
    on (putTile g t ((r.1.flatten.zipIdx).map fun p => (p.2, p.1)), r.2)
  | .mrdaS acc mode typ rnd sat addr stride =>
    let r := rdaOut g acc mode typ rnd sat
    (r.1.zipIdx.foldl (fun s p => writeScratch s (g.wg.getD 0) (addr + p.2 * stride) p.1) s, r.2)
/-- The gang's oldest matrix instruction `op`, its rows moved, performs its effect (R260): its flags are ORed into %fpsr, its
count falls, and the rows that the next one has ready enter their tile. -/
def completeMat (s : State) (op : Nat) : State :=
  match smFind s.ops op with
  | some o => match o.kind, smFind s.gangs o.gid with
    | .mat m _, some g =>
      if o.open_ || o.parked || (gangMats s o.gid).head? != some op then s
      else
        let r := matEffect s o.gid g o m
        let s := closeOp (r.1.adjGang o.gid (orFpsr · r.2)) op
        let s := (gangMats s o.gid).head?.elim s (landRows s)
        releaseFrag s o.gid o.entry op
    | _, _ => s
  | none => s
/-- The engine completes the matrix instructions of a gang, in order (R260). -/
def finishMats (s : State) (gid : Nat) : State := (gangMats s gid).foldl completeMat s

/-! Issue (R259, R260). -/

/-- A matrix instruction in flight of the gang writes scratchpad when it completes. -/
def writesSp (s : State) (gid : Nat) : Bool := List.any s.ops fun p => p.2.gid == gid && match p.2.kind with
  | .mat (.mrdaS ..) _ => true
  | _ => false
/-- The core's engine holds as many instructions as it can (R260). -/
def engineFull (s : State) (core : Nat) : Bool :=
  decide (Config.matrixDepth ≤ (smKeys (fun _ o => o.kind.isMat &&
    match smFind s.gangs o.gid with | some g => g.core == core | none => false) s.ops).length)
/-- The gang is one fragment with every lane live and active (R259). -/
def convergent (g : Gang) (f : Frag) : Bool := List.length g.frags == 1 && activeLanes g f == BitVec.allOnes 32
/-- A matrix word: not ready while the engine is full or the flag stands at 63; then convergence, then what the instruction
does. DEDUCED (log 10): a word that reads scratchpad at issue (`sp`) finds there what the gang's earlier matrix instructions
write, so the engine completes those first where one of them writes scratchpad. -/
def matWord (i : Instr) (gd : Guard) (sp : Bool) (s : State) (k : Iss → State → State) : Res :=
  issue i s (fun u s =>
    if u.full true || engineFull s u.g.core then s
    else if !guardQ u.g.q gd then u.adv s
    else if !convergent u.g u.f then u.term .illegalConvergence s
    else k u (if sp && writesSp s u.gid then finishMats s u.gid else s)) none
/-- The instruction enters the engine. -/
def Iss.enter (u : Iss) (o : MatOp) (s : State) : State := u.adv (openOp s (u.op true (.mat o u.g.stream.toNat))).1
/-- The words of rows at VAs; a store's data come from the latch. -/
def rowWords (rows : List (Nat × B64)) (byte : Nat → Byte) : List LaneReq :=
  rows.flatMap fun r => (List.range 8).map fun w =>
    ⟨r.1, r.2 + BitVec.ofNat 64 (8 * w),
      BitVec.ofNat 64 (leNat ((List.range 8).map fun i => byte (r.1 * 64 + 8 * w + i))), 0, 0⟩
/-- Access the global rows of a matrix instruction (R264-R266). -/
def Iss.rows (u : Iss) (o : MatOp) (rows : List (Nat × B64)) (byte : Nat → Byte) (s : State) : State :=
  let m := rowDesc o u.g.stream.toNat
  let qs := rowWords rows byte
  match rowFault s u.g (m.dir == .store) qs with
  | some (c, mask, a) => u.term c s mask a
  | none =>
    let r := openOp s (u.op true (.mat o u.g.stream.toNat))
    holdFor r.2 (u.adv (startLanes m r.2 u.g qs r.1))
/-- The first scratchpad row that a poisoned or outlying address spoils, in row order. -/
def spFault (u : Iss) (s : State) (read : Bool) (rows : List Int) : Option (Code × B64) :=
  match rows.find? fun a => decide (a < 0) || decide ((u.g.scratchN : Int) < a + 64) with
  | some a => some (.permission, BitVec.ofInt 64 a)
  | none =>
    if read then rows.findSome? fun a => match readSp u s a.toNat 64 with | .error e => some e | .ok _ => none else none
/-- The bytes of scratchpad rows as a latch. -/
def spLatch (u : Iss) (s : State) (rows : List Int) : SMap Byte :=
  (rows.flatMap fun a => (readScratch s (u.g.wg.getD 0) a.toNat 64).data).zipIdx.map fun p => (p.2, p.1)

/-- R263. -/
def execMma (g : Guard) (m : BitVec 2) (x : BitVec 6) (k : BitVec 2) (a b : BitVec 4) (s : State) : Res :=
  matWord (.mma g m x k a b) g true s fun u s =>
    match (readRecord u s x.toNat).bind fun v => readBlocks u s v (List.range 32) with
    | .error e => u.term e.1 s 0 e.2
    | .ok r => u.enter (.mma (m.getLsbD 0) (m.getLsbD 1) k.toNat a.toNat b.toNat r) s
/-- R264. -/
def execMmag (g : Guard) (m : BitVec 2) (x : BitVec 6) (k : BitVec 2) (b : BitVec 4) (z : BitVec 5) (s : State) : Res :=
  matWord (.mmag g m x k b z) g true s fun u s =>
    let base := gReg u.g (2 * z.toNat)
    let d := (gReg u.g (2 * z.toNat + 1)).toNat
    let n := d % 64
    let stride := d / 2 ^ 32
    let idx := (List.range 32).map fun l => (laneReg u.g l n).toNat
    match readRecord u s x.toNat with
    | .error e => u.term e.1 s 0 e.2
    | .ok v =>
      if fld d 6 26 ≠ 0 ∨ u.g.regs ≤ n then u.term .illegalInstr s
      else match readBlocks u s v idx with
        | .error e => u.term e.1 s 0 e.2
        | .ok r =>
          let o := MatOp.mmag (m.getLsbD 1) k.toNat b.toNat r
          if base.toNat % 64 ≠ 0 ∨ stride % 64 ≠ 0 then u.term .misaligned s 0 base
          else if m.getLsbD 0 then
            let rows := idx.map fun i => ((base.toNat + i * stride : Nat) : Int)
            if 2 ^ 32 ≤ base.toNat then u.term .permission s 0 base
            else match spFault u s true rows with
              | some e => u.term e.1 s 0 e.2
              | none => u.adv (openOp s { u.op true (.mat o u.g.stream.toNat) with latch := spLatch u s rows }).1
          else u.rows o (idx.zipIdx.map fun p => (p.2, base + BitVec.ofNat 64 (p.1 * stride))) (fun _ => 0) s
/-- The rows of MLDT and MSTT (R266): base, signed stride, or the fault that they meet. -/
def tileRows (u : Iss) (m : BitVec 2) (x z : Nat) : Except (Code × B64) (B64 × B64) :=
  let base := gReg u.g x
  let st := if m.getLsbD 1 then gReg u.g z else 64
  if base.toNat % 64 ≠ 0 ∨ st.toNat % 64 ≠ 0 then .error (.misaligned, base)
  else if m.getLsbD 0 ∧ 2 ^ 32 ≤ base.toNat then .error (.permission, base)
  else .ok (base, st)
def spRows (b st : B64) : List Int := (List.range 32).map fun (r : Nat) => (b.toNat : Int) + (r : Int) * st.toInt
def vaRows (b st : B64) : List (Nat × B64) := (List.range 32).map fun r => (r, b + BitVec.ofNat 64 r * st)
/-- R266. -/
def execMldt (g : Guard) (m : BitVec 2) (x : BitVec 6) (t : BitVec 4) (z : BitVec 6) (s : State) : Res :=
  matWord (.mldt g m x t z) g (m.getLsbD 0) s fun u s =>
    match tileRows u m x.toNat z.toNat with
    | .error e => u.term e.1 s 0 e.2
    | .ok (b, st) =>
      if m.getLsbD 0 then
        match spFault u s true (spRows b st) with
        | some e => u.term e.1 s 0 e.2
        | none => u.adv (openOp s { u.op true (.mat (.mldt t.toNat) u.g.stream.toNat) with latch := spLatch u s (spRows b st) }).1
      else u.rows (.mldt t.toNat) (vaRows b st) (fun _ => 0) s
/-- R266: the engine starts MSTT, which reads the tile into the store latch, once it has completed the gang's earlier matrix
instructions. DEDUCED (log 10): it does so as MSTT issues. To a remote page whose pair stands at its bound the word is not ready
(R336). -/
def execMstt (g : Guard) (m : BitVec 2) (x : BitVec 6) (t : BitVec 4) (z : BitVec 6) (s : State) : Res :=
  matWord (.mstt g m x t z) g false s fun u s =>
    match tileRows u m x.toNat z.toNat with
    | .error e => u.term e.1 s 0 e.2
    | .ok (b, st) =>
      let s1 := finishMats s u.gid
      let byte := tileByte ((smFind s1.gangs u.gid).getD u.g) t.toNat
      if m.getLsbD 0 then
        match spFault u s false (spRows b st) with
        | some e => u.term e.1 s 0 e.2
        | none =>
          u.enter (.mstt t.toNat) ((spRows b st).zipIdx.foldl (fun s p => writeScratch s (u.g.wg.getD 0) p.1.toNat
            ((List.range 64).map fun i => byte (p.2 * 64 + i))) s1)
      else if pastBound s u.g (rowDesc (.mstt t.toNat) u.g.stream.toNat) (rowWords (vaRows b st) byte) then s
      else u.rows (.mstt t.toNat) (vaRows b st) byte s1
/-- R267. -/
def execMza (g : Guard) (k : BitVec 2) (s : State) : Res :=
  matWord (.mza g k) g false s fun u s => u.enter (.mza k.toNat) s

/-- MRDA, its form taken from DK: `t` is the word's tile field and `z` its gS field. -/
def mrdaAct (m : BitVec 2) (x k t z : Nat) (u : Iss) (s : State) : State :=
  let c := (gReg u.g x).toNat
  let accm := fld c 6 2
  let typ := fld c 0 4
  let dk := fld c 8 1
  let sat := fld c 9 1 == 1
  let size := rdaSize accm typ
  let row := rdaN accm * size
  let gs := (gReg u.g z).toNat
  let addr := gs % 2 ^ 32
  let stride := gs / 2 ^ 32
  if c / 2 ^ 10 ≠ 0 ∨ size = 0 ∨ (dk = 0 ∧ z ≠ 0) ∨ (dk = 1 ∧ t ≠ 0) then u.term .illegalInstr s
  else if dk = 0 then
    if 2048 < 32 * row ∧ (15 < t + 1 ∨ u.g.tilesN ≤ t + 1) then u.term .illegalInstr s
    else u.enter (.mrdaT k t (accm) typ m.toNat sat) s
  else if addr % 16 ≠ 0 ∨ stride % 16 ≠ 0 then u.term .misaligned s 0 (BitVec.ofNat 64 addr)
  else if stride < row then u.term .illegalInstr s
  else
    match (List.range 32).find? fun i => decide (u.g.scratchN < addr + i * stride + row) with
    | some i => u.term .permission s 0 (BitVec.ofNat 64 (addr + i * stride))
    | none => u.enter (.mrdaS k (accm) typ m.toNat sat addr stride) s
/-- R268. A word with both fields zero takes its form from DK; as the tile form it names tile 0. -/
def execMrdaTile (g : Guard) (m : BitVec 2) (x : BitVec 6) (k : BitVec 2) (t : BitVec 4) (s : State) : Res :=
  matWord (.mrdaTile g m x k t) g false s fun u s =>
    if u.g.tilesN = 0 ∧ t = 0 ∧ !(gReg u.g x.toNat).getLsbD 8 then u.term .illegalInstr s
    else mrdaAct m x.toNat k.toNat t.toNat 0 u s
def execMrdaScratch (g : Guard) (m : BitVec 2) (x : BitVec 6) (k : BitVec 2) (z : BitVec 6) (s : State) : Res :=
  matWord (.mrdaScratch g m x k z) g false s fun u s => mrdaAct m x.toNat k.toNat 0 z.toNat u s

/-- MMAG_LATCH_COMPLETE (R264): the latch holds all 32 rows. -/
def execMmagLatchComplete (op : Nat) (s : State) : Res :=
  .next (match smFind s.ops op with
    | some o => match o.kind with
      | .mat (.mmag ..) _ => if o.open_ || o.parked then s else s.setOp op { o with latched := true }
      | _ => s
    | none => s)
/-- MATRIX_INSTR_COMPLETE (R260): the gang's oldest matrix instruction, an MMAG with its latch complete, performs its effect;
accesses that waited for it go on (R68). -/
def execMatrixInstrComplete (op : Nat) (s : State) : Res :=
  .next (match smFind s.ops op with
    | some o => match o.kind with
      | .mat (.mmag ..) _ => if o.latched then redoAll (completeMat s op) else s
      | .mat _ _ => redoAll (completeMat s op)
      | _ => s
    | none => s)
/-- Skip a parked matrix instruction (R265, R266): its unfinished rows stay unmoved; it completes in its turn. -/
def skipMat (s : State) (op : Nat) : State :=
  s.adjOp op fun o =>
    { o with rows := ofBits 32 (o.bad.map fun b => b.lane.lane), bad := [], parked := false, latched := true }

end Sys2Proof.Machine
end

