-- ==== Sys2Proof/Machine/Privileged.lean ====
section
/-! DEFINITION. The privileged instructions (R93, R161-R164): FRESOLVE, RSRESET, CTXSAVE and CTXLOAD; pre-emption by discard,
drain and save (R369-R376), images (R374), and what becomes of a lost context (R377). -/
namespace Sys2Proof.Machine

/-- A privileged word: ILLEGAL_INSTR without the context's mark, whatever the guard (R85, R93). -/
def privWord (i : Instr) (gd : Guard) (s : State) (k : Iss → State → State) : Res :=
  issue i s (fun u s =>
    let priv := match smFind s.ctxs u.g.ctx with | some c => c.priv | none => false
    if !priv then u.term .illegalInstr s else if guardQ u.g.q gd then k u s else u.adv s) none
/-- The status of R161 in gZ, and the next word. -/
def Iss.status (u : Iss) (z n : Nat) (s : State) : State := u.setG z (BitVec.ofNat 64 n) s
/-- A target context (R161): its record, or the status. -/
def target (g : Gang) (s : State) (c : Nat) (own : Bool) : Except Nat Ctx :=
  match smFind s.ctxs c with
  | none => .error (if g.ten = 0 then 1 else 2)
  | some x =>
    if (g.ten ≠ 0 ∧ x.ten ≠ g.ten) ∨ (c = g.ctx ∧ !own) then .error 2
    else if x.lost then .error (if g.ten = 0 then 1 else 2)
    else .ok x

/-! Windows and CTXLOAD (R62, R164, R375, R376). -/

/-- A window value has no reserved bit set (R62). -/
def winOk (w : BitVec 192) : Bool :=
  fld w.toNat 180 4 == 0 && fld w.toNat 164 12 == 0 && fld w.toNat 105 23 == 0 && fld w.toNat 41 23 == 0
/-- A valid window names a die that is lost: making it valid is refused at its source (R56). -/
def winLost (s : State) (w : BitVec 192) : Bool := w.getLsbD 179 && lostDies s (BitVec.ofNat 32 (fld w.toNat 184 8))
/-- Write a window register; a valid window sets its home dies' bits (R55), one onto the on-chip map too, whose HOME says
nothing else (log 45). -/
def setWin (s : State) (c n : Nat) (w : BitVec 192) : State :=
  s.adjCtx c fun x =>
    { x with win := smSet x.win n w 0, dies := if w.getLsbD 179 then x.dies ||| BitVec.ofNat 32 (fld w.toNat 184 8) else x.dies }
/-- The fragment's instruction ends with a status in gZ. -/
def statusFrag (s : State) (gid e z n : Nat) : State :=
  (s.adjGang gid (setGReg · z (BitVec.ofNat 64 n))).adjFrag gid e fun f => { f.step with st := .ready, wait := .none }
/-- What CTXLOAD makes of the target's four queue registers: R365 says that it writes them, and no rule says what with; so
whether it does, and any value that they can hold, is free (log 57). -/
def loadQueue (s : State) (c : Nat) : State :=
  let v := fun i => Config.freeNat (s.free + i)
  let written := fun (x : Ctx) => { x with
    fqbase := BitVec.ofNat 64 (keepBits (v 1) [(12, 28)]), fqctl := fqctlNew x.fqctl (BitVec.ofNat 32 (v 2))
    fqhead := BitVec.ofNat 32 (v 3), fqtail := BitVec.ofNat 32 (v 4) }
  if Config.freeBit s.free then drainQueue ({ s with free := s.free + 5 }.adjCtx c written) c else { s with free := s.free + 1 }
/-- CTXLOAD with its operands read (R164): the image is read whole, once its memory is ready, then checked and loaded. -/
def doCtxload (i : Instr) (a va : B64) (z gid e : Nat) (pc : B64) (word : B32) (g : Gang) (s : State) : State :=
  let c := a.toNat % 1024
  match target g s c false with
  | .error n => statusFrag s gid e z n
  | .ok _ =>
    match readBlock s g.ctx (clusterOf s g.wg) [14, gid, e] (s.winOf g.ctx) .load va.toNat 192 with
    | .wait s => redoLater s gid e i [a, va]
    | .fault s cd b parks =>
      let s := dropTok s [14, gid, e]
      if parks then park s gid e cd (.redo i [a, va]) pc word 0 (BitVec.ofNat 64 b)
      else terminate s gid cd pc word 0 (BitVec.ofNat 64 b)
    | .ok s bs psn =>
      let ws := (List.range 8).map fun i => BitVec.ofNat 192 (leNat ((bs.drop (24 * i)).take 24))
      match psn with
      | some p => terminate s gid .dataPoison pc word 0 (va + BitVec.ofNat 64 p)
      | none =>
        if !ws.all winOk || ws.any (winLost s) then statusFrag s gid e z 3
        else if List.any s.gangs fun p => p.2.ctx == c then statusFrag s gid e z 1
        else
          let s := loadQueue ((ws.zipIdx).foldl (fun s p => setWin s c p.2 p.1) s) c
          statusFrag (if a.getLsbD 16 then s.adjCtx c fun t => { t with stopped := false } else s) gid e z 0

/-! FRESOLVE (R162, R250, R368). -/

/-- The parked fragments of a gang. -/
def parkedFrags (g : Gang) : List (Nat × Parked) :=
  (fragsOf g).filterMap fun q => match q.2.wait with | .parked p => some (q.1, p) | _ => none
/-- A resumed fragment re-fetches its clause (R76). -/
def markStale (s : State) (gid e : Nat) : State :=
  s.adjFrag gid e fun f =>
    let c : Option Clause := f.clause.map fun (c : Clause) => { c with stale := true }
    { f with clause := c }
/-- The fragment goes on at its next word. -/
def stepOn (s : State) (gid e : Nat) : State := s.adjFrag gid e fun f => { f.step with st := .ready, wait := .none }
/-- Repeat a copy command: it waits while its unit is full (R243). -/
def redoCopy (i : Instr) (vals : List B64) (gather : Bool) (gid e : Nat) (pc : B64) (word : B32) (g : Gang) (s : State) : State :=
  if copyFull s g.core then redoLater s gid e i vals else startCopy i vals gather gid e pc word s
/-- Repeat a single act with the operands read at first issue. -/
def redoAct (i : Instr) (vals : List B64) (gid e : Nat) (pc : B64) (word : B32) (g : Gang) (s : State) : State :=
  let a := vals.getD 0 0
  let b := vals.getD 1 0
  match i with
  | .waitge _ m _ _ => startWaitge i m.toNat a b gid e pc word g s
  | .tcopy .. => redoCopy i vals false gid e pc word g s
  | .tcopyg .. => redoCopy i vals true gid e pc word g s
  | .gbind .. | .gbindN .. => doBind i a b.toNat gid e pc word s
  | .gwait .. => startGwait a.toNat b.toNat gid e pc word s
  | .rrel .. => doRrel i vals gid e pc word s
  | .ctxload _ _ _ z => doCtxload i a b z.toNat gid e pc word g s
  | .fenceG _ m sc =>
    if fenceHeld m sc.toNat g s then redoLater s gid e i vals else stepOn (fenceActs m sc.toNat g s) gid e
  | .signalG _ m _ _ =>
    if releaseBusy s (sigScope m.toNat) then redoLater s gid e i vals
    else stepOn (signalActs m.toNat a b (vals.getD 2 0).toNat g pc word s) gid e
  | _ => stepOn s gid e
/-- An act that has issued, and waits, is tried again. -/
def retryAct (gid e : Nat) (s : State) : State :=
  match (smFind s.gangs gid).filter fun g => g.ending.isNone && !g.held with
  | none => s
  | some g => match smFind g.frags e with
    | none => s
    | some f => match f.wait with
      | .redo i vals => redoAct i vals gid e f.pc f.instrAt.1 g s
      | _ => s
/-- Replay one parked fragment (R162). What parked acts at once with the operands of its first issue; its clause is fetched and
checked again before the next word of it issues (R76, log 50). -/
def replayFrag (s : State) (gid e : Nat) (p : Parked) : State :=
  match smFind s.gangs gid with
  | none => s
  | some g =>
    let s := markStale s gid e
    match p.kind with
    | .trap => stepOn s gid e
    | .fetch => unblock s gid e
    | .redo i vals => redoAct i vals gid e p.pc p.word g s
    | .op k =>
      match (smFind s.ops k).map fun (o : Op) => o.kind with
      | some OpKind.launch => launchAgain k s
      | _ => replayOp s k
    | .barrier a ph try_ =>
      let wg := g.wg.getD 0
      let s := resumeCopies s g.ctx wg a
      match try_ with
      | some z => bartryAct s gid e wg a ph z p.pc p.word
      | none => barTest (s.adjFrag gid e fun f => { f with st := .blocked, wait := .barrier a ph p.pc p.word }) gid e wg a
/-- Skip one parked fragment's instruction (R162, R250, R265): unfinished destinations stay unchanged. -/
def skipFrag (s : State) (gid e : Nat) (p : Parked) : State :=
  match smFind s.gangs gid with
  | none => s
  | some g =>
    let s := markStale s gid e
    match p.kind with
    | .trap => stepOn s gid e
    | .fetch => unblock s gid e
    | .redo _ _ => stepOn s gid e
    | .barrier a _ _ => (dropCopies s g.ctx (g.wg.getD 0) a).adjFrag gid e Frag.resume
    | .op k =>
      match smFind s.ops k with
      | none => unblock s gid e
      | some o => match o.kind with
        | .mat .. => unblock (skipMat s k) gid e
        | _ => unblock (completeOp s k { o with bad := [], todo := [], out := [], gout := [] }) gid e
/-- Terminate: the parked records stand for the fault, and the workgroup ends (R162, R362). -/
def endParked (s : State) (gid : Nat) : State :=
  match smFind s.gangs gid with
  | none => s
  | some g =>
    let s := (parkedFrags g).foldl (fun s q => match q.2.kind with
      | .barrier a _ _ => abandonOn s g.ctx (g.wg.getD 0) a
      | _ => s) s
    endGroup s gid
/-- Replay every parked fragment of a gang. -/
def replayAll (gid : Nat) : List (Nat × Parked) → State → State
  | [], s => s
  | (e, p) :: rest, s =>
    match (smFind s.gangs gid).bind fun g => if g.ending.isSome then none else smFind g.frags e with
    | none => replayAll gid rest s
    | some f =>
      -- an act on one fragment may already have resumed another
      replayAll gid rest (if f.wait = .parked p then replayFrag s gid e p else s)
/-- R162. -/
def execFresolve (g : Guard) (x y z : BitVec 6) (s : State) : Res :=
  privWord (.fresolve g x y z) g s fun u s =>
    let a := gReg u.g x.toNat
    let act := gReg u.g y.toNat
    let st := fun n => u.status z.toNat n s
    if a >>> 25 ≠ 0 ∨ act >>> 2 ≠ 0 ∨ act = 3 then st 3
    else
      let v := a.toNat
      match target u.g s (v % 1024) true with
      | .error n => st n
      | .ok _ =>
        match smKeys (fun _ (t : Gang) => t.ctx == v % 1024 && t.core == fld v 10 9 && t.quarter == fld v 19 2
            && t.slot == fld v 21 4 && t.ending.isNone) s.gangs with
        | [] => st 1
        | gid :: _ =>
          match smFind s.gangs gid with
          | none => st 1
          | some t =>
            let ps := parkedFrags t
            if ps.isEmpty || ps.any (fun q => !q.2.resolvable) then st 1
            else
              match act.toNat with
              | 0 => u.status z.toNat 0 (replayAll gid ps (acquireSi s t.core))
              | 1 => u.status z.toNat 0 (ps.foldl (fun s q => skipFrag s gid q.1 q.2) (acquireSi s t.core))
              | _ => u.status z.toNat 0 (endParked s gid)

/-! RSRESET (R163, R339). -/

def execRsreset (g : Guard) (x y z : BitVec 6) (s : State) : Res :=
  privWord (.rsreset g x y z) g s fun u s =>
    let a := gReg u.g x.toNat
    let p := gReg u.g y.toNat
    let st := fun n => u.status z.toNat n s
    if a >>> 14 ≠ 0 ∨ p >>> 9 ≠ 0 then st 3
    else
      let c := a.toNat / 16
      match target u.g s c true with
      | .error n => st n
      | .ok t =>
        match smFind s.fab.send (pairKey c (a.toNat % 16) p.toNat) with
        | none => st 1
        | some e =>
          if lostDies s 0x300000 then u.term (.dieLost (lostSock s 0x300000)) s 0 (remAddr p.toNat 0)
          else
            let s := sendFlit { touch s c 0x300000 with next := s.next + 1 }
              (mkFlit s 0x08 p.toNat (a.toNat % 16) c (e.gen % 4) s.next 0 [1#8] false)
            u.block (.reset c (a.toNat % 16) p.toNat z.toNat (s.now + 1000 * (s.tenant t.ten).rtmo) false) s
/-- RSRESET_TIMEOUT (R163): no reply within RTMO; the peer may have reset its entry, so the fault is precise-terminated. Its
record's address names the peer alone, as R345 places it: R163 gives none (log 16). -/
def execRsresetTimeout (gid e : Nat) (s : State) : Res :=
  .next (match (smFind s.gangs gid).bind fun g => if g.ending.isSome then none else smFind g.frags e with
    | some f => match f.wait with
      | .reset _ _ peer _ dl false =>
        if dl ≤ s.now then terminate s gid .remoteTimeout f.pc f.instrAt.1 0 (remAddr peer 0) else s
      | _ => s
    | none => s)

/-! Images (R373, R374). -/

/-- A workgroup's gangs that are still resident. -/
def wgGangs (s : State) (w : Nat) : List (Nat × Gang) := s.gangs.filter fun p => p.2.wg == some w
/-- The image size of a workgroup: a header, its gangs and its scratchpad allocation, to the next 4 KiB. -/
def imageSize (s : State) (w : Nat × Workgroup) : Nat :=
  roundUp (4096 + ((wgGangs s w.1).map fun p => 8192 + p.2.regs * 128 + p.2.tilesN * 2048 + p.2.accsN * 4608).sum + w.2.alloc) 4096
/-- Blocks whose contents the device fixes and the spec does not give: free values (log 2). -/
def freeBytes (s : State) (n : Nat) : State × List Byte :=
  ({ s with free := s.free + n }, (List.range n).map fun i => BitVec.ofNat 8 (Config.freeNat (s.free + i)))
/-- VA[56:2] of an address. -/
def va55 (b : B64) : Nat := fld b.toNat 2 55
/-- A split-table entry (R105). -/
def fragEntry (f : Frag) : Nat :=
  let st := match f.st with | .ready => 1 | .joinWait => 2 | .regangWait => 3 | .fuseWait => 4 | .blocked => 5
  va55 f.pc + va55 f.rpc * 2 ^ 55 + f.smask.toNat * 2 ^ 110 + st * 2 ^ 118 + (if f.rv then 2 ^ 122 else 0)
/-- A stack entry (R107). -/
def stackEntry (sl depth : Nat) (e : SEntry) : Nat :=
  va55 e.pc + va55 e.rpc * 2 ^ 55 + e.lmask.toNat * 2 ^ 110 + (if e.rv then 2 ^ 114 else 0) + (if e.join then 2 ^ 115 else 0)
    + depth * 2 ^ 116 + sl * 2 ^ 124 + 2 ^ 127
/-- 36-bit cells, packed. -/
def packCells (g : Gang) (a : Nat) : List Byte :=
  toBytes 4608 ((List.range 1024).foldr (fun i v => (accCell g a i).toNat + 2 ^ 36 * v) 0)
/-- Pad to a size. -/
def padTo (n : Nat) (bs : List Byte) : List Byte := (bs ++ List.replicate n 0).take n
/-- A slice record (log 48): the lanes of its mask, its live and leaving lanes, and its stack entries, in the registers and
spilled. -/
def sliceRecord (g : Gang) (sl : Nat) : List Byte :=
  let nib := fun (m : Lanes) => fld m.toNat (4 * sl) 4
  padTo 16 ([nib g.mask, nib g.live, nib g.gone, (stackOf g sl).length, (g.spills.filter fun p => p.2.slice == sl).length].map
    (BitVec.ofNat 8 ·))
/-- Predicates, special registers, access hint, run slots and flag counts (log 48). -/
def stateBlock (g : Gang) : List Byte :=
  padTo 256 ((List.range 8).flatMap (fun n => toBytes 4 (predMask g n).toNat)
    ++ [g.q, g.fpcr.setWidth 8, g.fpsr.setWidth 8, g.stream.setWidth 8, g.hint.setWidth 8]
    ++ (List.range 4).map (fun k => BitVec.ofNat 8 (slotOf g k).num)
    ++ (List.range 12).map (fun k => BitVec.ofNat 8 (smGet g.flags k 0)))
/-- What a fragment's wait keeps beside its state (R373): the operands read at issue. -/
def waitVals : Wait → List B64
  | .redo _ vals => vals
  | .barrier a ph .. => [BitVec.ofNat 64 a, if ph then 1 else 0]
  | .counter va tgt m => [va, tgt, BitVec.ofNat 64 m]
  | .step b t => [BitVec.ofNat 64 b, BitVec.ofNat 64 t]
  | .bind va p => [va, BitVec.ofNat 64 p]
  | .faces t m _ _ => [BitVec.ofNat 64 t, BitVec.ofNat 64 m]
  | .slots x m => [BitVec.ofNat 64 x, BitVec.ofNat 64 m]
  | .save c z => [BitVec.ofNat 64 c, BitVec.ofNat 64 z]
  | .fuse rcv m p d => [m, p, BitVec.ofNat 64 d, if rcv then 1 else 0]
  | .parked p => match p.kind with
    | .redo _ vals => vals
    | .barrier a ph try_ => [BitVec.ofNat 64 a, if ph then 1 else 0, BitVec.ofNat 64 (try_.getD 8)]
    | _ => []
  | _ => []
/-- The operands of a waiting act in 224 bytes (log 48): three of 8 bytes, and the others of 4. -/
def valBytes (vals : List B64) : List Byte :=
  padTo 224 (padTo 24 ((vals.take 3).flatMap fun v => toBytes 8 v.toNat) ++ (vals.drop 3).flatMap fun v => toBytes 4 v.toNat)
/-- The operation whose unfinished lanes or rows a fragment waits for. -/
def waitOp (s : State) (f : Frag) : Option Op :=
  (match f.wait with
    | .parked p => match p.kind with | .op k => some k | _ => none
    | .op k => some k
    | _ => none).bind (smFind s.ops ·)
/-- The lanes of an operation that are not finished, with their operands. -/
def Op.unfinished (o : Op) : List LaneReq := o.bad.map (·.lane) ++ o.todo
/-- The unfinished mask of a waiting fragment (R225, R265). -/
def waitMask (s : State) (f : Frag) : Lanes :=
  match waitOp s f with
  | some o => ofBits 32 (o.unfinished.map (·.lane))
  | none => match f.wait with | .parked p => p.mask | _ => 0
/-- The parked-instruction block, 256 bytes for each slice (log 48): the word at which the slice's fragment waits, the
unfinished mask, the PC and the fault's address; then the operands of the slice's four lanes, or in the fragment's lowest
slice those of an act. -/
def parkedSlice (s : State) (g : Gang) (sl : Nat) : List Byte :=
  match (fragsOf g).find? fun q => q.2.smask.getLsbD sl && q.2.wait != .none with
  | none => List.replicate 256 0
  | some (_, f) =>
    let addr := match f.wait with | .parked p => p.addr | _ => 0
    let head := padTo 32 (toBytes 4 f.instrAt.1.toNat ++ toBytes 4 (waitMask s f).toNat ++ toBytes 8 f.pc.toNat ++ toBytes 8 addr.toNat)
    let lane := fun (o : Op) (l : Nat) => match o.unfinished.find? (·.lane == l) with
      | some q => padTo 56 (toBytes 8 q.va.toNat ++ toBytes 8 q.lo.toNat ++ toBytes 8 q.hi.toNat ++ toBytes 8 q.peer)
      | none => List.replicate 56 0
    head ++ match waitOp s f with
      | some o => (List.range 4).flatMap fun i => lane o (4 * sl + i)
      | none => if (slices f).head? = some sl then valBytes (waitVals f.wait) else List.replicate 224 0
/-- The rows that a gang's oldest matrix instruction has done (R264). -/
def rowsDone (s : State) (gid : Nat) : B32 :=
  match (gangMats s gid).head?.bind (smFind s.ops ·) with
  | some o => ofBits 32 ((List.range 32).filter fun r => !(o.unfinished.any fun q => q.lane == r))
  | none => 0
/-- A gang's part of the image: the blocks that R374 lays out, in order. The latch and what is reserved are the device's
own. -/
def gangBytes (s : State) (gid : Nat) (g : Gang) : State × List Byte :=
  let table := (List.range 8).flatMap fun e => match smFind g.frags e with
    | some f => toBytes 16 (fragEntry f)
    | none => List.replicate 16 0
  let stks := (List.range 8).flatMap fun sl => (List.range 8).flatMap fun i => match (stackOf g sl)[i]? with
    | some e => toBytes 16 (stackEntry sl 0 e)
    | none => List.replicate 16 0
  let b := freeBytes s 0x800
  let c := freeBytes b.1 (0x2000 - 0x1a00)
  (c.1, table ++ (List.range 8).flatMap (sliceRecord g) ++ stks ++ (List.range 64).flatMap (fun n => toBytes 8 (gReg g n).toNat)
    ++ stateBlock g ++ (List.range 8).flatMap (parkedSlice s g) ++ b.2 ++ padTo 256 (toBytes 4 (rowsDone s gid).toNat)
    ++ (List.range 32).flatMap (fun l => toBytes 8 (smGet g.owid l 0).toNat) ++ c.2
    ++ (List.range g.regs).flatMap (fun n => (List.range 32).flatMap fun l => toBytes 4 (laneReg g l n).toNat)
    ++ (List.range g.tilesN).flatMap (fun t => (List.range 2048).map (tileByte g t))
    ++ (List.range g.accsN).flatMap (packCells g))
/-- Scratchpad as allocated: the program's bytes, then the spill records of each gang f1 in its place, zeros for one that
has left (R59, R108). A record whose V is cleared reads as zeros throughout: the model's choice (log 62). -/
def scratchBytes (s : State) (w : Nat) (x : Workgroup) : List Byte :=
  let gs := wgGangs s w
  let n := (gs.head?.map fun p => p.2.spillN).getD 0
  let spill := (List.range x.gangs.length).flatMap fun f1 => (List.range n).flatMap fun k =>
    match (gs.find? fun p => p.2.f1 == f1).bind fun p => smFind p.2.spills k with
    | some r => toBytes 16 (stackEntry r.slice r.depth r.e)
    | none => List.replicate 16 0
  padTo x.alloc (readBytes x.scratch 0 x.scratchN ++ spill)
/-- A parked copy's record (log 48): F, the bitmap above it, the barrier and the template's index. -/
def copyRecord (c : Copy) : List Byte :=
  padTo 32 (toBytes 8 c.low ++ toBytes 8 c.done.toNat ++ toBytes 8 c.barTicket.toNat ++ toBytes 2 c.index)
/-- The header's own fields (log 48): launch identifier, work identifier of fields 2 to 5, needs, and each gang's place; the
image check is a free value. -/
def headerBytes (s : State) (w : Nat × Workgroup) : State × List Byte :=
  let gs := wgGangs s w.1
  let g0 := gs.head?.map Prod.snd
  let l := smFind s.launches w.2.launch
  let id := match l with | some l => l.id.toNat | none => 0
  let wid := match l with | some l => gangWid l.hdr w.2.cluster w.2.f2 0 | none => 0
  let one := fun (f : Gang → Nat) => (g0.map f).getD 0
  let needs := ([w.2.gangs.length, one (·.regs), one (·.tilesN), one (·.accsN)].map (BitVec.ofNat 8 ·))
    ++ toBytes 4 w.2.scratchN ++ toBytes 2 (one (·.spillN))
  let place := fun f1 => match gs.find? fun p => p.2.f1 == f1 with
    | some p => toBytes 2 p.2.core ++ [BitVec.ofNat 8 p.2.quarter, BitVec.ofNat 8 p.2.slot]
    | none => List.replicate 4 0xff#8
  let check := freeBytes s 8
  (check.1, padTo 256 (padTo 32 (toBytes 8 id ++ toBytes 8 wid ++ needs)
    ++ padTo 64 ((List.range (min 16 w.2.gangs.length)).flatMap place) ++ check.2))
/-- A workgroup's image. -/
def wgBytes (s : State) (w : Nat × Workgroup) : State × List Byte :=
  let h := headerBytes s w
  let copies := List.map (fun p => copyRecord p.2) (List.filter (fun p => p.2.parked && p.2.wg == some w.1) s.copies)
  let r := (wgGangs s w.1).foldl (fun (acc : State × List Byte) p =>
    let g := gangBytes acc.1 p.1 p.2
    (g.1, acc.2 ++ g.2)) (h.1, padTo 4096 (h.2 ++ copies.flatten))
  let all := r.2 ++ scratchBytes s w.1 w.2
  (r.1, all ++ List.replicate (roundUp all.length 4096 - all.length) 0)

/-! CTXSAVE (R164, R370-R373). -/

/-- The resident workgroups of a context: those with a gang placed. -/
def residentWgs (s : State) (c : Nat) : List (Nat × Workgroup) :=
  s.wgs.filter fun p => p.2.ctx == c && p.2.left != 0 && !(wgGangs s p.1).isEmpty
/-- Where the next image of a context may lie: past its other images. -/
def saveFree (s : State) (c : Nat) (x : Ctx) : Nat :=
  s.images.foldl (fun n p => if p.2.ctx = c then p.2.places.foldl (fun n q => max n (q.1 + q.2.length)) n else n)
    (fld x.csa.toNat 16 24 * 2 ^ 16)
def saveEnd (x : Ctx) : Nat := fld x.csa.toNat 16 24 * 2 ^ 16 + (fld x.csa.toNat 48 16 + 1) * 2 ^ 16
/-- The clusters with a resident workgroup: launch (or a Lantern gang's own number) and cluster number. -/
def residentClusters (s : State) (c : Nat) : List (Nat × Nat) :=
  ((residentWgs s c).map fun p => (p.2.launch, p.2.cluster)).dedup
def clusterWgs (s : State) (k : Nat × Nat) : List (Nat × Workgroup) :=
  s.wgs.filter fun p => p.2.launch == k.1 && p.2.cluster == k.2
/-- No workgroup of the cluster has ended its idempotent region (R370). -/
def inRegion (s : State) (k : Nat × Nat) : Bool :=
  match smFind s.launches k.1 with
  | none => false
  | some l => hIdem l.hdr && !l.partEnded.contains k.2 && (clusterWgs s k).all fun p => !p.2.regionEnded
/-- Discard a cluster (R371): nothing more of it is done, and it goes back to its launch. -/
def discard (s : State) (k : Nat × Nat) : State :=
  let ws := (clusterWgs s k).map Prod.fst
  let mine := fun (w : Option Nat) => match w with | some w => ws.contains w | none => false
  let gids := smKeys (fun _ (g : Gang) => mine g.wg) s.gangs
  let s := gids.foldl unbindGang s
  let s := (smKeys (fun _ (c : Copy) => mine c.wg || ws.contains c.barWg) s.copies).foldl lastChunks s
  let s := { s with
    gangs := smKeep (fun j _ => !gids.contains j) s.gangs
    ops := smKeep (fun _ o => !gids.contains o.gid) s.ops
    -- scratchpad stays while a chunk in flight writes it (R251): the record is no longer one of the launch's
    wgs := smMap (fun j w => if ws.contains j then { w with launch := j, gangs := [], left := 0 } else w) s.wgs }
  (ws.foldl tidyWg s).adjLaunch k.1 fun l =>
    { l with again := l.again ++ [k.2], part := smDel l.part k.2, partEnded := l.partEnded.filter (· ≠ k.2) }
/-- Stop the gangs of a context at a word boundary. -/
def holdCtx (s : State) (c : Nat) : State :=
  { s with gangs := smMap (fun _ g => if g.ctx = c then { g with held := true } else g) s.gangs }
/-- An operation that a save records: parked, a stalled GLD (R238, R373), or a LAUNCH that still waits (log 49). -/
def savedOp (o : Op) : Bool :=
  o.parked || (match o.kind with
    | .launch => !o.todo.isEmpty
    | .mem m => (match m.form with | .grid _ => o.resp.isEmpty && !o.todo.isEmpty | _ => false)
    | _ => false)
/-- An RSRESET's message is in flight: the word completes before its gang is saved (R373). -/
def resetting (g : Gang) : Bool :=
  (fragsOf g).any fun q => match q.2.wait with | .reset .. => true | _ => false
/-- Every operation and copy of a held cluster that must complete has completed, and every gang that was ending is gone. -/
def settled (s : State) (k : Nat × Nat) : Bool :=
  let ws := (clusterWgs s k).map Prod.fst
  let mine := fun (w : Option Nat) => match w with | some w => ws.contains w | none => false
  let gs := s.gangs.filter fun p => mine p.2.wg
  gs.all (fun p => p.2.held && p.2.ending.isNone && !resetting p.2 && List.all s.ops fun o => o.2.gid != p.1 || savedOp o.2)
    && List.all s.copies fun c => c.2.parked || !(mine c.2.wg || ws.contains c.2.barWg)
/-- Write the images of workgroups one after another from a place on. -/
def writeImages : List (Nat × Workgroup) → Nat → State → State × List (Nat × List Byte)
  | [], _, s => (s, [])
  | w :: ws, pa, s =>
    let b := wgBytes s w
    let r := writeImages ws (pa + b.2.length) (b.1.setMem (physWrite b.1.mem pa b.2))
    (r.1, (pa, b.2) :: r.2)
/-- Records that still wait to be written no longer stand for fragments of some gangs: a restored one posts afresh (R375). -/
def disown (s : State) (c : Nat) (gids : List Nat) : State :=
  s.adjCtx c fun x => { x with pending := x.pending.map fun r =>
    match r.owner with
    | some o => if gids.contains o.1 then { r with owner := none } else r
    | none => r }
/-- The half that the host must give up before the images of a context's workgroups are written (R351). -/
def imageHosted (s : State) (c : Nat) (x : Ctx) (wgs : List (Nat × Workgroup)) : Option Nat :=
  hostedFrame s.mem (saveFree s c x) (wgs.map (imageSize s)).sum
/-- Save a settled cluster whole (R373): its workgroups' images are written, and it leaves the cores. -/
def saveCluster (s : State) (c : Nat) (k : Nat × Nat) : State :=
  match smFind s.ctxs c with
  | none => s
  | some x =>
    let wgs := clusterWgs s k
    match imageHosted s c x wgs with
    | some h => askHalf s h
    | none =>
      let ws := wgs.map Prod.fst
      let mine := fun (w : Option Nat) => match w with | some w => ws.contains w | none => false
      let gangs := s.gangs.filter fun p => mine p.2.wg
      let gids := gangs.map Prod.fst
      let r := writeImages wgs (saveFree s c x) s
      let known := (smFind s.launches k.1).isSome
      let im : Image := ⟨c, if known then some k.1 else none, k.2, wgs, gangs, s.ops.filter fun o => gids.contains o.2.gid,
        s.copies.filter fun q => mine q.2.wg || ws.contains q.2.barWg, r.2⟩
      let s := disown r.1 c gids
      let s := { s with
        images := smPut s.images s.next im, next := s.next + 1
        gangs := smKeep (fun j _ => !gids.contains j) s.gangs
        ops := smKeep (fun _ o => !gids.contains o.gid) s.ops
        copies := smKeep (fun _ q => !(mine q.wg || ws.contains q.barWg)) s.copies
        wgs := smKeep (fun j _ => !ws.contains j) s.wgs }
      s.adjLaunch k.1 fun l => { l with saved := l.saved + 1 }
/-- Save every cluster of a context that is ready to be saved. -/
def saveSettled (s : State) (c : Nat) : State :=
  (residentClusters s c).foldl (fun s k => if settled s k then saveCluster s c k else s) s
/-- R164, R370: the check, the cut and the classification. -/
def execCtxsave (g : Guard) (x y z : BitVec 6) (s : State) : Res :=
  privWord (.ctxsave g x y z) g s fun u s =>
    let a := gReg u.g x.toNat
    let st := fun n => u.status z.toNat n s
    if a >>> 10 ≠ 0 then st 3
    else
      let c := a.toNat
      match target u.g s c false with
      | .error n => st n
      | .ok t =>
        let ws := residentWgs s c
        if ws.isEmpty then st 1
        else if saveEnd t < saveFree s c t + (ws.map (imageSize s)).sum then st 3
        else
          let whole := (gReg u.g y.toNat).getLsbD 0
          let s := u.block (.save c z.toNat) s
          match t.saving with
          -- another CTXSAVE has made the cut: this one joins it, and may have the rest saved whole at once
          | some v =>
            if whole then saveSettled (holdCtx (s.adjCtx c fun t => { t with saving := some { v with whole := true } }) c) c else s
          | none =>
            let s := s.adjCtx c fun t =>
              { t with stopped := true, saving := some ⟨s.now, s.now + 1000 * (s.tenant t.ten).drb, whole⟩ }
            if whole then saveSettled (holdCtx s c) c
            else (residentClusters s c).foldl (fun s k => if inRegion s k then discard s k else s) s
/-- Abort every run of a context (R297). -/
def abortRuns (s : State) (ctx : Nat) : State := (smKeys (fun _ (r : Run) => r.ctx == ctx) s.runs).foldl abortRun s
/-- The runs of a context that is being torn down have had its tenant's drain bound (R297). -/
def endTeardown (s : State) (ctx : Nat) : State :=
  match (smFind s.ctxs ctx).bind (·.teardown) with
  | some t => if t ≤ s.now then (abortRuns s ctx).adjCtx ctx fun c => { c with teardown := none } else s
  | none => s
/-- PREEMPT_SAVE (R297, R370): the bound has passed; what is resident is saved as it settles, and runs are aborted. A
CTXSAVE of the whole kind saves from the cut on. -/
def execPreemptSave (ctx : Nat) (s : State) : Res :=
  let s := endTeardown s ctx
  .next (match (smFind s.ctxs ctx).bind (·.saving) with
    | none => s
    | some v =>
      if v.bound ≤ s.now then saveSettled (abortRuns (holdCtx s ctx) ctx) ctx
      else if v.whole then saveSettled s ctx
      else s)
/-- What a gang's status is when the context that it waits to see saved is lost (R161, R377). -/
def lostStatus (g : Gang) : B64 := if g.ten = 0 then 1 else 2
/-- The gangs in saved images that wait for a CTXSAVE of a context have their status too, and go on once restored. -/
def settleSaved (s : State) (c : Nat) (st : Gang → B64) : State :=
  let done := fun (g : Gang) => g.frags.foldl (fun (g : Gang) q => match q.2.wait with
    | .save t z => if t = c then
        { setGReg g z (st g) with frags := smPut g.frags q.1 { q.2.step with st := .ready, wait := .none } } else g
    | _ => g) g
  { s with images := smMap (fun _ im => { im with gangs := im.gangs.map fun p => (p.1, done p.2) }) s.images }
/-- A CTXSAVE of a context is over: every fragment that waits for it gets its status. -/
def endSave (s : State) (c : Nat) (st : Gang → B64) : State :=
  let s := (waiters s fun _ w => match w with | .save t _ => t == c | _ => false).foldl (fun s p =>
    match (smFind s.gangs p.1).bind fun g => smFind g.frags p.2 with
    | some f => match f.wait with
      | .save _ z => stepOn (s.adjGang p.1 fun g => setGReg g z (st g)) p.1 p.2
      | _ => s
    | none => s) s
  settleSaved s c st
/-- CTXSAVE_DONE (R370): nothing of the context is resident and its runs have ended; status 0 is written. -/
def execCtxsaveDone (ctx : Nat) (s : State) : Res :=
  .next (match (smFind s.ctxs ctx).bind (·.saving) with
    | none => s
    | some _ =>
      if (residentWgs s ctx).isEmpty && !(List.any s.runs fun p => p.2.ctx == ctx) then
        endSave (s.adjCtx ctx fun c => { c with saving := none }) ctx fun _ => 0
      else s)

/-- R164. -/
def execCtxload (g : Guard) (x y z : BitVec 6) (s : State) : Res :=
  privWord (.ctxload g x y z) g s fun u s =>
    let a := gReg u.g x.toNat
    if a &&& ~~~0x103ff#64 ≠ 0 then u.status z.toNat 3 s
    else doCtxload (.ctxload g x y z) a (gReg u.g y.toNat) z.toNat u.gid u.e u.f.pc u.word u.g s

/-! Lost contexts (R377). -/

/-- An outstanding write of a lost context is either performed or not: a free choice for each. -/
def dropWrites (s : State) (k : Nat) (o : Op) : State :=
  match o.kind with
  | .mem m =>
    if m.dir == .load then s
    else o.todo.foldl (fun s q =>
      let yes := Config.freeBit s.free
      let s := { s with free := s.free + 1 }
      if yes then doLane m k s q else s) (s.setOp k { o with todo := [] })
  | _ => s
/-- The bindings of a context end at once; what an engine has begun to send is dropped, R39 being silent on it (log 44). -/
def dropBindings (s : State) (c : Nat) : State :=
  (smKeys (fun _ (b : Binding) => b.ctx == c) s.binds).foldl (fun s bid =>
    { s with binds := smMap (fun _ (y : Binding) => { y with faces := smMap (fun k (f : Face) =>
      if f.partner == some bid && nbLocal s y k then { f with partner := none } else f) y.faces }) (smDel s.binds bid) }) s
/-- Everything of a context that is placed, queued or saved is gone, and LGCMD.ST of a Lantern gang that still waited becomes
3. R39 lists the queued launches and the saved and discarded workgroups; that DESTROY also drops the copies in flight of
exited workgroups, SIGNAL adds not yet performed and launches in completion is the model's choice (log 44). -/
def clearWork (s : State) (c : Nat) : State :=
  let gids := smKeys (fun _ (g : Gang) => g.ctx == c) s.gangs
  let lg := List.any s.lanterns (fun p => p.2.ctx == c) || s.pf.lgwait.any (·.1 == c)
  let s := dropBindings s c
  let s := { s with
    gangs := smKeep (fun _ g => g.ctx != c) s.gangs
    ops := smKeep (fun _ o => !gids.contains o.gid) s.ops
    wgs := smKeep (fun _ w => w.ctx != c) s.wgs
    copies := smKeep (fun _ q => q.ctx != c) s.copies
    sigs := smKeep (fun _ q => q.ctx != c) s.sigs
    launches := smKeep (fun _ l => l.ctx != c) s.launches
    lanterns := smKeep (fun _ l => l.ctx != c) s.lanterns
    images := smKeep (fun _ l => l.ctx != c) s.images
    runs := smKeep (fun _ r => r.ctx != c) s.runs }
  if lg then setLg (s.setPf { s.pf with lgwait := s.pf.lgwait.filter (·.1 != c) }) 3 else s
/-- A context becomes lost (R377): its runs' written lines are still taken back, and one record is posted. -/
def loseCtx (s : State) (c sock : Nat) : State :=
  match smFind s.ctxs c with
  | none => s
  | some x =>
    if x.lost then s
    else
      let s := s.ops.foldl (fun s p => match smFind s.gangs p.2.gid with
        | some g => if g.ctx = c then dropWrites s p.1 p.2 else s
        | none => s) s
      let s := s.runs.foldl (fun s p => if p.2.ctx = c then (runBackInv s p.2 p.2.wset).1 else s) s
      let s := clearWork s c
      let s := endSave s c lostStatus
      let s := s.adjCtx c fun x => { x with lost := true, doomed := none, saving := none }
      postRec s c ⟨.dieLost sock, .async, 0, sock, none, 0, 0, 0, 0, 0, 0, 0, false, none⟩

end Sys2Proof.Machine
end

