-- ==== Sys2Proof/Machine/Commands.lean ====
section
/-! DEFINITION. The physical function's registers and commands: contexts and core sets (R39, R40), register writes (R5),
fault-queue registers (R365, R366), hash profiles (R202), and translation commands (R211-R219). -/
namespace Sys2Proof.Machine

/-! Contexts (R39). -/

def ctxCmd (s : State) (op : Nat) (priv : BitVec 1) (ctx ten : BitVec 10) : State :=
  s.setPf { s.pf with ctxcmd := BitVec.ofNat 64 (ten.toNat * 2 ^ 40 + ctx.toNat * 2 ^ 50 + priv.toNat * 2 ^ 60 + op * 2 ^ 61) }
/-- CTX_CREATE (R39); in recovery no context can be created (R387), which ends with code 3 (log 44). The bit of a lost I/O
die is not set (R56). -/
def execCtxCreate (priv : BitVec 1) (ctx ten : BitVec 10) (rsv : BitVec 40) (s : State) : Res :=
  let busy := s.pf.destroying.isSome
  let s := if busy then s else ctxCmd s 0 priv ctx ten
  .next (if busy then s
    else if rsv ≠ 0 ∨ 512 < ten.toNat ∨ (ten ≠ 0 ∧ !(s.tenant ten.toNat).enabled) ∨ s.plat.recovery then setCtx s 3
    else if (smFind s.ctxs ctx.toNat).isSome then setCtx s 1
    else
      let dies := (s.tenant ten.toNat).ports.setWidth 32 <<< 20 &&& s.plat.live
      setCtx { s with ctxs := smPut s.ctxs ctx.toNat (Ctx.fresh ten.toNat (priv == 1) dies) } 0)
/-- DESTROY's third step (R39): the context's streams close, and its withheld flags are poisoned. -/
def closeStreams (s : State) (c : Nat) : State :=
  let s := s.setFab { s.fab with
    send := smKeep (fun k _ => k / 512 / 16 != c) s.fab.send, reqs := smKeep (fun _ q => q.ctx != c) s.fab.reqs }
  (smKeys (fun _ (e : ArrE) => e.owner == c) s.fab.arr).foldl (fun s k =>
    taint (s.adjArr k fun e => { e with closing := true, due := true }) k false) s
/-- CTX_DESTROY (R39). Code 3 goes before codes 2 and 4 (log 44). A refusal with code 4 begins the context's teardown
(R297, log 44). While the store of a poisoned flag must wait the command is busy, and the context can run nothing. -/
def execCtxDestroy (priv : BitVec 1) (ctx ten : BitVec 10) (rsv : BitVec 40) (s : State) : Res :=
  let busy := s.pf.destroying.isSome
  let s := if busy then s else ctxCmd s 1 priv ctx ten
  let c := ctx.toNat
  .next (if busy then s
    else if rsv ≠ 0 then setCtx s 3
    else match smFind s.ctxs c with
      | none => setCtx s 2
      | some x =>
        if !x.lost && (List.any s.gangs (fun p => p.2.ctx == c) || List.any s.runs fun p => p.2.ctx == c) then
          setCtx (s.adjCtx c fun x => { x with teardown := some (x.teardown.getD (s.now + 1000 * (s.tenant x.ten).drb)) }) 4
        else
          let s := closeStreams (clearWork s c) c
          if List.any s.fab.arr fun p => p.2.owner == c then
            (s.adjCtx c fun x => { x with lost := true }).setPf { s.pf with ctxstat := 1#64 <<< 62, destroying := some c }
          else endDestroy s c)

/-! Core sets (R40). -/

/-- Every group of eight cores is in the mask whole or not at all. -/
def wholeGroups (v : B64) : Bool := (List.range 8).all fun i => fld v.toNat (8 * i) 8 == 0 || fld v.toNat (8 * i) 8 == 255
/-- TENCORE_WRITE (R40). -/
def execTencoreWrite (ten : Nat) (j : BitVec 3) (v : BitVec 64) (s : State) : Res :=
  let t := s.tenant ten
  let shared := List.any s.tenants fun p => p.1 != ten && smGet p.2.cores j.toNat 0 &&& v != 0
  let removed := List.any s.gangs fun p => p.2.ten == ten && p.2.core / 64 == j.toNat && !v.getLsbD (p.2.core % 64)
  .next (if 512 < ten then s
    else if shared || (t.strict && !wholeGroups v) || removed then s.adjTenant ten fun t => { t with err := true }
    else s.adjTenant ten fun t => { t with cores := smSet t.cores j.toNat v 0, err := false })
/-- TENCFG_WRITE (R40). -/
def execTencfgWrite (ten : Nat) (v : BitVec 32) (s : State) : Res :=
  let t := s.tenant ten
  .next (if 512 < ten then s
    else if v.getLsbD 0 && !((List.range 8).all fun j => wholeGroups (smGet t.cores j 0)) then
      s.adjTenant ten fun t => { t with err := true }
    else s.adjTenant ten fun t => { t with strict := v.getLsbD 0, err := false })

/-! Fault-queue registers (R365, R366). -/

/-- FQCTL_WRITE (R365). -/
def execFqctlWrite (ctx : Nat) (v : BitVec 32) (s : State) : Res :=
  .next (drainQueue (s.adjCtx ctx fun c => { c with fqctl := fqctlNew c.fqctl v }) ctx)
/-- FQHEAD_WRITE (R366). -/
def execFqheadWrite (ctx : Nat) (v : BitVec 32) (s : State) : Res :=
  .next (drainQueue (s.adjCtx ctx fun c => { c with fqhead := v }) ctx)

/-! Hash profiles (R202). -/

/-- Reduce a mask by a basis whose members have distinct highest bits. -/
def gfReduce (basis : List Nat) (x : Nat) : Nat := basis.foldl (fun x b => if x.testBit b.log2 then x.xor b else x) x
/-- Masks are independent over GF(2): each adds to the basis, kept by falling highest bit. -/
def gfFull : List Nat → List Nat → Bool
  | [], _ => true
  | m :: ms, basis =>
    let r := gfReduce basis m
    if r = 0 then false else gfFull ms ((basis.filter fun b => r.log2 < b.log2) ++ r :: basis.filter fun b => b.log2 < r.log2)
/-- The staged mask of a bit. -/
def staged (pf : Pf) (grp b : Nat) : Nat := (smGet pf.hmask (grp * 24 + b) (BitVec.ofNat 32 (mask1 b))).toNat % 2 ^ 24
/-- PROFCTL_COMMIT (R202). -/
def execProfctlCommit (grp : Nat) (prof : BitVec 3) (s : State) : Res :=
  let p := prof.toNat
  let ms := (List.range 24).map (staged s.pf grp)
  let used := List.any s.pf.region fun q => q.1 / 128 == grp && q.2.toNat % 8 == p
  let bad := decide (p < 2) || !gfFull ms [] || used
  let pf := { s.pf with profctl := smPut s.pf.profctl grp (BitVec.ofNat 32 (p + if bad then 2 ^ 30 else 0)) }
  .next (if 3 ≤ grp then s
    else if bad then s.setPf pf
    else s.setPf { pf with
      masks := (ms.zipIdx).foldl (fun m q => smPut m ((grp * 8 + p) * 24 + q.2) (BitVec.ofNat 24 q.1)) pf.masks })

/-! Translation commands (R213-R219). -/

def slot0 : CmdSlot := ⟨0, 0, 0, 0, .idle, 0, 0, 0⟩
def cmdSlot (s : State) (k : Nat) : CmdSlot := smGet s.pf.slots k slot0
def setSlotOf (s : State) (k : Nat) (x : CmdSlot) : State := s.setPf { s.pf with slots := smPut s.pf.slots k x }
def CmdSlot.busy (x : CmdSlot) : Bool := fld x.stat.toNat 62 2 == 1
def cOp (x : CmdSlot) : Nat := fld x.rcmd.toNat 60 3
/-- log2 of the page size. -/
def cSh (x : CmdSlot) : Nat := match fld x.rcmd.toNat 58 2 with | 0 => 16 | 1 => 21 | _ => 30
def cHome (x : CmdSlot) : Nat := fld x.rcmd.toNat 48 8
def cTen (x : CmdSlot) : Nat := fld x.rcmd.toNat 36 10
def cIa (x : CmdSlot) : Nat := fld x.rcmd.toNat 0 36 * 2 ^ 16
/-- A command ends: done, or refused with a code. -/
def endCmd (s : State) (k code : Nat) : State :=
  let x := cmdSlot s k
  setSlotOf s k { x with
    stage := .idle, stat := BitVec.ofNat 64 ((if code = 0 then 2 else 3) * 2 ^ 62 + code * 2 ^ 56 + s.now % 2 ^ 56) }
/-- A command is busy at a stage. -/
def stageCmd (s : State) (k : Nat) (st : CmdStage) : State :=
  let x := cmdSlot s k
  setSlotOf s k { x with stage := st, stat := 1#64 <<< 62 }
/-- Write a table entry. -/
def putEntry (s : State) (pa e : Nat) : State := s.setMem (physWrite s.mem pa (toBytes 8 e))
/-- Write the entry of a page of 2^sh bytes: its translation home forgets what it has cached of the page (R206). -/
def putLeaf (s : State) (pa e ia sh : Nat) : State :=
  let s := putEntry s pa e
  s.setMem (dropPtes s.mem ia (2 ^ sh))
/-- The latest lease expiry of any page that overlaps a range of 64 KiB blocks, plus 2 ns (R211). -/
def leaseEnd (s : State) (ia sh : Nat) : Nat :=
  let b := ia / 2 ^ 16
  let n := 2 ^ (sh - 16)
  s.mem.leases.foldl (fun t p => if p.1 / 4 < b + n ∧ b < p.1 / 4 + p.2.blocks then max t (p.2.expiry + 2) else t) 0
/-- Another busy command holds an overlapping page (R213). -/
def cmdOverlap (s : State) (k : Nat) (x : CmdSlot) : Bool :=
  List.any s.pf.slots fun p => p.1 != k && p.2.busy && (cOp p.2 == 5) == (cOp x == 5)
    && decide (cIa p.2 < cIa x + 2 ^ cSh x) && decide (cIa x < cIa p.2 + 2 ^ cSh p.2)
/-- The halves of a page whose host bits are set. -/
def hostIn (s : State) (ia sh : Nat) : List Nat :=
  smKeys (fun h _ => decide (ia / 64 ≤ h) && decide (h < (ia + 2 ^ sh) / 64)) s.mem.hostBits
/-- Invalidate a page (R214); `error` while BISnpInv answers are outstanding (R351) or write-backs are to be reissued (R203).
`old` is its old leaf. -/
def invalidate (s : State) (ia sh home ten : Nat) (old : Nat) : Except State State :=
  match hostIn s ia sh with
  | h :: hs => .error ((h :: hs).foldl (fun s h => askHost s h (leafFrame old + (h * 64 - ia))) s)
  | [] =>
    let inPage := fun (la : Nat) => decide (ia / 128 ≤ la) && decide (la < (ia + 2 ^ sh) / 128)
    let ks := smKeys (fun k _ => inPage (keyLine k) && home.testBit (keyDie k)) s.mem.l2
    if ks.any (wbBusy s) then .error s else
    let s := ks.foldl (fun s k => dropHome s true k) s
    let mine := fun (c : Nat) => (smGet (s.tenant ten).cores (c / 64) 0).getLsbD (c % 64)
    .ok (s.setMem { s.mem with l1 := smKeep (fun k x => !(inPage (keyLine k) && x.si && mine (keyUnit k))) s.mem.l1 })
/-- Zero a range of frames, with fresh checks (R215). -/
def zeroFrames (m : Mem) (pa n : Nat) : Mem :=
  { m with
    frames := smKeep (fun a _ => !(decide (pa ≤ a) && decide (a < pa + n))) m.frames
    poison := smKeep (fun g _ => !(decide (pa / 32 ≤ g) && decide (g < (pa + n) / 32))) m.poison }
/-- Copy a range of frames with its poison (R216). -/
def copyFrames (m : Mem) (src dst n : Nat) : Mem :=
  let z := zeroFrames m dst n
  { z with
    frames := m.frames.foldl (fun f p => if src ≤ p.1 ∧ p.1 < src + n then smPut f (dst + (p.1 - src)) p.2 else f) z.frames
    poison := m.poison.foldl (fun f p =>
      if src / 32 ≤ p.1 ∧ p.1 < (src + n) / 32 then smPut f (dst / 32 + (p.1 - src / 32)) p.2 else f) z.poison }
/-- An entry of a split leaf (R214): FRAME advanced by a number of 64 KiB blocks. -/
def splitEntry (e blocks : Nat) : Nat := e + blocks * (if fld e 61 3 = 3 then 2 ^ 25 else 2 ^ 16)
/-- UPDATE invalidates (R214). -/
def updateInvalidates (old new : Nat) : Bool :=
  fld old 8 43 != fld new 8 43 || fld old 59 2 != fld new 59 2 || fld old 56 3 != fld new 56 3 || fld old 55 1 != fld new 55 1
    || (fld old 52 1 == 1 && fld new 52 1 == 0)
/-- An export of this package that covers an IA, and the offset in it. -/
def exportOf (pf : Pf) (ia : Nat) : Option (Nat × Nat) :=
  (pf.exports.find? fun p =>
    let b := fld p.2.toNat 64 36 * 2 ^ 16
    p.2.getLsbD 127 && decide (b ≤ ia) && decide ((ia - b) / 2 ^ 16 ≤ fld p.2.toNat 0 24)).map fun p =>
      (p.1, ia - fld p.2.toNat 64 36 * 2 ^ 16)
/-- The body of a COLLAPSE message (log 8): its kind, IA, SIZE, HOME, export and offset. -/
def collapseBody (ia size home ex off : Nat) : List Byte :=
  [2#8] ++ toBytes 8 ia ++ toBytes 1 size ++ toBytes 1 home ++ toBytes 1 ex ++ toBytes 8 off
/-- A command on a page whose leaf has been found and passes R208, so that its STATE is none of the reserved values. SPLIT
of a page of SIZE 0 ends with code 2 (log 44). -/
def pageCmd (s : State) (k : Nat) (x : CmdSlot) (e a : Nat) : State :=
  let st := fld e 61 3
  let sh := cSh x
  let arg := x.rarg.toNat
  let wait := fun (s : State) => stageCmd s k (.leases (leaseEnd s (cIa x) sh) (BitVec.ofNat 64 e))
  let put := fun (v : Nat) => putLeaf s a v (cIa x) sh
  match cOp x with
  | 0 => if 1 < arg then endCmd s k 3 else if st = 2 then endCmd s k 2 else wait (put (e - 1))
  | 1 =>
    if st = 2 ∨ fld arg 61 3 = 2 then endCmd s k 2
    else if arg % 4 ≠ 3 ∨ !leafOk s.pf arg sh then endCmd s k 3
    else wait (put arg)
  | 2 =>
    if st ≠ 0 then endCmd s k 2
    else if !isFrame arg ∨ arg % 2 ^ sh ≠ 0 then endCmd s k 3
    else wait (put (setFld e 61 3 2))
  | 3 =>
    if st = 2 ∨ sh = 16 then endCmd s k 2
    else if !isFrame arg ∨ arg % (if sh = 21 then 256 else 4096) ≠ 0 then endCmd s k 3
    else
      let n := if sh = 21 then 32 else 512
      let blk := if sh = 21 then 1 else 32
      let s := (List.range n).foldl (fun s i => putEntry s (arg + 8 * i) (splitEntry e (i * blk))) s
      endCmd (putLeaf s a (arg / 256 * 256 + 1) (cIa x) sh) k 0
  | _ =>
    if st ≠ 1 then endCmd s k 2
    else
      let twin := fld e 40 9
      match exportOf s.pf (cIa x) with
      | none => endCmd s k 4
      | some (ex, off) =>
        let f := mkFlit s 0x08 twin 0 0 0 s.next 0 (collapseBody (cIa x) (fld x.rcmd.toNat 58 2) (cHome x) ex off) false
        stageCmd (sendFlit { s with next := s.next + 1 } f) k (.twin (s.now + 1000 * (s.tenant (cTen x)).rtmo))
/-- The half that the host must give up before a command writes its entries (R351). -/
def cmdHosted (s : State) (x : CmdSlot) (a : Nat) : Option Nat :=
  (hostedFrame s.mem a 8).or (if cOp x = 3 then hostedFrame s.mem x.rarg.toNat (if cSh x = 21 then 256 else 4096) else none)
/-- A command finds its page's leaf and acts on it, the host having given up what it writes (R213, R351). -/
def beginCmd (s : State) (k : Nat) (x : CmdSlot) : State :=
  match walk s (cIa x) with
  | .error _ => endCmd s k 1
  | .ok (e, sh, a) =>
    if sh ≠ cSh x ∨ a ≠ x.rpte.toNat ∨ cIa x % 2 ^ sh ≠ 0 ∨ !leafOk s.pf e sh then endCmd s k 1
    else match cmdHosted s x a with
      | some h => stageCmd (askHalf s h) k .start
      | none => pageCmd s k x e a
/-- The fields that TRCMD keeps (R213, R5): RSV bits read as zero. -/
def trcmdFields : List (Nat × Nat) := [(0, 46), (48, 8), (58, 5)]
/-- A write of TRCMD with GO = 1 (R213). -/
def startCmd (k op : Nat) (w : BitVec 60) (s : State) : Res :=
  let x0 := cmdSlot s k
  .next (if x0.busy then s
    else
      let raw := op * 2 ^ 60 + w.toNat
      let cmd := BitVec.ofNat 64 (keepBits raw trcmdFields)
      let x := { x0 with cmd := cmd, rcmd := cmd, rpte := x0.pte, rarg := x0.arg }
      let s := setSlotOf s k x
      if fld raw 58 2 = 3 ∨ fld raw 56 2 ≠ 0 ∨ fld raw 46 2 ≠ 0 ∨ 512 < cTen x ∨ 5 < op then endCmd s k 3
      else if cmdOverlap s k x then endCmd s k 5
      else if op = 5 then
        let pa := cIa x
        if !isFrame pa ∨ pa % 2 ^ cSh x ≠ 0 ∨ 2 ^ 40 ≤ pa then endCmd s k 3 else stageCmd s k (.scrubbing pa (2 ^ cSh x))
      else beginCmd s k x)
def execUnmapPage (slot : BitVec 4) (w : BitVec 60) (s : State) : Res := startCmd slot.toNat 0 w s
def execUpdatePage (slot : BitVec 4) (w : BitVec 60) (s : State) : Res := startCmd slot.toNat 1 w s
def execMigratePage (slot : BitVec 4) (w : BitVec 60) (s : State) : Res := startCmd slot.toNat 2 w s
def execSplitPage (slot : BitVec 4) (w : BitVec 60) (s : State) : Res := startCmd slot.toNat 3 w s
def execCollapsePage (slot : BitVec 4) (w : BitVec 60) (s : State) : Res := startCmd slot.toNat 4 w s
def execScrubFrame (slot : BitVec 4) (w : BitVec 60) (s : State) : Res := startCmd slot.toNat 5 w s
/-- The twin has agreed to a COLLAPSE (R219): the entry is written once the host has given up its half. -/
def agreeCmd (s : State) (k : Nat) : State :=
  let x := cmdSlot s k
  match hostedFrame s.mem x.rpte.toNat 8 with
  | some h => stageCmd (askHalf s h) k .agreed
  | none =>
    let e := leNat (readBytes s.mem.frames x.rpte.toNat 8)
    stageCmd (putLeaf s x.rpte.toNat (setFld (setFld e 61 3 0) 40 9 0) (cIa x) (cSh x)) k
      (.leases (leaseEnd s (cIa x) (cSh x)) (BitVec.ofNat 64 e))
/-- LEASE_WAIT_END (R211, R214, R216, R219): the leases are over, or the host has given up what is to be written (R351), and
the command goes on. -/
def execLeaseWaitEnd (slot : BitVec 4) (s : State) : Res :=
  let k := slot.toNat
  let x := cmdSlot s k
  .next (match x.stage with
    | .start => beginCmd s k x
    | .agreed => agreeCmd s k
    | .leases t old =>
      if s.now ≤ t then s
      else
        let o := old.toNat
        let inv := fun (f : State → State) =>
          match invalidate s (cIa x) (cSh x) (cHome x) (cTen x) o with
          | .error s => s
          | .ok s => f s
        match cOp x with
        | 0 => inv fun s =>
          if x.rarg = 1 ∧ fld o 61 3 < 2 then stageCmd s k (.scrubbing (leafFrame o) (2 ^ cSh x)) else endCmd s k 0
        | 1 => if updateInvalidates o x.rarg.toNat then inv fun s => endCmd s k 0 else endCmd s k 0
        | 2 => inv fun s => stageCmd s k (.copying old)
        | _ => endCmd s k 0
    | _ => s)
/-- Put a queued request before those that came later. -/
def byTurn (t : Nat) (w : Who) : List (Nat × Who) → List (Nat × Who)
  | [] => [(t, w)]
  | x :: l => if t ≤ x.1 then (t, w) :: x :: l else x :: byTurn t w l
/-- The state after an event that always answers a next one. -/
def after (r : Res) (s : State) : State := match r with | .next s => s | _ => s
/-- A launch's counter or completion signal is tried again. -/
def retryLaunch (s : State) (k : Nat) : State :=
  match smFind s.launches k with
  | some x => if x.phase ≠ 0 then completeSteps 5 s k else if x.retryAt = 0 then testLaunch s k else s
  | none => s
/-- An access of a binding is tried again: of a face, by its kind, or of the completion counter. -/
def retryFace (s : State) (bid k : Nat) : List Nat → State
  | [] => countRound bid 3 s
  | kind :: _ =>
    if kind = kRead then tryRead s bid k
    else if kind = kSend then trySend s bid k
    else if kind = kTake then
      match (smFind s.binds bid).bind fun b => partnerOf s b k with
      | some (yid, _) => trySend s yid (k ^^^ 1)
      | none => s
    else tryRegion s bid k (kind - kFill 0)
/-- A fragment's LAUNCH is tried again. -/
def retryHdr (s : State) (gid e : Nat) : State :=
  match (smFind s.gangs gid).bind fun g => smFind g.frags e with
  | some f => match f.wait with
    | .op k => launchAgain k s
    | _ => s
  | none => s
/-- An engine's access is tried again, by its mark. -/
def retryEng (s : State) (n k : Nat) (rest : List Nat) : State :=
  let e := rest.headD 0
  match n with
  | 1 => retryLaunch s k
  | 2 => retryFace s k e rest.tail
  | 4 => after (execWaitgeSatisfied k e s) s
  | 5 => trySignal s k
  | 6 | 9 | 14 => retryAct k e s
  | 7 => after (execClauseFetch k e s) s
  | 8 => after (execExecutorClauseFetch k s) s
  | 10 => after (execWriteCounted k s) s
  | 11 => (smKeys (fun _ (w : InWrite) => w.flagOf k) s.fab.writes).foldl (fun s j => after (execWriteCounted j s) s) (serviceEntry k 17 s)
  | 12 => retryHdr s k e
  | 13 => lgAgain s
  | 15 => hostServe k s
  | _ => s
/-- A request that waits in a migration's queue is made (R216, R219): a lane's, a copy's, a run's or an engine's. -/
def retryWho (s : State) : Who → State
  | .lane k _ _ => redoOp s k
  | .chunk k j => tryChunk k s j
  | .run r => match smFind s.runs r with
    | some x => match x.wait with | .stall _ => runAgain s r x | _ => s
    | none => s
  | .eng tok => retryEng s (tok.headD 0) (tok.getD 1 0) (tok.drop 2)
/-- Perform the requests that a migration's queue holds, in order of arrival (R216). -/
def replayQueue (s : State) (ia sh : Nat) : State :=
  let q := s.mem.waiting.filter fun w => w.la * 128 / 2 ^ sh == ia / 2 ^ sh
  let ws := q.foldl (fun l w => match w.queued with | some t => byTurn t w.who l | none => l) []
  redoAll ((ws.map Prod.snd).foldl retryWho s)
/-- MIGRATE_COPY_DONE (R216): the copy ends, the entry switches, and the queued requests replay in order. -/
def execMigrateCopyDone (slot : BitVec 4) (s : State) : Res :=
  let k := slot.toNat
  let x := cmdSlot s k
  .next (match x.stage with
    | .copying old =>
      match hostedFrame s.mem x.rpte.toNat 8 with
      | some h => askHalf s h
      | none =>
        let o := old.toNat
        let s := s.setMem (copyFrames s.mem (leafFrame o) x.rarg.toNat (2 ^ cSh x))
        let new := setFld (setFld o 61 3 0) 16 24 (fld x.rarg.toNat 16 24)
        replayQueue (endCmd (putLeaf s x.rpte.toNat new (cIa x) (cSh x)) k 0) (cIa x) (cSh x)
    | _ => s)
/-- SCRUB_DONE (R215). -/
def execScrubDone (slot : BitVec 4) (s : State) : Res :=
  let k := slot.toNat
  .next (match (cmdSlot s k).stage with
    | .scrubbing pa n => endCmd (s.setMem (zeroFrames s.mem pa n)) k 0
    | _ => s)
/-- The acknowledgement of a COLLAPSE message (log 8): its tag and whether it succeeded, on the plane of the request (R326). -/
def collapseReply (s : State) (m : CollapseMsg) (ok : Bool) : State :=
  sendOn s (some m.via.port) (mkFlit s 0x09 m.peer.toNat 0 0 0 m.tag.toNat 0 [2#8, if ok then 0#8 else 4#8] false)
/-- The twin's part of a COLLAPSE (R219): it checks its leaf and makes it a remote page, once the host has given up the entry's
half (R351); its leases over, it invalidates, replays what it queued, and replies. DESIGN CHOICE (log 65): the tenant whose
copies it removes is the one that the message's event names. -/
def twinStep (j : Nat) (t : TwinJob) (s : State) : State :=
  let m := t.m
  let sh := match m.size.toNat with | 0 => 16 | 1 => 21 | _ => 30
  let gone := fun (s : State) => s.setMem { s.mem with twins := smDel s.mem.twins j }
  if t.begun then
    if s.now ≤ t.until_ then s
    else
      match invalidate s m.ia sh m.home.toNat m.ten.toNat t.old.toNat with
      | .error s => s
      | .ok s => collapseReply (replayQueue (gone s) m.ia sh) m true
  else
    match walk s m.ia with
    | .error _ => collapseReply (gone s) m false
    | .ok (e, sh', a) =>
      if sh' ≠ sh ∨ fld e 61 3 ≠ 1 ∨ fld e 40 9 ≠ m.peer.toNat ∨ m.ia % 2 ^ sh ≠ 0 then collapseReply (gone s) m false
      else match hostedFrame s.mem a 8 with
        | some h => askHalf s h
        | none =>
          let new := 3 + m.peer.toNat * 2 ^ 8 + m.exp.toNat * 2 ^ 17 + fld m.off 16 24 * 2 ^ 25 + fld e 51 3 * 2 ^ 51 + 3 * 2 ^ 61
          let job : TwinJob := ⟨m, leaseEnd s m.ia sh, BitVec.ofNat 64 e, true⟩
          let s := putLeaf s a new m.ia sh
          s.setMem { s.mem with twins := smPut s.mem.twins j job }
/-- COLLAPSE_REQUEST_RECEIVE (R219): a request arrives; one that the twin serves already goes on. -/
def execCollapseRequestReceive (m : CollapseMsg) (s : State) : Res :=
  match List.find? (fun p : Nat × TwinJob => p.2.m == m) s.mem.twins with
  | some (j, t) => .next (twinStep j t s)
  | none => takeMsg m.via s fun s =>
    let t : TwinJob := ⟨m, 0, 0, false⟩
    twinStep s.next t { s with next := s.next + 1, mem := { s.mem with twins := smPut s.mem.twins s.next t } }
/-- COLLAPSE_REPLY_RECEIVE (R219). -/
def execCollapseReplyReceive (slot : BitVec 4) (r : CollapseAck) (s : State) : Res :=
  takeMsg r.via s fun s =>
    match (cmdSlot s slot.toNat).stage with
    | .twin _ => if r.ok then agreeCmd s slot.toNat else endCmd s slot.toNat 4
    | _ => s
/-- COLLAPSE_TIMEOUT (R219). -/
def execCollapseTimeout (slot : BitVec 4) (s : State) : Res :=
  .next (match (cmdSlot s slot.toNat).stage with
    | .twin d => if d ≤ s.now then endCmd s slot.toNat 4 else s
    | _ => s)
/-- TRANSLATION_REQUEST (R206, R207, R211): a translation that is granted leaves a lease with its holder; a request that
arrives with an expiry below package time is refused, and its holder translates again. -/
def execTranslationRequest (who : Asker) (ia : Nat) (kind : AccKind) (expiry : Option Nat) (s : State) : Res :=
  let late := match expiry with | some e => decide (e < s.now) | none => false
  let dropped := [16, 21, 30].foldl (fun h sh => smDel h (heldKey who.holder ia sh)) s.mem.held
  let s := if late then s.setMem { s.mem with held := dropped } else s
  .next (match lookup s who.holder who.ten ia (some kind) with
    | .ok (s, _) => s
    | .error _ => s)

end Sys2Proof.Machine
end

