-- ==== Sys2Proof/Machine/Platform.lean ====
section
/-! DEFINITION. The platform: die loss and the service of dies (R377, R385), islands, temperature and power (R389, R390),
the capability record (R386), boot and measurements (R387, R388), management (R391), soft errors (R204, R379), and writes
of the registers that have no row of their own (R5). -/
namespace Sys2Proof.Machine

/-! Dies (R54-R57, R377, R385). -/

def State.setPlat (s : State) (p : Platform) : State := { s with plat := p }
/-- An island that nothing has moved runs at 1.2 GHz (log 3). -/
def island (s : State) (k : Nat) : Island := smGet s.plat.islands k ⟨false, 1200⟩
def adjIsland (s : State) (k : Nat) (f : Island → Island) : State :=
  s.setPlat { s.plat with islands := smPut s.plat.islands k (f (island s k)) }
/-- The islands of a die (R389): those of a compute die; no other die has one. -/
def islandsOf (sock : Nat) : List Nat := if sock < 8 then [2 * sock, 2 * sock + 1] else []
/-- An island's state (R389): a core array is IDLE while no gang is resident on its die. -/
def islandSt (s : State) (k : Nat) : IslandSt :=
  if (island s k).off then .off
  else if k % 2 = 0 ∧ !(List.any s.gangs fun p => p.2.core / 64 == k / 2) then .idle
  else .on
/-- The home slice of a half by the line that it holds, or by the HDM window that covers its IA (R350). -/
def halfHome (s : State) (h : Nat) : Option Nat :=
  let byLine := (smKeys (fun k _ => keyLine k == h / 2) s.mem.l2).head?
  byLine.or ((List.range 16).findSome? fun n =>
    let w := (smGet s.pf.hdmw n 0#128).toNat
    let lo := fld w 64 36 * 2 ^ 16
    if w.testBit 109 && decide (lo ≤ h * 64) && decide (h * 64 < lo + (fld w 40 24 + 1) * 2 ^ 16) then
      some (homeKey (h * 64) (fld w 120 8)) else none)
/-- The socket of a translation holder (R211). -/
def holderSock (h : Nat) : Nat :=
  if h < 4096 then h / 512 else if h < 8192 then (h - 4096) / 64 else if h < 12288 then 8 + (h - 8192) / 64 else h - 12288
/-- What a die's own units hold is gone (R57): their translations; a compute die's L1 and L2 lines, with the host bits and
snoop-filter entries of its slices, and the L1 lines of any core whose home slice was there; or a stack's executor runs. -/
def clearDie (s : State) (sock : Nat) : State :=
  let s := s.setMem { s.mem with held := smKeep (fun k _ => holderSock (k / 2 ^ 36) != sock) s.mem.held }
  if sock < 8 then
    let here := fun (h : Nat) => (halfHome s h).map keyDie == some sock
    s.setMem { s.mem with
      l1 := smKeep (fun k x => keyUnit k / 64 != sock && keyDie x.home != sock) s.mem.l1
      l2 := smKeep (fun k _ => keyDie k != sock) s.mem.l2
      hostBits := smKeep (fun h _ => !here h) s.mem.hostBits
      snooping := smKeep (fun h _ => !here h) s.mem.snooping
      filter := smKeep (fun h _ => !here h) s.mem.filter }
  else if sock < 20 then { s with runs := smKeep (fun _ x => x.unit.map (· / 64) != some (sock - 8)) s.runs }
  else s
/-- The ports of an I/O die fail with it (R54): its Ibcel ports, its pool ports and its host port. -/
def failIo (s : State) (i : Nat) : State :=
  let s := (smKeys (fun p (x : Port) => p / 32 == i && x.live) s.fab.ports).foldl failPlane s
  let s := [i, 2 + 2 * i, 3 + 2 * i].foldl (fun s p => s.adjHport p fun x => { x with live := false }) s
  [i, 2 + 2 * i, 3 + 2 * i].foldl failPort s
/-- A die is lost (R377): its LIVE bit clears, and every context that has touched it, or has met its loss at an
instruction, becomes lost. -/
def loseDie (s : State) (sock : Nat) : State :=
  let s := s.setPlat { s.plat with live := s.plat.live &&& ~~~(1#32 <<< sock) }
  let s := (smKeys (fun _ (c : Ctx) => c.dies.getLsbD sock || c.doomed == some sock) s.ctxs).foldl (fun s c => loseCtx s c sock) s
  let s := clearDie s sock
  if 20 ≤ sock then failIo s (sock - 20) else s
/-- DIE_LOSS (R377). -/
def execDieLoss (sock : Nat) (s : State) : Res :=
  .next (if sock < 22 && s.plat.live.getLsbD sock then loseDie s sock else s)
/-- A context that has taken DIE_LOST for a die lost before becomes lost itself (R377). -/
def loseDoomed (ctx : Nat) (s : State) : Res :=
  .next (match (smFind s.ctxs ctx).bind (·.doomed) with
    | some sock => loseCtx s ctx sock
    | none => s)
/-- A die out of service has its islands OFF (R389). -/
def outOfService (s : State) (sock : Nat) : State :=
  loseDie ((islandsOf sock).foldl (fun s k => adjIsland s k fun x => { x with off := true }) s) sock
/-- DIESVC after an operation (R385): its fields and ST. -/
def setDiesvc (s : State) (op sock st : Nat) : State :=
  s.setPf { s.pf with diesvc := BitVec.ofNat 32 (st * 2 ^ 29 + op % 2 * 2 ^ 28 + sock % 32) }
/-- A live context has touched the die (R57, R385). -/
def touched (s : State) (sock : Nat) : Bool := List.any s.ctxs fun p => !p.2.lost && p.2.dies.getLsbD sock
/-- Whether a return of a die is refused (R385). -/
def returnRefused (s : State) (sock : Nat) : Bool :=
  22 ≤ sock || touched s sock || (islandsOf sock).any fun k => (island s k).off
/-- DIESVC's operation, with the status it ends with. -/
def dieOp (s : State) (op sock : Nat) : State × Nat :=
  if 22 ≤ sock then (setDiesvc s op sock 3, 3)
  else if op = 0 then (setDiesvc (outOfService s sock) 0 sock 2, 2)
  else if returnRefused s sock then (setDiesvc s 1 sock 3, 3)
  else
    let s := clearDie s sock
    (setDiesvc (s.setPlat { s.plat with live := s.plat.live ||| (1#32 <<< sock) }) 1 sock 2, 2)
/-- DIE_TAKE_OUT (R385). -/
def execDieTakeOut (sock : BitVec 5) (s : State) : Res := .next (dieOp s 0 sock.toNat).1
/-- DIE_RETURN (R385, R57). -/
def execDieReturn (sock : BitVec 5) (s : State) : Res := .next (dieOp s 1 sock.toNat).1

/-! Temperature and power (R389, R390). -/

/-- One step of 25 MHz down, not below 400 MHz (R389). -/
def slower (s : State) (k : Nat) : State := adjIsland s k fun x => { x with mhz := max 400 (x.mhz - 25) }
/-- A reading of a die's sensor: throttling begins above 95 degrees and goes on until the temperature is below 95 (R390). -/
def senseTemp (s : State) (sock n : Nat) : State :=
  s.setPlat { s.plat with
    temps := smPut s.plat.temps sock n
    hot := if 95 < n then smPut s.plat.hot sock true else if n < 95 then smDel s.plat.hot sock else s.plat.hot }
/-- THERMAL_THROTTLE_STEP (R390). -/
def execThermalThrottleStep (die : Nat) (s : State) : Res :=
  .next (if smGet s.plat.hot die false then (islandsOf die).foldl slower s else s)
/-- THERMAL_TRIP (R390): at 105 degrees, or on a supply fault, the die is taken out of service. -/
def execThermalTrip (sock : Nat) (s : State) : Res :=
  .next (if sock < 22 && s.plat.live.getLsbD sock && (decide (105 ≤ smGet s.plat.temps sock 0) || smGet s.plat.supply sock false) then
      outOfService s sock
    else s)
/-- POWER_CAP_ENFORCE (R390): above the cap every island steps down alike. -/
def execPowerCapEnforce (s : State) : Res :=
  .next (if s.plat.cap < s.plat.power then (List.range 16).foldl slower s else s)

/-! Boot and attestation (R386-R388). -/

/-- DEVCAP (R386). -/
def devcap (s : State) : Nat :=
  s.plat.fwver.toNat * 2 ^ 160 + s.plat.live.toNat * 2 ^ 128 + 0x0301 * 2 ^ 112 + 0x0100 * 2 ^ 96 + 0x0100 * 2 ^ 80
    + 0x0100 * 2 ^ 64 + 2 * 2 ^ 56 + 2 * 2 ^ 48 + s.plat.form.toNat
/-- The boot ROM's checks of an image (R387): signature against the fused key hash, and the rollback count. -/
def imageOk (p : Platform) (x : FwImage) : Bool :=
  x.keyHash == p.keyHash && Config.mldsaVerify x.keyHash (Config.sha3 x.bytes) x.sig && decide (p.rollback ≤ x.secver)
/-- The platform after boot (R387): the slot that is tried first, else the other, else recovery. Slot A is tried first until
FW_UPDATE has written a slot, whose image is to take effect (R391, log 58). -/
def boot (p : Platform) : Platform :=
  let p := { p with islands := [], live := 0x3fffff#32, recovery := false, cap := 3400, out := [] }
  let runA := { p with running := 0, fwver := p.slotA.version }
  let runB := { p with running := 1, fwver := p.slotB.version }
  let a := imageOk p p.slotA
  let b := imageOk p p.slotB
  if a && (p.first == 0 || !b) then runA
  else if b then runB
  else { p with running := 2, fwver := 0, live := 0, recovery := true }
/-- The tenants' functions after a cold reset: a device in recovery presents the physical function alone (R387). -/
def bootTenants (recovery : Bool) : SMap Tenant :=
  if recovery then (List.range 512).map fun i => (i + 1, { Tenant.reset with enabled := false, ports := 0 }) else []
/-- COLD_RESET (R387, R5, R70): everything returns to its reset value but the flash, the fuses and the sensors. -/
def execColdReset (s : State) : Res :=
  let p := boot s.plat
  .next { State.reset with inbox := s.inbox, turn := s.turn, free := s.free, plat := p, tenants := bootTenants p.recovery }
/-- The running image, if one runs. -/
def runningImage (p : Platform) : Option FwImage := match p.running with | 0 => some p.slotA | 1 => some p.slotB | _ => none
/-- SPDM_REQUEST (R388): the three measurements, signed with the requester's nonce; answered on each host port. -/
def measurements (p : Platform) : List Nat :=
  [Config.bootRom, match runningImage p with | some x => Config.sha3 x.bytes | none => 0, p.keyHash, p.rollback]
def execSpdmRequest (port nonce : Nat) (s : State) : Res :=
  let m := measurements s.plat
  .next (if port < 2 then s.setPlat { s.plat with out := s.plat.out ++ [(256 + port, 0, m ++ [Config.mldsaSign (nonce :: m)])] }
    else s)

/-! Basermyo (R391). -/

/-- A response: command code, status (0 done, 1 error, 2 refused: log 8) and payload. -/
def answer (s : State) (code st : Nat) (payload : List Nat) : State :=
  s.setPlat { s.plat with out := s.plat.out ++ [(code, st, payload)] }
/-- What training settled for a host or pool port: CXL version, speed, width and flit size. -/
def portReport (s : State) (p : Nat) : List Nat := let x := hport s p; [x.cxl.toNat, x.gts, x.lanes, x.flit]
/-- GET_CAP: the record, and after it what training settled for each port (R348); R386's layout has no bits for that
(log 47). -/
def execGetCap (s : State) : Res := .next (answer s 1 0 (devcap s :: (List.range 6).flatMap (portReport s)))
def islandCode : IslandSt → Nat
  | .on => 0 | .idle => 1 | .off => 2
/-- GET_SENSORS: temperatures by socket, island states, frequencies, package power. -/
def execGetSensors (s : State) : Res :=
  .next (answer s 2 0 ((List.range 22).map (fun k => smGet s.plat.temps k 0) ++ (List.range 16).map (fun k => islandCode (islandSt s k))
    ++ (List.range 16).map (fun k => (island s k).mhz) ++ [s.plat.power]))
/-- SET_CAP (R390): 1.5 kW to 3.4 kW; any other value is answered with an error and changes nothing. -/
def execSetCap (watts : Nat) (s : State) : Res :=
  .next (if 1500 ≤ watts ∧ watts ≤ 3400 then answer (s.setPlat { s.plat with cap := watts }) 3 0 [] else answer s 3 1 [])
/-- GET_ERRORS: corrected errors, Ibcel link counters, host and pool port counters, the I/O dies' counters. -/
def execGetErrors (s : State) : Res :=
  .next (answer s 4 0 ([s.plat.corrected]
    ++ (List.range 64).map (fun p => match smFind s.fab.ports p with | some x => x.errs | none => 0)
    ++ (List.range 6).map (fun p => (hport s p).errs) ++ (List.range 2).map fun i => smGet s.fab.errors i 0))
/-- DIE_SERVICE: a DIESVC operation. -/
def execDieService (op : BitVec 1) (sock : BitVec 5) (s : State) : Res :=
  .next (let r := dieOp s op.toNat sock.toNat; answer r.1 5 (if r.2 = 2 then 0 else 2) [])
/-- FW_UPDATE (R391): the slot that is not running takes the image, which is checked and takes effect at the next cold reset. -/
def execFwUpdate (image : FwImage) (s : State) : Res :=
  .next (answer (s.setPlat (if s.plat.running = 0 then { s.plat with slotB := image, first := 1 }
    else { s.plat with slotA := image, first := 0 })) 6 0 [])
/-- BASERMYO_UNKNOWN_COMMAND: an unassigned code is answered with an error, a virtual function's command is refused. -/
def execBasermyoUnknownCommand (fn : Nat) (code : BitVec 8) (s : State) : Res :=
  .next (if fn ≠ 0 then answer s code.toNat 2 []
    else if code.toNat = 0 ∨ 7 ≤ code.toNat then answer s code.toNat 1 []
    else s)

/-! Readings and soft errors (R204, R379, R390), which come from outside. -/

/-- An uncorrectable error in a register, tile or accumulator word that the next instruction reads (R379), or in a fragment's
own state. A gang that has ended takes no fault more (R362). -/
def badRead (s : State) (gid e : Nat) (mask : Lanes) (word : B32) : State :=
  match (smFind s.gangs gid).bind fun g => if g.ending.isSome then none else smFind g.frags e with
  | some f => terminate s gid .dataPoison f.pc word mask 0
  | none => s
/-- What an input that is no event and no turn does. -/
def outside (x : Input) (s : State) : State :=
  match x with
  | .sense sock n => senseTemp s sock n
  | .supply sock bad => s.setPlat { s.plat with supply := smSet s.plat.supply sock bad false }
  | .watts n => s.setPlat { s.plat with power := n }
  | .corrected => s.setPlat { s.plat with corrected := s.plat.corrected + 1 }
  | .badFrame pa => s.setMem { s.mem with poison := smSet s.mem.poison (pa / 32) true false }
  | .badScratch wg a => s.setMem { s.mem with poison := smSet s.mem.poison (scratchMark wg a) true false }
  | .badState gid e => badRead s gid e 0 0
  | .badL1 k => s.setMem { s.mem with l1 := smAdj s.mem.l1 k fun x => { x with poison := 0xff } }
  | .badL2 k => s.setMem { s.mem with l2 := smAdj s.mem.l2 k fun x => { x with poison := 0xff } }
  | .unhold k => s.setMem { s.mem with held := smDel s.mem.held k }
  | .dropPte k => s.setMem { s.mem with ptes := smDel s.mem.ptes k }
  | .dropLease k => s.setMem { s.mem with
      leases := smAdj s.mem.leases k fun r => { r with expiry := s.now + 1000 * (s.tenant r.ten).counted s.now } }
  | .aged p => agedOut s p
  | .function ten en ports =>
    if ten ≤ 512 ∧ !(s.plat.recovery ∧ 0 < ten) then s.adjTenant ten fun t => { t with enabled := en, ports := ports } else s
  | .land op key => landResult op key s
  | .time n => { s with now := s.now + n }
  | _ => s

/-! Register writes (R5): RW fields take the value, RSV bits are ignored, WO bits act. -/

/-- STRCMD's fields (R334). -/
def streamCmd (v : B64) : StreamCmd :=
  ⟨v.extractLsb' 51 10, v.extractLsb' 47 4, v.extractLsb' 38 9, v.extractLsb' 28 10, v.extractLsb' 8 20, v.extractLsb' 0 8⟩
/-- CTXCMD (R39). -/
def writeCtxcmd (v : B64) (s : State) : Res :=
  let priv := v.extractLsb' 60 1
  let ctx := v.extractLsb' 50 10
  let ten := v.extractLsb' 40 10
  if v.getLsbD 63 then
    match fld v.toNat 61 2 with
    | 0 => execCtxCreate priv ctx ten (v.extractLsb' 0 40) s
    | 1 => execCtxDestroy priv ctx ten (v.extractLsb' 0 40) s
    | op => .next (if s.pf.destroying.isSome then s else setCtx (ctxCmd s op priv ctx ten) 3)
  else .next (ctxCmd s (fld v.toNat 61 2) priv ctx ten)
/-- STRCMD (R334). -/
def writeStrcmd (v : B64) (s : State) : Res :=
  let c := streamCmd v
  let op := fld v.toNat 61 2
  if v.getLsbD 63 then
    match op with
    | 0 => execOpenSend c s
    | 1 => execOpenReceive c s
    | 2 => execCloseSend c s
    | _ => execCloseReceive c s
  else .next (s.setPf { s.pf with strcmd := BitVec.ofNat 64 (keepBits v.toNat [(8, 55)]) })
/-- TRCMD (R213). -/
def writeTrcmd (k : Nat) (v : B64) (s : State) : Res :=
  if v.getLsbD 63 then startCmd k (fld v.toNat 60 3) (v.extractLsb' 0 60) s
  else
    let x := cmdSlot s k
    .next (setSlotOf s k { x with cmd := BitVec.ofNat 64 (keepBits v.toNat trcmdFields) })
/-- A region-table entry (R202): the base dies then scrub the whole region. -/
def writeRegion (grp n p : Nat) (s : State) : State :=
  if grp < 3 ∧ n < 96 then
    let s := s.setPf { s.pf with region := smPut s.pf.region (grp * 128 + n) (BitVec.ofNat 8 (p % 8)) }
    s.setMem (zeroFrames s.mem (grp * 2 ^ 38 + n * 2 ^ 31) (2 ^ 31))
  else s
/-- REGISTER_WRITE (R5). A window that names a lost die is not made valid (R56). -/
def execRegisterWrite (r : PfReg) (v : BitVec 192) (s : State) : Res :=
  let lo := v.setWidth 64
  let n := lo.toNat
  let pf := s.pf
  match r with
  | .ctxcmd => writeCtxcmd lo s
  | .strcmd => writeStrcmd lo s
  | .lgcmd =>
    if lo.getLsbD 63 then execLgcmdStart (lo.extractLsb' 51 10) (lo.extractLsb' 50 1) (lo.extractLsb' 0 50) s
    else .next (s.setPf { pf with lgcmd := BitVec.ofNat 64 (keepBits n [(0, 50), (51, 10)] + keepBits pf.lgcmd.toNat [(61, 2)]) })
  | .diesvc =>
    if lo.getLsbD 31 then .next (dieOp s (fld n 28 1) (fld n 0 5)).1
    else .next (s.setPf { pf with diesvc := BitVec.ofNat 32 (keepBits n [(0, 5), (28, 1)] + keepBits pf.diesvc.toNat [(29, 2)]) })
  | .troot =>
    -- the translation homes forget the entries of the table before (R206)
    .next ((s.setPf { pf with troot := BitVec.ofNat 64 (keepBits n [(16, 24)]) }).setMem { s.mem with ptes := [] })
  | .peerid => .next (s.setPf { pf with peerid := lo.setWidth 9 })
  | .trcmd k => writeTrcmd k.toNat lo s
  | .trpte k => .next (setSlotOf s k.toNat { cmdSlot s k.toNat with pte := lo })
  | .trarg k => .next (setSlotOf s k.toNat { cmdSlot s k.toNat with arg := lo })
  | .profctl grp =>
    if lo.getLsbD 31 then execProfctlCommit grp (lo.setWidth 3) s
    else .next (if grp < 3 then
      s.setPf { pf with profctl := smPut pf.profctl grp (BitVec.ofNat 32 (fld n 0 3 + keepBits (smGet pf.profctl grp 0).toNat [(30, 1)])) }
      else s)
  | .hmask grp b =>
    .next (if grp < 3 ∧ b < 24 then s.setPf { pf with hmask := smPut pf.hmask (grp * 24 + b) (BitVec.ofNat 32 (fld n 0 24)) } else s)
  | .region grp k => .next (writeRegion grp k n s)
  | .export_ k =>
    .next (if k < 256 then
      s.setPf { pf with exports := smPut pf.exports k (BitVec.ofNat 128 (keepBits v.toNat [(0, 24), (64, 36), (106, 22)])) }
      else s)
  | .hdmw port k =>
    .next (if port < 2 ∧ k < 8 then
      s.setPf { pf with hdmw := smPut pf.hdmw (port * 8 + k) (BitVec.ofNat 128 (keepBits v.toNat [(0, 100), (109, 19)])) }
      else s)
  | .lease ten => .next (if ten ≤ 512 ∧ 4 ≤ fld n 0 9 ∧ fld n 0 9 ≤ 256 then s.adjTenant ten fun t => t.setLmax s.now (fld n 0 9) else s)
  | .fabcfg ten =>
    .next (if ten ≤ 512 ∧ 16 ≤ fld n 0 20 ∧ fld n 0 20 ≤ 1000000 then s.adjTenant ten fun t => { t with rtmo := fld n 0 20 } else s)
  | .sfq ten => .next (if ten ≤ 512 then s.adjTenant ten fun t => { t with quota := min 16 (fld n 0 5) } else s)
  | .drain ten => .next (if ten ≤ 512 then s.adjTenant ten fun t => { t with drb := fld n 0 16 } else s)
  | .peers ten j => .next (if ten ≤ 512 ∧ j < 8 then s.adjTenant ten fun t => { t with peers := smSet t.peers j lo 0 } else s)
  | .win ctx w =>
    let x := BitVec.ofNat 192 (keepBits v.toNat [(0, 41), (64, 41), (128, 36), (176, 4), (184, 8)])
    .next (if w < 8 ∧ !winLost s x then setWin s ctx w x else s)
  | .fqbase ctx => .next (s.adjCtx ctx fun c => { c with fqbase := BitVec.ofNat 64 (keepBits n [(12, 28)]) })
  | .csa ctx => .next (s.adjCtx ctx fun c => { c with csa := BitVec.ofNat 64 (keepBits n [(16, 24), (48, 16)]) })

end Sys2Proof.Machine
end

