-- ==== Sys2Proof/Machine/Dispatch.lean ====
section
/-! DEFINITION. exec: one arm per constructor, each one direct call of that instruction's meaning. -/
namespace Sys2Proof.Machine

/-- What an instruction or event does to the state. -/
def exec (i : Instr) (s : State) : Host.Outcome State Fault Refusal :=
  match i with
  | .nop => Sys2Proof.Machine.execNop s
  | .bra x0 => Sys2Proof.Machine.execBra x0 s
  | .brq x0 x1 x2 => Sys2Proof.Machine.execBrq x0 x1 x2 s
  | .brx x0 x1 => Sys2Proof.Machine.execBrx x0 x1 s
  | .callG x0 x1 => Sys2Proof.Machine.execCallG x0 x1 s
  | .retG x0 x1 => Sys2Proof.Machine.execRetG x0 x1 s
  | .exitG x0 => Sys2Proof.Machine.execExitG x0 s
  | .trapG x0 x1 => Sys2Proof.Machine.execTrapG x0 x1 s
  | .joinat x0 => Sys2Proof.Machine.execJoinat x0 s
  | .joinG x0 => Sys2Proof.Machine.execJoinG x0 s
  | .regang x0 => Sys2Proof.Machine.execRegang x0 s
  | .gfuseRcv x0 x1 x2 x3 => Sys2Proof.Machine.execGfuseRcv x0 x1 x2 x3 s
  | .gfuseDon x0 x1 x2 x3 => Sys2Proof.Machine.execGfuseDon x0 x1 x2 x3 s
  | .yieldG x0 x1 x2 x3 => Sys2Proof.Machine.execYieldG x0 x1 x2 x3 s
  | .pauseG x0 => Sys2Proof.Machine.execPauseG x0 s
  | .idemend => Sys2Proof.Machine.execIdemend s
  | .gadd x0 x1 x2 x3 => Sys2Proof.Machine.execGadd x0 x1 x2 x3 s
  | .gsub x0 x1 x2 x3 => Sys2Proof.Machine.execGsub x0 x1 x2 x3 s
  | .gmul x0 x1 x2 x3 => Sys2Proof.Machine.execGmul x0 x1 x2 x3 s
  | .gmulh x0 x1 x2 x3 x4 => Sys2Proof.Machine.execGmulh x0 x1 x2 x3 x4 s
  | .gmin x0 x1 x2 x3 x4 => Sys2Proof.Machine.execGmin x0 x1 x2 x3 x4 s
  | .gmax x0 x1 x2 x3 x4 => Sys2Proof.Machine.execGmax x0 x1 x2 x3 x4 s
  | .gmov x0 x1 x2 => Sys2Proof.Machine.execGmov x0 x1 x2 s
  | .gand x0 x1 x2 x3 => Sys2Proof.Machine.execGand x0 x1 x2 x3 s
  | .gor x0 x1 x2 x3 => Sys2Proof.Machine.execGor x0 x1 x2 x3 s
  | .gxor x0 x1 x2 x3 => Sys2Proof.Machine.execGxor x0 x1 x2 x3 s
  | .gshl x0 x1 x2 x3 => Sys2Proof.Machine.execGshl x0 x1 x2 x3 s
  | .gshr x0 x1 x2 x3 => Sys2Proof.Machine.execGshr x0 x1 x2 x3 s
  | .gsar x0 x1 x2 x3 => Sys2Proof.Machine.execGsar x0 x1 x2 x3 s
  | .gaddi x0 x1 x2 => Sys2Proof.Machine.execGaddi x0 x1 x2 s
  | .gandi x0 x1 x2 => Sys2Proof.Machine.execGandi x0 x1 x2 s
  | .gori x0 x1 x2 => Sys2Proof.Machine.execGori x0 x1 x2 s
  | .gxori x0 x1 x2 => Sys2Proof.Machine.execGxori x0 x1 x2 s
  | .gshli x0 x1 x2 => Sys2Proof.Machine.execGshli x0 x1 x2 s
  | .gshri x0 x1 x2 => Sys2Proof.Machine.execGshri x0 x1 x2 s
  | .gsari x0 x1 x2 => Sys2Proof.Machine.execGsari x0 x1 x2 s
  | .gmovi x0 x1 => Sys2Proof.Machine.execGmovi x0 x1 s
  | .gmovhi x0 x1 => Sys2Proof.Machine.execGmovhi x0 x1 s
  | .gcmp x0 x1 x2 x3 x4 x5 => Sys2Proof.Machine.execGcmp x0 x1 x2 x3 x4 x5 s
  | .qlop x0 x1 x2 x3 x4 => Sys2Proof.Machine.execQlop x0 x1 x2 x3 x4 s
  | .gsr x0 x1 x2 => Sys2Proof.Machine.execGsr x0 x1 x2 s
  | .gsw x0 x1 x2 => Sys2Proof.Machine.execGsw x0 x1 x2 s
  | .gfromv x0 x1 x2 x3 x4 => Sys2Proof.Machine.execGfromv x0 x1 x2 x3 x4 s
  | .greduce x0 x1 x2 x3 x4 => Sys2Proof.Machine.execGreduce x0 x1 x2 x3 x4 s
  | .gldk x0 x1 x2 x3 x4 => Sys2Proof.Machine.execGldk x0 x1 x2 x3 x4 s
  | .gstk x0 x1 x2 x3 x4 => Sys2Proof.Machine.execGstk x0 x1 x2 x3 x4 s
  | .tcopy x0 x1 x2 x3 => Sys2Proof.Machine.execTcopy x0 x1 x2 x3 s
  | .tcopyg x0 x1 x2 x3 => Sys2Proof.Machine.execTcopyg x0 x1 x2 x3 s
  | .barinit x0 x1 x2 => Sys2Proof.Machine.execBarinit x0 x1 x2 s
  | .barexp x0 x1 x2 => Sys2Proof.Machine.execBarexp x0 x1 x2 s
  | .barexpArv x0 x1 x2 => Sys2Proof.Machine.execBarexpArv x0 x1 x2 s
  | .bararv x0 x1 x2 => Sys2Proof.Machine.execBararv x0 x1 x2 s
  | .barwait x0 x1 x2 => Sys2Proof.Machine.execBarwait x0 x1 x2 s
  | .bartry x0 x1 x2 x3 => Sys2Proof.Machine.execBartry x0 x1 x2 x3 s
  | .mma x0 x1 x2 x3 x4 x5 => Sys2Proof.Machine.execMma x0 x1 x2 x3 x4 x5 s
  | .mmag x0 x1 x2 x3 x4 x5 => Sys2Proof.Machine.execMmag x0 x1 x2 x3 x4 x5 s
  | .mldt x0 x1 x2 x3 x4 => Sys2Proof.Machine.execMldt x0 x1 x2 x3 x4 s
  | .mstt x0 x1 x2 x3 x4 => Sys2Proof.Machine.execMstt x0 x1 x2 x3 x4 s
  | .mza x0 x1 => Sys2Proof.Machine.execMza x0 x1 s
  | .mrdaTile x0 x1 x2 x3 x4 => Sys2Proof.Machine.execMrdaTile x0 x1 x2 x3 x4 s
  | .mrdaScratch x0 x1 x2 x3 x4 => Sys2Proof.Machine.execMrdaScratch x0 x1 x2 x3 x4 s
  | .gbind x0 x1 => Sys2Proof.Machine.execGbind x0 x1 s
  | .gbindN x0 x1 x2 => Sys2Proof.Machine.execGbindN x0 x1 x2 s
  | .gbindUn x0 => Sys2Proof.Machine.execGbindUn x0 s
  | .gstep x0 x1 => Sys2Proof.Machine.execGstep x0 x1 s
  | .gwait x0 x1 x2 => Sys2Proof.Machine.execGwait x0 x1 x2 s
  | .gwaitTry x0 x1 x2 x3 => Sys2Proof.Machine.execGwaitTry x0 x1 x2 x3 s
  | .bxrun x0 x1 x2 x3 x4 => Sys2Proof.Machine.execBxrun x0 x1 x2 x3 x4 s
  | .bxwait x0 x1 x2 => Sys2Proof.Machine.execBxwait x0 x1 x2 s
  | .bxwaitTry x0 x1 x2 x3 => Sys2Proof.Machine.execBxwaitTry x0 x1 x2 x3 s
  | .rrel x0 x1 x2 x3 => Sys2Proof.Machine.execRrel x0 x1 x2 x3 s
  | .rfence x0 => Sys2Proof.Machine.execRfence x0 s
  | .rfenceCnt x0 x1 x2 => Sys2Proof.Machine.execRfenceCnt x0 x1 x2 s
  | .launchG x0 x1 x2 => Sys2Proof.Machine.execLaunchG x0 x1 x2 s
  | .signalG x0 x1 x2 x3 => Sys2Proof.Machine.execSignalG x0 x1 x2 x3 s
  | .waitge x0 x1 x2 x3 => Sys2Proof.Machine.execWaitge x0 x1 x2 x3 s
  | .fenceG x0 x1 x2 => Sys2Proof.Machine.execFenceG x0 x1 x2 s
  | .fresolve x0 x1 x2 x3 => Sys2Proof.Machine.execFresolve x0 x1 x2 x3 s
  | .rsreset x0 x1 x2 x3 => Sys2Proof.Machine.execRsreset x0 x1 x2 x3 s
  | .ctxsave x0 x1 x2 x3 => Sys2Proof.Machine.execCtxsave x0 x1 x2 x3 s
  | .ctxload x0 x1 x2 x3 => Sys2Proof.Machine.execCtxload x0 x1 x2 x3 s
  | .iadd x0 x1 x2 x3 x4 => Sys2Proof.Machine.execIadd x0 x1 x2 x3 x4 s
  | .isub x0 x1 x2 x3 x4 => Sys2Proof.Machine.execIsub x0 x1 x2 x3 x4 s
  | .imul x0 x1 x2 x3 => Sys2Proof.Machine.execImul x0 x1 x2 x3 s
  | .imulh x0 x1 x2 x3 x4 => Sys2Proof.Machine.execImulh x0 x1 x2 x3 x4 s
  | .imad x0 x1 x2 x3 x4 => Sys2Proof.Machine.execImad x0 x1 x2 x3 x4 s
  | .imin x0 x1 x2 x3 x4 => Sys2Proof.Machine.execImin x0 x1 x2 x3 x4 s
  | .imax x0 x1 x2 x3 x4 => Sys2Proof.Machine.execImax x0 x1 x2 x3 x4 s
  | .iabs x0 x1 x2 x3 => Sys2Proof.Machine.execIabs x0 x1 x2 x3 s
  | .andL x0 x1 x2 x3 x4 => Sys2Proof.Machine.execAndL x0 x1 x2 x3 x4 s
  | .orL x0 x1 x2 x3 x4 => Sys2Proof.Machine.execOrL x0 x1 x2 x3 x4 s
  | .xorL x0 x1 x2 x3 x4 => Sys2Proof.Machine.execXorL x0 x1 x2 x3 x4 s
  | .notL x0 x1 x2 x3 => Sys2Proof.Machine.execNotL x0 x1 x2 x3 s
  | .shl x0 x1 x2 x3 x4 => Sys2Proof.Machine.execShl x0 x1 x2 x3 x4 s
  | .shr x0 x1 x2 x3 x4 => Sys2Proof.Machine.execShr x0 x1 x2 x3 x4 s
  | .sar x0 x1 x2 x3 x4 => Sys2Proof.Machine.execSar x0 x1 x2 x3 x4 s
  | .mov x0 x1 x2 x3 => Sys2Proof.Machine.execMov x0 x1 x2 x3 s
  | .bfe x0 x1 x2 x3 x4 => Sys2Proof.Machine.execBfe x0 x1 x2 x3 x4 s
  | .bfi x0 x1 x2 x3 => Sys2Proof.Machine.execBfi x0 x1 x2 x3 s
  | .popc x0 x1 x2 x3 => Sys2Proof.Machine.execPopc x0 x1 x2 x3 s
  | .clz x0 x1 x2 x3 => Sys2Proof.Machine.execClz x0 x1 x2 x3 s
  | .brev x0 x1 x2 x3 => Sys2Proof.Machine.execBrev x0 x1 x2 x3 s
  | .sel x0 x1 x2 x3 x4 x5 => Sys2Proof.Machine.execSel x0 x1 x2 x3 x4 x5 s
  | .isetp x0 x1 x2 x3 x4 x5 => Sys2Proof.Machine.execIsetp x0 x1 x2 x3 x4 x5 s
  | .iadd64 x0 x1 x2 x3 x4 => Sys2Proof.Machine.execIadd64 x0 x1 x2 x3 x4 s
  | .isub64 x0 x1 x2 x3 x4 => Sys2Proof.Machine.execIsub64 x0 x1 x2 x3 x4 s
  | .iaddi x0 x1 x2 => Sys2Proof.Machine.execIaddi x0 x1 x2 s
  | .imuli x0 x1 x2 => Sys2Proof.Machine.execImuli x0 x1 x2 s
  | .andi x0 x1 x2 => Sys2Proof.Machine.execAndi x0 x1 x2 s
  | .ori x0 x1 x2 => Sys2Proof.Machine.execOri x0 x1 x2 s
  | .xori x0 x1 x2 => Sys2Proof.Machine.execXori x0 x1 x2 s
  | .shli x0 x1 x2 => Sys2Proof.Machine.execShli x0 x1 x2 s
  | .shri x0 x1 x2 => Sys2Proof.Machine.execShri x0 x1 x2 s
  | .sari x0 x1 x2 => Sys2Proof.Machine.execSari x0 x1 x2 s
  | .movi x0 x1 => Sys2Proof.Machine.execMovi x0 x1 s
  | .movhi x0 x1 => Sys2Proof.Machine.execMovhi x0 x1 s
  | .plop x0 x1 x2 x3 x4 => Sys2Proof.Machine.execPlop x0 x1 x2 x3 x4 s
  | .pmovTov x0 x1 => Sys2Proof.Machine.execPmovTov x0 x1 s
  | .pmovFromv x0 x1 => Sys2Proof.Machine.execPmovFromv x0 x1 s
  | .pmovFromq x0 x1 x2 => Sys2Proof.Machine.execPmovFromq x0 x1 x2 s
  | .faddF32 x0 x1 x2 x3 x4 => Sys2Proof.Machine.execFaddF32 x0 x1 x2 x3 x4 s
  | .fsubF32 x0 x1 x2 x3 x4 => Sys2Proof.Machine.execFsubF32 x0 x1 x2 x3 x4 s
  | .fmulF32 x0 x1 x2 x3 x4 => Sys2Proof.Machine.execFmulF32 x0 x1 x2 x3 x4 s
  | .ffmaF32 x0 x1 x2 x3 x4 => Sys2Proof.Machine.execFfmaF32 x0 x1 x2 x3 x4 s
  | .fminF32 x0 x1 x2 x3 x4 => Sys2Proof.Machine.execFminF32 x0 x1 x2 x3 x4 s
  | .fmaxF32 x0 x1 x2 x3 x4 => Sys2Proof.Machine.execFmaxF32 x0 x1 x2 x3 x4 s
  | .fdivF32 x0 x1 x2 x3 x4 => Sys2Proof.Machine.execFdivF32 x0 x1 x2 x3 x4 s
  | .fsqrtF32 x0 x1 x2 x3 x4 => Sys2Proof.Machine.execFsqrtF32 x0 x1 x2 x3 x4 s
  | .frcpaF32 x0 x1 x2 x3 => Sys2Proof.Machine.execFrcpaF32 x0 x1 x2 x3 s
  | .frsqaF32 x0 x1 x2 x3 => Sys2Proof.Machine.execFrsqaF32 x0 x1 x2 x3 s
  | .fsetpF32 x0 x1 x2 x3 x4 x5 => Sys2Proof.Machine.execFsetpF32 x0 x1 x2 x3 x4 x5 s
  | .fclassF32 x0 x1 x2 x3 => Sys2Proof.Machine.execFclassF32 x0 x1 x2 x3 s
  | .faddF64 x0 x1 x2 x3 x4 => Sys2Proof.Machine.execFaddF64 x0 x1 x2 x3 x4 s
  | .fsubF64 x0 x1 x2 x3 x4 => Sys2Proof.Machine.execFsubF64 x0 x1 x2 x3 x4 s
  | .fmulF64 x0 x1 x2 x3 x4 => Sys2Proof.Machine.execFmulF64 x0 x1 x2 x3 x4 s
  | .ffmaF64 x0 x1 x2 x3 x4 => Sys2Proof.Machine.execFfmaF64 x0 x1 x2 x3 x4 s
  | .fminF64 x0 x1 x2 x3 => Sys2Proof.Machine.execFminF64 x0 x1 x2 x3 s
  | .fmaxF64 x0 x1 x2 x3 => Sys2Proof.Machine.execFmaxF64 x0 x1 x2 x3 s
  | .fdivF64 x0 x1 x2 x3 x4 => Sys2Proof.Machine.execFdivF64 x0 x1 x2 x3 x4 s
  | .fsqrtF64 x0 x1 x2 x3 => Sys2Proof.Machine.execFsqrtF64 x0 x1 x2 x3 s
  | .frcpaF64 x0 x1 x2 => Sys2Proof.Machine.execFrcpaF64 x0 x1 x2 s
  | .frsqaF64 x0 x1 x2 => Sys2Proof.Machine.execFrsqaF64 x0 x1 x2 s
  | .fsetpF64 x0 x1 x2 x3 x4 => Sys2Proof.Machine.execFsetpF64 x0 x1 x2 x3 x4 s
  | .fclassF64 x0 x1 x2 => Sys2Proof.Machine.execFclassF64 x0 x1 x2 s
  | .cvt x0 x1 x2 x3 x4 => Sys2Proof.Machine.execCvt x0 x1 x2 x3 x4 s
  | .cvtblk x0 x1 x2 x3 x4 => Sys2Proof.Machine.execCvtblk x0 x1 x2 x3 x4 s
  | .cvtblkX x0 x1 x2 x3 x4 => Sys2Proof.Machine.execCvtblkX x0 x1 x2 x3 x4 s
  | .cvtsat x0 x1 x2 x3 x4 => Sys2Proof.Machine.execCvtsat x0 x1 x2 x3 x4 s
  | .faddF16x2 x0 x1 x2 x3 x4 => Sys2Proof.Machine.execFaddF16x2 x0 x1 x2 x3 x4 s
  | .fmulF16x2 x0 x1 x2 x3 x4 => Sys2Proof.Machine.execFmulF16x2 x0 x1 x2 x3 x4 s
  | .ffmaF16x2 x0 x1 x2 x3 x4 => Sys2Proof.Machine.execFfmaF16x2 x0 x1 x2 x3 x4 s
  | .fminF16x2 x0 x1 x2 x3 x4 => Sys2Proof.Machine.execFminF16x2 x0 x1 x2 x3 x4 s
  | .fmaxF16x2 x0 x1 x2 x3 x4 => Sys2Proof.Machine.execFmaxF16x2 x0 x1 x2 x3 x4 s
  | .fsetpF16x2 x0 x1 x2 x3 x4 x5 => Sys2Proof.Machine.execFsetpF16x2 x0 x1 x2 x3 x4 x5 s
  | .faddBf16x2 x0 x1 x2 x3 x4 => Sys2Proof.Machine.execFaddBf16x2 x0 x1 x2 x3 x4 s
  | .fmulBf16x2 x0 x1 x2 x3 x4 => Sys2Proof.Machine.execFmulBf16x2 x0 x1 x2 x3 x4 s
  | .ffmaBf16x2 x0 x1 x2 x3 x4 => Sys2Proof.Machine.execFfmaBf16x2 x0 x1 x2 x3 x4 s
  | .fminBf16x2 x0 x1 x2 x3 => Sys2Proof.Machine.execFminBf16x2 x0 x1 x2 x3 s
  | .fmaxBf16x2 x0 x1 x2 x3 => Sys2Proof.Machine.execFmaxBf16x2 x0 x1 x2 x3 s
  | .fsetpBf16x2 x0 x1 x2 x3 x4 x5 => Sys2Proof.Machine.execFsetpBf16x2 x0 x1 x2 x3 x4 x5 s
  | .vote x0 x1 x2 x3 => Sys2Proof.Machine.execVote x0 x1 x2 x3 s
  | .voteBallot x0 x1 x2 => Sys2Proof.Machine.execVoteBallot x0 x1 x2 s
  | .shfl x0 x1 x2 x3 x4 => Sys2Proof.Machine.execShfl x0 x1 x2 x3 x4 s
  | .vfromg x0 x1 x2 x3 => Sys2Proof.Machine.execVfromg x0 x1 x2 x3 s
  | .lsr x0 x1 x2 => Sys2Proof.Machine.execLsr x0 x1 x2 s
  | .dbr x0 x1 x2 => Sys2Proof.Machine.execDbr x0 x1 x2 s
  | .exitl x0 => Sys2Proof.Machine.execExitl x0 s
  | .ldg x0 x1 x2 x3 x4 => Sys2Proof.Machine.execLdg x0 x1 x2 x3 x4 s
  | .ldgh x0 x1 x2 x3 x4 => Sys2Proof.Machine.execLdgh x0 x1 x2 x3 x4 s
  | .ldgb x0 x1 x2 x3 x4 => Sys2Proof.Machine.execLdgb x0 x1 x2 x3 x4 s
  | .stg x0 x1 x2 x3 x4 => Sys2Proof.Machine.execStg x0 x1 x2 x3 x4 s
  | .stgh x0 x1 x2 x3 => Sys2Proof.Machine.execStgh x0 x1 x2 x3 s
  | .stgb x0 x1 x2 x3 => Sys2Proof.Machine.execStgb x0 x1 x2 x3 s
  | .lda x0 x1 x2 x3 x4 => Sys2Proof.Machine.execLda x0 x1 x2 x3 x4 s
  | .stl x0 x1 x2 x3 x4 => Sys2Proof.Machine.execStl x0 x1 x2 x3 x4 s
  | .lds x0 x1 x2 x3 x4 => Sys2Proof.Machine.execLds x0 x1 x2 x3 x4 s
  | .ldsh x0 x1 x2 x3 x4 => Sys2Proof.Machine.execLdsh x0 x1 x2 x3 x4 s
  | .ldsb x0 x1 x2 x3 x4 => Sys2Proof.Machine.execLdsb x0 x1 x2 x3 x4 s
  | .sts x0 x1 x2 x3 x4 => Sys2Proof.Machine.execSts x0 x1 x2 x3 x4 s
  | .stsh x0 x1 x2 x3 => Sys2Proof.Machine.execStsh x0 x1 x2 x3 s
  | .stsb x0 x1 x2 x3 => Sys2Proof.Machine.execStsb x0 x1 x2 x3 s
  | .gld x0 x1 x2 x3 x4 => Sys2Proof.Machine.execGld x0 x1 x2 x3 x4 s
  | .cctl x0 x1 x2 => Sys2Proof.Machine.execCctl x0 x1 x2 s
  | .atomAdd x0 x1 x2 x3 x4 x5 x6 => Sys2Proof.Machine.execAtomAdd x0 x1 x2 x3 x4 x5 x6 s
  | .atomFadd x0 x1 x2 x3 x4 x5 x6 x7 => Sys2Proof.Machine.execAtomFadd x0 x1 x2 x3 x4 x5 x6 x7 s
  | .atomMin x0 x1 x2 x3 x4 x5 x6 x7 => Sys2Proof.Machine.execAtomMin x0 x1 x2 x3 x4 x5 x6 x7 s
  | .atomMax x0 x1 x2 x3 x4 x5 x6 x7 => Sys2Proof.Machine.execAtomMax x0 x1 x2 x3 x4 x5 x6 x7 s
  | .atomBit x0 x1 x2 x3 x4 x5 x6 => Sys2Proof.Machine.execAtomBit x0 x1 x2 x3 x4 x5 x6 s
  | .atomExch x0 x1 x2 x3 x4 x5 => Sys2Proof.Machine.execAtomExch x0 x1 x2 x3 x4 x5 s
  | .cas x0 x1 x2 x3 x4 x5 => Sys2Proof.Machine.execCas x0 x1 x2 x3 x4 x5 s
  | .atomsc x0 x1 x2 x3 x4 x5 => Sys2Proof.Machine.execAtomsc x0 x1 x2 x3 x4 x5 s
  | .rld x0 x1 x2 x3 x4 => Sys2Proof.Machine.execRld x0 x1 x2 x3 x4 s
  | .rst x0 x1 x2 x3 x4 => Sys2Proof.Machine.execRst x0 x1 x2 x3 x4 s
  | .ratom x0 x1 x2 x3 x4 => Sys2Proof.Machine.execRatom x0 x1 x2 x3 x4 s
  | .rldv x0 x1 x2 x3 x4 => Sys2Proof.Machine.execRldv x0 x1 x2 x3 x4 s
  | .rstv x0 x1 x2 x3 x4 => Sys2Proof.Machine.execRstv x0 x1 x2 x3 x4 s
  | .ratomv x0 x1 x2 x3 x4 => Sys2Proof.Machine.execRatomv x0 x1 x2 x3 x4 s
  | .clauseFetch x0 x1 => Sys2Proof.Machine.execClauseFetch x0 x1 s
  | .clauseStart x0 x1 => Sys2Proof.Machine.execClauseStart x0 x1 s
  | .pausePenaltyEnd x0 x1 => Sys2Proof.Machine.execPausePenaltyEnd x0 x1 s
  | .fragmentUrgent x0 x1 => Sys2Proof.Machine.execFragmentUrgent x0 x1 s
  | .memoryAccessComplete x0 => Sys2Proof.Machine.execMemoryAccessComplete x0 s
  | .fdivFsqrtComplete x0 => Sys2Proof.Machine.execFdivFsqrtComplete x0 s
  | .mmagLatchComplete x0 => Sys2Proof.Machine.execMmagLatchComplete x0 s
  | .matrixInstrComplete x0 => Sys2Proof.Machine.execMatrixInstrComplete x0 s
  | .gangEnd x0 => Sys2Proof.Machine.execGangEnd x0 s
  | .gfuseComplete x0 x1 => Sys2Proof.Machine.execGfuseComplete x0 x1 s
  | .launchEligible x0 => Sys2Proof.Machine.execLaunchEligible x0 s
  | .launchCounterRetry x0 => Sys2Proof.Machine.execLaunchCounterRetry x0 s
  | .workgroupPlace x0 x1 => Sys2Proof.Machine.execWorkgroupPlace x0 x1 s
  | .lanternPlace x0 x1 => Sys2Proof.Machine.execLanternPlace x0 x1 s
  | .launchComplete x0 => Sys2Proof.Machine.execLaunchComplete x0 s
  | .completionSignalRetry x0 => Sys2Proof.Machine.execCompletionSignalRetry x0 s
  | .signalAddRetry x0 => Sys2Proof.Machine.execSignalAddRetry x0 s
  | .waitgeSatisfied x0 x1 => Sys2Proof.Machine.execWaitgeSatisfied x0 x1 s
  | .copyChunkPerformed x0 x1 => Sys2Proof.Machine.execCopyChunkPerformed x0 x1 s
  | .copyChunkFault x0 x1 => Sys2Proof.Machine.execCopyChunkFault x0 x1 s
  | .gldStallTimeout x0 x1 => Sys2Proof.Machine.execGldStallTimeout x0 x1 s
  | .gwaitStallTimeout x0 x1 => Sys2Proof.Machine.execGwaitStallTimeout x0 x1 s
  | .stepCommit x0 => Sys2Proof.Machine.execStepCommit x0 s
  | .faceStripRead x0 x1 => Sys2Proof.Machine.execFaceStripRead x0 x1 s
  | .faceSendDone x0 x1 => Sys2Proof.Machine.execFaceSendDone x0 x1 s
  | .ghostRegionFilled x0 x1 x2 => Sys2Proof.Machine.execGhostRegionFilled x0 x1 x2 s
  | .penumbraExchange x0 => Sys2Proof.Machine.execPenumbraExchange x0 s
  | .penumbraFaultRetry x0 x1 => Sys2Proof.Machine.execPenumbraFaultRetry x0 x1 s
  | .bindingEnded x0 => Sys2Proof.Machine.execBindingEnded x0 s
  | .executorRunStart x0 => Sys2Proof.Machine.execExecutorRunStart x0 s
  | .executorClauseFetch x0 => Sys2Proof.Machine.execExecutorClauseFetch x0 s
  | .executorRefreshRetry x0 => Sys2Proof.Machine.execExecutorRefreshRetry x0 s
  | .executorReleaseAcked x0 => Sys2Proof.Machine.execExecutorReleaseAcked x0 s
  | .bankRefresh x0 x1 => Sys2Proof.Machine.execBankRefresh x0 x1 s
  | .refreshRetryReissue x0 => Sys2Proof.Machine.execRefreshRetryReissue x0 s
  | .translationRequest x0 x1 x2 x3 => Sys2Proof.Machine.execTranslationRequest x0 x1 x2 x3 s
  | .ctxCreate x0 x1 x2 x3 => Sys2Proof.Machine.execCtxCreate x0 x1 x2 x3 s
  | .ctxDestroy x0 x1 x2 x3 => Sys2Proof.Machine.execCtxDestroy x0 x1 x2 x3 s
  | .tencoreWrite x0 x1 x2 => Sys2Proof.Machine.execTencoreWrite x0 x1 x2 s
  | .tencfgWrite x0 x1 => Sys2Proof.Machine.execTencfgWrite x0 x1 s
  | .registerWrite x0 x1 => Sys2Proof.Machine.execRegisterWrite x0 x1 s
  | .fqctlWrite x0 x1 => Sys2Proof.Machine.execFqctlWrite x0 x1 s
  | .fqheadWrite x0 x1 => Sys2Proof.Machine.execFqheadWrite x0 x1 s
  | .profctlCommit x0 x1 => Sys2Proof.Machine.execProfctlCommit x0 x1 s
  | .unmapPage x0 x1 => Sys2Proof.Machine.execUnmapPage x0 x1 s
  | .updatePage x0 x1 => Sys2Proof.Machine.execUpdatePage x0 x1 s
  | .migratePage x0 x1 => Sys2Proof.Machine.execMigratePage x0 x1 s
  | .splitPage x0 x1 => Sys2Proof.Machine.execSplitPage x0 x1 s
  | .collapsePage x0 x1 => Sys2Proof.Machine.execCollapsePage x0 x1 s
  | .scrubFrame x0 x1 => Sys2Proof.Machine.execScrubFrame x0 x1 s
  | .leaseWaitEnd x0 => Sys2Proof.Machine.execLeaseWaitEnd x0 s
  | .migrateCopyDone x0 => Sys2Proof.Machine.execMigrateCopyDone x0 s
  | .scrubDone x0 => Sys2Proof.Machine.execScrubDone x0 s
  | .collapseRequestReceive x0 => Sys2Proof.Machine.execCollapseRequestReceive x0 s
  | .collapseReplyReceive x0 x1 => Sys2Proof.Machine.execCollapseReplyReceive x0 x1 s
  | .collapseTimeout x0 => Sys2Proof.Machine.execCollapseTimeout x0 s
  | .openSend x0 => Sys2Proof.Machine.execOpenSend x0 s
  | .openReceive x0 => Sys2Proof.Machine.execOpenReceive x0 s
  | .closeSend x0 => Sys2Proof.Machine.execCloseSend x0 s
  | .closeReceive x0 => Sys2Proof.Machine.execCloseReceive x0 s
  | .lgcmdStart x0 x1 x2 => Sys2Proof.Machine.execLgcmdStart x0 x1 x2 s
  | .dieTakeOut x0 => Sys2Proof.Machine.execDieTakeOut x0 s
  | .dieReturn x0 => Sys2Proof.Machine.execDieReturn x0 s
  | .getCap => Sys2Proof.Machine.execGetCap s
  | .getSensors => Sys2Proof.Machine.execGetSensors s
  | .setCap x0 => Sys2Proof.Machine.execSetCap x0 s
  | .getErrors => Sys2Proof.Machine.execGetErrors s
  | .dieService x0 x1 => Sys2Proof.Machine.execDieService x0 x1 s
  | .fwUpdate x0 => Sys2Proof.Machine.execFwUpdate x0 s
  | .basermyoUnknownCommand x0 x1 => Sys2Proof.Machine.execBasermyoUnknownCommand x0 x1 s
  | .coldReset => Sys2Proof.Machine.execColdReset s
  | .spdmRequest x0 x1 => Sys2Proof.Machine.execSpdmRequest x0 x1 s
  | .linkRekey x0 x1 => Sys2Proof.Machine.execLinkRekey x0 x1 s
  | .oldKeyErase x0 => Sys2Proof.Machine.execOldKeyErase x0 s
  | .ibcelLinkTrain x0 x1 => Sys2Proof.Machine.execIbcelLinkTrain x0 x1 s
  | .hostLinkTrain x0 x1 => Sys2Proof.Machine.execHostLinkTrain x0 x1 s
  | .planeFailure x0 => Sys2Proof.Machine.execPlaneFailure x0 s
  | .flitCheckFailure x0 => Sys2Proof.Machine.execFlitCheckFailure x0 s
  | .lnkFlit x0 x1 => Sys2Proof.Machine.execLnkFlit x0 x1 s
  | .flitBadType x0 x1 => Sys2Proof.Machine.execFlitBadType x0 x1 s
  | .wrFlit x0 x1 => Sys2Proof.Machine.execWrFlit x0 x1 s
  | .gwrFlit x0 x1 => Sys2Proof.Machine.execGwrFlit x0 x1 s
  | .writeCounted x0 => Sys2Proof.Machine.execWriteCounted x0 s
  | .rdFlit x0 x1 => Sys2Proof.Machine.execRdFlit x0 x1 s
  | .rdrFlit x0 x1 => Sys2Proof.Machine.execRdrFlit x0 x1 s
  | .atomFlit x0 x1 => Sys2Proof.Machine.execAtomFlit x0 x1 s
  | .atomrFlit x0 x1 => Sys2Proof.Machine.execAtomrFlit x0 x1 s
  | .relFlit x0 x1 => Sys2Proof.Machine.execRelFlit x0 x1 s
  | .grelFlit x0 x1 => Sys2Proof.Machine.execGrelFlit x0 x1 s
  | .ntcFlit x0 x1 => Sys2Proof.Machine.execNtcFlit x0 x1 s
  | .rsresetRequest x0 x1 => Sys2Proof.Machine.execRsresetRequest x0 x1 s
  | .ctlaFlit x0 x1 => Sys2Proof.Machine.execCtlaFlit x0 x1 s
  | .flagTimeout x0 x1 => Sys2Proof.Machine.execFlagTimeout x0 x1 s
  | .remoteRequestTimeout x0 => Sys2Proof.Machine.execRemoteRequestTimeout x0 s
  | .rsresetTimeout x0 x1 => Sys2Proof.Machine.execRsresetTimeout x0 x1 s
  | .hostRead x0 x1 x2 => Sys2Proof.Machine.execHostRead x0 x1 x2 s
  | .hostWrite x0 x1 x2 => Sys2Proof.Machine.execHostWrite x0 x1 x2 s
  | .birsp x0 x1 => Sys2Proof.Machine.execBirsp x0 x1 s
  | .externalSnoop x0 x1 => Sys2Proof.Machine.execExternalSnoop x0 x1 s
  | .cxlFillResponse x0 x1 x2 => Sys2Proof.Machine.execCxlFillResponse x0 x1 x2 s
  | .cxlRequestTimeout x0 => Sys2Proof.Machine.execCxlRequestTimeout x0 s
  | .poolPortFailure x0 => Sys2Proof.Machine.execPoolPortFailure x0 s
  | .thermalThrottleStep x0 => Sys2Proof.Machine.execThermalThrottleStep x0 s
  | .thermalTrip x0 => Sys2Proof.Machine.execThermalTrip x0 s
  | .dieLoss x0 => Sys2Proof.Machine.execDieLoss x0 s
  | .preemptSave x0 => Sys2Proof.Machine.execPreemptSave x0 s
  | .ctxsaveDone x0 => Sys2Proof.Machine.execCtxsaveDone x0 s
  | .rsresetHoldoffEnd x0 x1 => Sys2Proof.Machine.execRsresetHoldoffEnd x0 x1 s
  | .powerCapEnforce => Sys2Proof.Machine.execPowerCapEnforce s

end Sys2Proof.Machine
end

