-- ==== Sys2Proof/Machine/Schedule.lean ====
section
/-! DEFINITION. Which agent acts next: readiness, priority, age and bypass (R101-R103), the events that the state holds
ready, and the default policy (log 1). -/
namespace Sys2Proof.Machine

/-! Fragments (R100-R103). -/

/-- The word a fragment stands at: none unless it is READY in a started clause of a gang that runs (R101). -/
def fragWord (g : Gang) (f : Frag) : Option B32 :=
  if f.st == .ready && g.ending.isNone && !g.held then
    f.clause.bind fun c => if c.started && !c.stale then c.words[(f.pc - c.hdr).toNat / 4 - 1]? else none
  else none
/-- The pipe of a word (R82, R100): true for the group pipe. -/
def groupPipe (w : B32) : Bool := w.getLsbD 31
/-- Effective priority, offset by 16 (R102). -/
def effPrio (g : Gang) (f : Frag) : Nat := if f.penalty = 0 then g.prio + 16 else g.prio
/-- A fragment at a word: its names, its gang, its record and its word. -/
structure Cand where
  gid : Nat
  e : Nat
  g : Gang
  f : Frag
  w : B32
/-- A fragment that stands at a word. -/
def candAt (s : State) (gid e : Nat) : Option Cand :=
  (smFind s.gangs gid).bind fun g => (smFind g.frags e).bind fun f => (fragWord g f).map fun w => ⟨gid, e, g, f, w⟩
/-- Every fragment that stands at a word. -/
def cands (s : State) : List Cand :=
  s.gangs.flatMap fun p => p.2.frags.filterMap fun q => (fragWord p.2 q.2).map fun w => ⟨p.1, q.1, p.2, q.2, w⟩
/-- A fragment's word runs: the decoded instruction, or the word is rejected (R85, R90). -/
def Cand.run (x : Cand) (s : State) : Host.Outcome State Fault Refusal :=
  let s := { s with cur := .frag x.gid x.e }
  match decodeWord x.w.toNat with
  | .ok i => exec i s
  | .error _ => rejectWord x.w s
/-- The fragment has issued its word: it has moved, or its gang ends. A word that an interlock or a full unit holds back
leaves it where it is (R78, R101). -/
def Cand.moved (x : Cand) (t : State) : Bool :=
  match smFind t.gangs x.gid with
  | none => true
  | some g => g.ending.isSome || smFind g.frags x.e != some x.f
/-- The fragment is ready (R101): nothing holds its word back. -/
def Cand.ready (x : Cand) (s : State) : Bool :=
  match x.run s with
  | .next t => x.moved t
  | _ => true
/-- Both would issue on one pipe of one quarter. -/
def samePipe (x y : Cand) : Bool := x.g.core == y.g.core && x.g.quarter == y.g.quarter && groupPipe x.w == groupPipe y.w
/-- The age order, ties to the lower slot and entry (R102). -/
def older (x y : Cand) : Bool :=
  decide (x.f.age < y.f.age) || (x.f.age == y.f.age && (decide (x.g.slot < y.g.slot) || (x.g.slot == y.g.slot && decide (x.e < y.e))))
/-- A fragment that has been bypassed 32 times is urgent (R103). -/
def Frag.isUrgent (f : Frag) : Bool := f.urgent || decide (32 ≤ f.bypass)
/-- `x` is issued rather than `y` on their pipe (R102, R103). -/
def beats (x y : Cand) : Bool :=
  if x.f.isUrgent || y.f.isUrgent then x.f.isUrgent && (!y.f.isUrgent || older x y)
  else decide (effPrio y.g y.f < effPrio x.g x.f) || (effPrio x.g x.f == effPrio y.g y.f && older x y)
/-- No ready fragment of its pipe is to be issued rather than `x`. -/
def isChoice (s : State) (x : Cand) : Bool := (cands s).all fun y => !(samePipe x y && beats y x && y.ready s)
/-- The pipes' choices; of those the one that has waited longest. -/
def chosen (s : State) : Option Cand :=
  let best := (cands s).filter fun x => isChoice s x && x.ready s
  best.find? fun x => best.all fun y => x.f.age ≤ y.f.age
/-- A fragment's turn: it issues if it is its pipe's choice (R102, R103). -/
def runFrag (gid e : Nat) (s : State) : Host.Outcome State Fault Refusal :=
  match candAt s gid e with
  | none => .fault .noWord
  | some x => if isChoice s x then x.run s else .next s
/-- The fragment that has issued in a step from `s` to `t`. -/
def issuer (s t : State) : Option Cand :=
  match t.cur with
  | .frag gid e => (candAt s gid e).filter (·.moved t)
  | _ => none
/-- A fragment's age and bypass count after a step (R102, R103). They start anew when it issues, stands at another word or was
not ready; a younger fragment that issues on its pipe bypasses it. -/
def ageFrag (s t : State) (gid : Nat) (g : Gang) (e : Nat) (f : Frag) : Frag :=
  let anew := { f with bypass := 0, urgent := false, age := t.turn }
  match candAt s gid e with
  | none => anew
  | some y =>
    let x := issuer s t
    if x.any (fun x => x.gid == gid && x.e == e) || fragWord g f != some y.w || f.pc != y.f.pc || !y.ready s then anew
    else if x.any (fun x => samePipe x y && older y x) then { f with bypass := f.bypass + 1 }
    else f
/-- Every fragment's age and bypass count after a step. -/
def ageAll (s t : State) : State :=
  { t with gangs := smMap (fun gid g => { g with frags := smMap (ageFrag s t gid g) g.frags }) t.gangs }
def aged (s : State) : Host.Outcome State Fault Refusal → Host.Outcome State Fault Refusal
  | .next t => .next (ageAll s t)
  | r => r
/-- The word a run issues next (R287). -/
def runWord (x : Run) : Option B32 :=
  match x.wait with
  | .going => x.clause.bind fun c => c.words[(x.pc - c.hdr).toNat / 4 - 1]?
  | _ => none
/-- An executor run issues its next word. -/
def runExecutor (r : Nat) (s : State) : Host.Outcome State Fault Refusal :=
  match (smFind s.runs r).bind runWord with
  | none => .fault .noWord
  | some w =>
    let s := { s with cur := .run r }
    match decodeWord w.toNat with
    | .ok i => exec i s
    | .error _ => rejectWord w s
/-- An issuer's turn. -/
def runTurn (a : Agent) (s : State) : Host.Outcome State Fault Refusal :=
  match a with
  | .none => .fault .noWord
  | .frag gid e => runFrag gid e s
  | .run r => runExecutor r s

/-! Events that the state holds (none comes from outside). -/

def fragEvents (s : State) : List (State → Res) :=
  s.gangs.flatMap fun p => execGangEnd p.1 :: p.2.frags.flatMap fun q =>
    [execClauseFetch p.1 q.1, execClauseStart p.1 q.1, execPausePenaltyEnd p.1 q.1, execFragmentUrgent p.1 q.1, execWaitgeSatisfied p.1 q.1,
      execGldStallTimeout p.1 q.1, execGwaitStallTimeout p.1 q.1, execRsresetTimeout p.1 q.1, execRsresetHoldoffEnd p.1 q.1,
      fun s => .next (retryAct p.1 q.1 s)]
def fuseEvents (s : State) : List (State → Res) :=
  let gs := s.gangs.filter fun p => List.any p.2.frags fun q => q.2.st == .fuseWait
  gs.flatMap fun p => gs.map fun q => execGfuseComplete p.1 q.1
/-- A LAUNCH that has issued and waits is tried again. -/
def launchWaits (k : Nat) (s : State) : State :=
  match smFind s.ops k with
  | some o => if o.kind = .launch ∧ !o.parked then launchAgain k s else s
  | none => s
def opEvents (s : State) : List (State → Res) :=
  s.ops.flatMap fun p =>
    [execMemoryAccessComplete p.1, execFdivFsqrtComplete p.1, execMmagLatchComplete p.1, execMatrixInstrComplete p.1, execRefreshRetryReissue p.1,
      fun s => .next (launchWaits p.1 s)]
/-- Placements that the dispatcher's order offers now (R50, R60, R375, R376). -/
def placeEvents (s : State) : List (State → Res) :=
  let items := (s.images.map fun p => PlaceItem.saved p.1)
    ++ (s.launches.flatMap fun p => p.2.again.map fun n => PlaceItem.again p.1 n)
    ++ s.launches.map fun p => PlaceItem.fresh p.1
  (s.lanterns.flatMap fun p => match findFit s (s.tenOf p.2.ctx) (hNeeds p.2.hdr) 1 with
      | some (c :: _) => [execLanternPlace p.1 c]
      | _ => [])
    ++ items.map fun w => execWorkgroupPlace w ((itemCores s w).getD [])
def launchEvents (s : State) : List (State → Res) :=
  (s.launches.flatMap fun p => [execLaunchEligible p.1, execLaunchCounterRetry p.1, execLaunchComplete p.1, execCompletionSignalRetry p.1])
    ++ s.sigs.map fun p => execSignalAddRetry p.1
/-- The first chunks of each copy that are not yet performed (R242). -/
def copyEvents (s : State) : List (State → Res) :=
  s.copies.flatMap fun p => (List.range 64).flatMap fun j =>
    [execCopyChunkPerformed p.1 (p.2.low + j), execCopyChunkFault p.1 (p.2.low + j)]
def gridEvents (s : State) : List (State → Res) :=
  s.binds.flatMap fun p => execStepCommit p.1 :: execBindingEnded p.1 :: p.2.faces.flatMap fun q =>
    [execPenumbraExchange (.search p.1 q.1), execFaceStripRead p.1 q.1, execFaceSendDone p.1 q.1, execPenumbraFaultRetry p.1 q.1,
      execPenumbraFaultRetry p.1 6]
      ++ (List.range 9).map fun r => execGhostRegionFilled p.1 q.1 r
def runEvents (s : State) : List (State → Res) :=
  s.runs.flatMap fun p =>
    [execExecutorRunStart p.1, execExecutorClauseFetch p.1, execExecutorRefreshRetry p.1, execExecutorReleaseAcked p.1]
def commandEvents (s : State) : List (State → Res) :=
  (s.pf.slots.flatMap fun p => let k := BitVec.ofNat 4 p.1
    [execLeaseWaitEnd k, execMigrateCopyDone k, execScrubDone k, execCollapseTimeout k])
    ++ s.mem.twins.map fun p => execCollapseRequestReceive p.2.m
def wireEvents (s : State) : List (State → Res) :=
  (s.fab.writes.map fun p => execWriteCounted p.1)
    ++ (s.fab.arr.flatMap fun p => p.2.slots.map fun q => execFlagTimeout p.1 q.1)
    ++ (s.fab.reqs.map fun p => execRemoteRequestTimeout p.1)
    ++ (s.fab.ports.map fun p => execOldKeyErase p.1)
    ++ (s.host.reqs.map fun p => execCxlRequestTimeout p.1)
    ++ s.host.pend.map fun p s => .next (hostServe p.1 s)
def ctxEvents (s : State) : List (State → Res) :=
  execPowerCapEnforce :: (fun s => .next (lgAgain s)) :: ((s.plat.temps.map fun p => execThermalTrip p.1)
    ++ (s.plat.supply.map fun p => execThermalTrip p.1)) ++ s.ctxs.flatMap fun p => [execPreemptSave p.1, execCtxsaveDone p.1] ++ [loseDoomed p.1]
/-- Every event that the state itself may be ready for, as its meaning: that of its constructor of Instr, the loss of a
context that has met a lost die, or a further try of what has been accepted and waits. -/
def candidates (s : State) : List (State → Res) :=
  fragEvents s ++ fuseEvents s ++ opEvents s ++ placeEvents s ++ launchEvents s ++ copyEvents s ++ gridEvents s ++ runEvents s
    ++ commandEvents s ++ wireEvents s ++ ctxEvents s
/-- What an event makes of the state, where it changes anything. -/
def fires (s : State) (f : State → Res) : Option State :=
  match f s with
  | .next t => if t = s then none else some t
  | _ => none
/-- The first event that changes anything, beginning at a place that moves on with every step. -/
def runEvent (s : State) : Option State :=
  let l := candidates s
  let n := s.turn % max 1 l.length
  (l.drop n ++ l.take n).findSome? (fires s)

/-! The default policy (log 1): words of fragments, words of runs and events take turns; one tick passes with each. -/

def ofFrag (s : State) : Option (Host.Outcome State Fault Refusal) := (chosen s).map fun x => runFrag x.gid x.e s
def ofRun (s : State) : Option (Host.Outcome State Fault Refusal) :=
  let rs := smKeys (fun _ x => (runWord x).isSome) s.runs
  (rs[s.turn / 3 % max 1 rs.length]?).map fun r => runExecutor r s
def ofEvent (s : State) : Option (Host.Outcome State Fault Refusal) := (runEvent { s with cur := .none }).map .next
/-- Who acts where the inbox says nothing. -/
def byPolicy (s : State) : Host.Outcome State Fault Refusal :=
  let order := match s.turn % 3 with
    | 0 => [ofFrag, ofRun, ofEvent]
    | 1 => [ofEvent, ofFrag, ofRun]
    | _ => [ofRun, ofEvent, ofFrag]
  (order.findSome? fun f => f s).getD (.next s)
/-- One input of the inbox. A word has no issuer of its own. -/
def perform (x : Input) (s : State) : Host.Outcome State Fault Refusal :=
  match x with
  | .turn a => runTurn a s
  | .ev i => exec i { s with cur := .none }
  | .badRead gid e mask => .next (match candAt s gid e with
    | some x => badRead { s with cur := .none } gid e mask x.w
    | none => s)
  | .evictL1 k => .next (refit (s.setMem { cleanL1 s.mem k with l1 := smDel s.mem.l1 k }))
  | .evictL2 k => .next (match evict s k with | .ok s => s | .error s => s)
  | x => .next (outside x { s with cur := .none })

/-! A word placed for one step (log 9). -/

/-- The gang that a placed word is issued by: a privileged context's only gang, one ready fragment of 32 live lanes, with
every lane register, tile and accumulator that a gang can have. -/
def loneGang (wg : Nat) (w : B32) : Gang :=
  let c : Clause := ⟨0x1000, 0xa0ff0000, [w], true, false⟩
  let f : Frag := ⟨.ready, 0xff, 0x1004, 0, false, 0x1000, some c, 0, 0, false, 0, .none⟩
  ⟨0, 0, none, some wg, 0, true, 0, 0, 0, 0, 0, 0, 64, 16, 4, 0, 4096, false, 0, [], 0, [], [], [], 0, 0, 0, 1, [], [], [], [],
    none, 0, 0xffffffff, 0, 0xffffffff, [], [], [(0, f)], none, false⟩
/-- Place a word as the next one to issue. -/
def placeWord (w : B32) (s : State) : State :=
  let wg := s.next
  let rec_ : Workgroup := ⟨0, 0, 0, 0, 0, 0, 4096, 4096, [], [wg + 1], 1, false, false, [], []⟩
  { s with
    inbox := [.turn (.frag (wg + 1) 0)]
    next := wg + 2
    ctxs := smPut s.ctxs 0 (Ctx.fresh 0 true 0x100001)
    wgs := smPut s.wgs wg rec_
    gangs := smPut s.gangs (wg + 1) (loneGang wg w) }

end Sys2Proof.Machine
end

