-- ==== Sys2Proof/Machine/Step.lean ====
section
/-! DEFINITION. One step: the next input of the inbox, or what the default policy chooses (log 1); and the placement of a
word where the next step runs it. -/
namespace Sys2Proof.Machine

/-- The act of one step: the next input of the inbox, or what the policy chooses. -/
def act (s : State) : Host.Outcome State Fault Refusal :=
  match s.inbox with
  | x :: l => perform x { s with inbox := l, turn := s.turn + 1 }
  | [] => byPolicy { s with turn := s.turn + 1, now := s.now + 1 }
/-- One step: the act, then the ages of the fragments (R102, R103). -/
def step (s : State) : Host.Outcome State Fault Refusal := aged s (act s)

/-- A word stored where the next step fetches its next instruction (log 9): the one word of a fetched and started
clause of a ready fragment, whose turn stands first in the inbox. -/
def State.withFetchWord (s : State) (nbits w : Nat) : State := placeWord (BitVec.ofNat 32 (w % 2 ^ nbits)) s

end Sys2Proof.Machine
end

