-- ==== Sys2Proof/Safety.lean ====
section
/-! DEFINITION. What counts as a safe run, and the words the statements are written in: when an issuer issues a word, what
the state is once it has moved past it, and the results of the arithmetic words as the spec's tables give them. -/
namespace Sys2Proof
open Sys2Proof.Machine

/-- The frames' canonical form (MEMORY): the invariant that every step keeps. -/
def Canonical (s : State) : Prop := Memory.wf s.mem.frames = true
/-- A step that neither faults nor is refused. -/
def Goes (s : State) : Prop := ∃ t, step s = .next t
/-- A run of n steps that never stops. -/
def SafeFor (n : Nat) (s : State) : Prop := ∃ t, core.run n s = .next t

/-! Floating values. -/

/-- The value of a finite encoding's magnitude (R119 to R121); one step above the largest, the value that the same exponent
and fraction would have. -/
def fpVal (f : Fmt) (m : Nat) : ℚ :=
  if f.expOf m = 0 then f.fracOf m * 2 ^ (f.emin - f.fw)
  else (2 ^ f.fw + f.fracOf m) * 2 ^ ((f.expOf m : ℤ) - f.bias - f.fw)
/-- The value of a finite encoding, its sign included. -/
def fpReal (f : Fmt) (x : Nat) : ℚ := if f.neg x then -fpVal f (f.mag x) else fpVal f (f.mag x)
/-- The rational that an exact value stands for. -/
def exVal (x : Ex) : ℚ := x.toInt / x.den
def fpFinite (f : Fmt) (x : Nat) : Prop := isNaN f x = false ∧ isInf f x = false

/-- R131: a magnitude v strictly between two neighbours of a grid goes to the upper one: to nearest, or on a tie from an odd
step; never; where positive; where negative. -/
def roundsUp (mode : Nat) (neg odd : Bool) (v lo hi : ℚ) : Prop :=
  match mode with
  | 0 => lo + hi < 2 * v ∨ (2 * v = lo + hi ∧ odd = true)
  | 1 => False
  | 2 => neg = false
  | _ => neg = true
/-- R131: tininess after rounding: at precision p and an unbounded exponent, v stays below the smallest normal magnitude. -/
def tinyAt (f : Fmt) (p mode : Nat) (neg : Bool) (v : ℚ) : Prop :=
  let least : ℚ := 2 ^ f.emin
  let below := least - 2 ^ (f.emin - p)
  v < least ∧ ¬(below < v ∧ roundsUp mode neg true v below least)
/-- R131's table of overflow: the largest finite magnitude, or infinity, which e4m3 replaces by 0x7f (R121). -/
def overflowTo (f : Fmt) (mode : Nat) (neg sat : Bool) : Nat :=
  f.sgn neg + if sat = true ∨ mode = 1 ∨ (mode = 2 ∧ neg = true) ∨ (mode = 3 ∧ neg = false) then f.maxMag
    else if f.e4 then f.signBit - 1 else f.infMag

/-- `r` is the encoding, with its flags, that R131 gives a nonzero exact value at precision p: where it is tiny and flushed,
a zero with UF and IX; where a magnitude of the grid, that, with no flag; between two neighbours of the grid, the one its
mode rounds to, with IX, and UF where it is tiny; and past the grid's top, R131's overflow with OF and IX. The grid is every
magnitude up to the largest finite one, or of lower precision, every k-th. -/
structure Rounds (f : Fmt) (p mode : Nat) (sat ftz : Bool) (x : Ex) (r : Nat × Flags) : Prop where
  flushed : ftz = true → tinyAt f p mode x.neg |exVal x| → r = (f.sgn x.neg, fUF ||| fIX)
  exact_ : ∀ m, m ≤ f.maxMag → 2 ^ (f.fw + 1 - p) ∣ m → |exVal x| = fpVal f m →
    ¬(ftz = true ∧ tinyAt f p mode x.neg |exVal x|) → r = (f.sgn x.neg + m, 0)
  between : ∀ m, m ≤ f.maxMag → 2 ^ (f.fw + 1 - p) ∣ m → fpVal f m < |exVal x| → |exVal x| < fpVal f (m + 2 ^ (f.fw + 1 - p)) →
    let tiny := tinyAt f p mode x.neg |exVal x|
    let goesTo := fun n : Nat => if n ≤ f.maxMag then
        r.1 = f.sgn x.neg + n ∧ (tiny → r.2 = fIX ||| fUF) ∧ (¬tiny → r.2 = fIX)
      else r = (overflowTo f mode x.neg sat, fOF ||| fIX)
    let up := roundsUp mode x.neg (decide (m / 2 ^ (f.fw + 1 - p) % 2 = 1)) |exVal x| (fpVal f m)
      (fpVal f (m + 2 ^ (f.fw + 1 - p)))
    ¬(ftz = true ∧ tiny) → (up → goesTo (m + 2 ^ (f.fw + 1 - p))) ∧ (¬up → goesTo m)
  past : (∀ m, m ≤ f.maxMag → 2 ^ (f.fw + 1 - p) ∣ m → fpVal f (m + 2 ^ (f.fw + 1 - p)) ≤ |exVal x|) →
    r = (overflowTo f mode x.neg sat, fOF ||| fIX)

/-! Issuers. -/

/-- A fragment issues a word that passes the encoding checks of R83 to R85 and R90. -/
structure Issues (i : Instr) (s : State) (u : Iss) : Prop where
  issuer : s.cur = .frag u.gid u.e
  gang : smFind s.gangs u.gid = some u.g
  frag : smFind u.g.frags u.e = some u.f
  word : u.word = BitVec.ofNat 32 (encode i)
  legal : legal i = true
  fits : fits u.g.regs u.g.tilesN u.g.accsN i = true
/-- An executor run issues a word of its subset that passes its encoding checks (R287, R292). -/
structure RunIssues (i : Instr) (s : State) (r : Nat) (x : Run) : Prop where
  issuer : s.cur = .run r
  run : smFind s.runs r = some x
  legal : legal (runForm i) = true
  fits : fits 32 0 0 i = true
/-- The state in which the issuing fragment's gang has become `g`, which keeps the fragments, and the fragment has moved
past its word (R71): nothing else is changed. -/
def moved (u : Iss) (g : Gang) (s : State) : State :=
  s.setGang u.gid { g with frags := smPut u.g.frags u.e u.f.step }
/-- The state in which an executor run has become `x` and has moved past its word. -/
def movedRun (r : Nat) (x : Run) (s : State) : State := { s with runs := smPut s.runs r x.step }
/-- The state in which one fragment of a gang has become `f` (the gang and the fragment are there). -/
def withFrag (s : State) (gid : Nat) (g : Gang) (e : Nat) (f : Frag) : State :=
  s.setGang gid { g with frags := smPut g.frags e f }

/-- The words that ask for the context's privilege mark (R93). -/
def privileged : Instr → Bool
  | .fresolve .. | .rsreset .. | .ctxsave .. | .ctxload .. => true
  | _ => false
/-- A long-latency group word whose flag, engine or copy unit has no room for it (R78, R243, R260). -/
def heldBack (i : Instr) (s : State) (u : Iss) : Bool :=
  match i with
  | .gldk .. | .launchG .. => u.full false
  | .gstk .. => u.full true
  | .tcopy .. | .tcopyg .. => copyFull s u.g.core
  | .mma .. | .mmag .. | .mldt .. | .mstt .. | .mza .. | .mrdaTile .. | .mrdaScratch .. => u.full true || engineFull s u.g.core
  | _ => false
/-- The gang's context is privileged (R39, R93). -/
def PrivCtx (s : State) (g : Gang) : Prop := ∃ c, smFind s.ctxs g.ctx = some c ∧ c.priv = true

/-! Results in integer arithmetic. -/

/-- The number clamped to the range of n bits, signed or unsigned (Sat, R134). -/
def clamp (signed : Bool) (n : Nat) (v : Int) : Int :=
  if signed then max (-(2 ^ (n - 1) : Int)) (min (2 ^ (n - 1) - 1) v) else max 0 (min (2 ^ n - 1) v)
/-- Sums of R167: mod 2^n, saturated signed, or saturated unsigned. -/
def sumOf (n : Nat) (m : Nat) (sub : Bool) (a b : BitVec n) : BitVec n :=
  let exact : Int := if m = 2 then (if sub then (a.toNat : Int) - b.toNat else a.toNat + b.toNat)
    else (if sub then a.toInt - b.toInt else a.toInt + b.toInt)
  BitVec.ofInt n (match m with | 1 => clamp true n exact | 2 => clamp false n exact | _ => exact)
/-- A shift left, right with zeros, right with the sign, as arithmetic on the value. -/
def shlOf {n : Nat} (a : BitVec n) (c : Nat) : BitVec n := BitVec.ofNat n (a.toNat * 2 ^ c)
def shrOf {n : Nat} (a : BitVec n) (c : Nat) : BitVec n := BitVec.ofNat n (a.toNat / 2 ^ c)
def sarOf {n : Nat} (a : BitVec n) (c : Nat) : BitVec n := BitVec.ofInt n (a.toInt / 2 ^ c)
/-- A comparison of R150 and R168 on values as the type reads them. -/
def cmpOf (c : Nat) (x y : Int) : Bool :=
  match c with
  | 0 => decide (x = y) | 1 => decide (x ≠ y) | 2 => decide (x < y) | 3 => decide (x ≤ y) | 4 => decide (x > y)
  | _ => decide (x ≥ y)
/-- The value of n bits, signed or not. -/
def valOf {n : Nat} (signed : Bool) (a : BitVec n) : Int := if signed then a.toInt else a.toNat

/-- The group arithmetic and logic of R147 to R149: guard, destination and result. -/
def groupResult (i : Instr) (x : Gang) : Option (Guard × BitVec 6 × B64) :=
  let r := fun (n : BitVec 6) => gReg x n.toNat
  match i with
  | .gadd g d a b => some (g, d, r a + r b)
  | .gsub g d a b => some (g, d, r a - r b)
  | .gmul g d a b => some (g, d, r a * r b)
  | .gmulh g m d a b => some (g, d, BitVec.ofInt 64 (valOf (m == 0) (r a) * valOf (m == 0) (r b) / 2 ^ 64))
  | .gmin g m d a b => some (g, d, if valOf (m == 0) (r a) ≤ valOf (m == 0) (r b) then r a else r b)
  | .gmax g m d a b => some (g, d, if valOf (m == 0) (r b) ≤ valOf (m == 0) (r a) then r a else r b)
  | .gmov g d a => some (g, d, r a)
  | .gand g d a b => some (g, d, r a &&& r b)
  | .gor g d a b => some (g, d, r a ||| r b)
  | .gxor g d a b => some (g, d, r a ^^^ r b)
  | .gshl g d a b => some (g, d, shlOf (r a) (r b).toNat)
  | .gshr g d a b => some (g, d, shrOf (r a) (r b).toNat)
  | .gsar g d a b => some (g, d, sarOf (r a) (r b).toNat)
  | .gaddi g d k => some (g, d, r d + k.signExtend 64)
  | .gandi g d k => some (g, d, r d &&& k.signExtend 64)
  | .gori g d k => some (g, d, r d ||| k.signExtend 64)
  | .gxori g d k => some (g, d, r d ^^^ k.signExtend 64)
  | .gshli g d k => some (g, d, shlOf (r d) k.toNat)
  | .gshri g d k => some (g, d, shrOf (r d) k.toNat)
  | .gsari g d k => some (g, d, sarOf (r d) k.toNat)
  | .gmovi d k => some (noGuard, d, k.signExtend 64)
  | .gmovhi d k => some (noGuard, d, BitVec.ofNat 64 ((r d).toNat * 2 ^ 18 + k.toNat))
  | .gfromv g t d a b =>
    let l := (r b).toNat % 32
    some (g, d, match t.toNat with
      | 0 => (laneReg x l a.toNat).setWidth 64
      | 1 => (laneReg x l a.toNat).signExtend 64
      | _ => laneReg x l (a.toNat + 1) ++ laneReg x l a.toNat)
  | _ => none

/-- The group predicate words of R150 and R151: guard, destination and result. -/
def groupPred (i : Instr) (x : Gang) : Option (Guard × BitVec 3 × Bool) :=
  match i with
  | .gcmp g t c q a b =>
    let signed := t.toNat % 2 == 0
    let v := fun (n : BitVec 6) =>
      if 2 ≤ t.toNat then valOf signed ((gReg x n.toNat).extractLsb' 0 32) else valOf signed (gReg x n.toNat)
    some (g, q, cmpOf c.toNat (v a) (v b))
  | .qlop g m d a b =>
    let p := qReg x a.toNat
    let q := qReg x b.toNat
    some (g, d, match m.toNat with | 0 => p && q | 1 => p || q | 2 => p != q | _ => p && !q)
  | _ => none

/-- A lane's source values, 32 bits and 64 bits (R122). -/
def src (x : LaneIn) (n : BitVec 6) : B32 := x.rd n.toNat
def src2 (x : LaneIn) (n : BitVec 6) : B64 := x.rd (n.toNat + 1) ++ x.rd n.toNat
/-- One result by width: a register or a pair. -/
def dst (d : BitVec 6) (v : B32) : LaneOut := ⟨[(d.toNat, v)], [], 0⟩
def dst2 (d : BitVec 6) (v : B64) : LaneOut :=
  ⟨[(d.toNat, v.extractLsb' 0 32), (d.toNat + 1, v.extractLsb' 32 32)], [], 0⟩
/-- A one- or two-source operation in 32 or 64 bits. -/
def by1 (wide : Bool) (d a : BitVec 6) (x : LaneIn) (f : (n : Nat) → BitVec n → BitVec n) : LaneOut :=
  if wide then dst2 d (f 64 (src2 x a)) else dst d (f 32 (src x a))
def by2 (wide : Bool) (d a b : BitVec 6) (x : LaneIn) (f : (n : Nat) → BitVec n → BitVec n → BitVec n) : LaneOut :=
  if wide then dst2 d (f 64 (src2 x a) (src2 x b)) else dst d (f 32 (src x a) (src x b))
/-- The magnitude of R167. -/
def magOf (sat : Bool) (n : Nat) (a : BitVec n) : BitVec n :=
  BitVec.ofInt n (if sat then clamp true n (abs a.toInt) else abs a.toInt)
/-- The number of leading zeros: the width less the number of bits that the value needs. -/
def clzOf {n : Nat} (a : BitVec n) : Nat := n - Nat.size a.toNat
/-- The number of one bits. -/
def popOf {n : Nat} (a : BitVec n) : Nat := ((List.range n).filter a.toNat.testBit).length
/-- BFE of R169. -/
def bfeOf (signed : Bool) (v ctl : B32) : B32 :=
  let pos := ctl.toNat % 256
  let len := if 32 ≤ pos then 0 else min (ctl.toNat / 256 % 256) (32 - pos)
  let f := v.toNat / 2 ^ pos % 2 ^ len
  if len = 0 then 0 else BitVec.ofInt 32 (if signed && f.testBit (len - 1) then (f : Int) - 2 ^ len else f)
/-- BFI of R169. -/
def bfiOf (old v ctl : B32) : B32 :=
  let pos := ctl.toNat % 256
  let len := if 32 ≤ pos then 0 else min (ctl.toNat / 256 % 256) (32 - pos)
  BitVec.ofNat 32 (old.toNat / 2 ^ (pos + len) * 2 ^ (pos + len) + v.toNat % 2 ^ len * 2 ^ pos + old.toNat % 2 ^ pos)

/-- The integer, logic and predicate words of R167 to R175 that an executor may also run (R287): the guard, and what a
lane does. SEL, MOVI and MOVHI have no guard (R170, R172). -/
def laneResult (i : Instr) : Option (Guard × (LaneIn → LaneOut)) :=
  match i with
  | .iadd g m d a b => some (g, fun x => dst d (sumOf 32 m.toNat false (src x a) (src x b)))
  | .isub g m d a b => some (g, fun x => dst d (sumOf 32 m.toNat true (src x a) (src x b)))
  | .imul g d a b => some (g, fun x => dst d (BitVec.ofNat 32 ((src x a).toNat * (src x b).toNat)))
  | .imulh g m d a b => some (g, fun x => dst d (BitVec.ofInt 32 (valOf (m == 0) (src x a) * valOf (m == 0) (src x b) / 2 ^ 32)))
  | .imad g m d a b => some (g, fun x =>
      if m = 0 then dst d (src x a * src x b + src x d)
      else dst2 d (BitVec.ofInt 64 (valOf (m == 2) (src x a) * valOf (m == 2) (src x b) + (src2 x d).toNat)))
  | .imin g m d a b => some (g, fun x => by2 (2 ≤ m.toNat) d a b x fun _ p q =>
      if valOf (m.toNat % 2 == 0) p ≤ valOf (m.toNat % 2 == 0) q then p else q)
  | .imax g m d a b => some (g, fun x => by2 (2 ≤ m.toNat) d a b x fun _ p q =>
      if valOf (m.toNat % 2 == 0) q ≤ valOf (m.toNat % 2 == 0) p then p else q)
  | .iabs g m d a => some (g, fun x => by1 (2 ≤ m.toNat) d a x (magOf (m.toNat % 2 == 1)))
  | .andL g w d a b => some (g, fun x => by2 (w == 1) d a b x fun _ p q => p &&& q)
  | .orL g w d a b => some (g, fun x => by2 (w == 1) d a b x fun _ p q => p ||| q)
  | .xorL g w d a b => some (g, fun x => by2 (w == 1) d a b x fun _ p q => p ^^^ q)
  | .notL g w d a => some (g, fun x => by1 (w == 1) d a x fun _ p => ~~~p)
  | .shl g w d a b => some (g, fun x => by1 (w == 1) d a x fun _ p => shlOf p (src x b).toNat)
  | .shr g w d a b => some (g, fun x => by1 (w == 1) d a x fun _ p => shrOf p (src x b).toNat)
  | .sar g w d a b => some (g, fun x => by1 (w == 1) d a x fun _ p => sarOf p (src x b).toNat)
  | .mov g w d a => some (g, fun x => by1 (w == 1) d a x fun _ p => p)
  | .bfe g m d a b => some (g, fun x => dst d (bfeOf (m == 1) (src x a) (src x b)))
  | .bfi g d a b => some (g, fun x => dst d (bfiOf (src x d) (src x a) (src x b)))
  | .popc g w d a => some (g, fun x => dst d (BitVec.ofNat 32 (if w = 1 then popOf (src2 x a) else popOf (src x a))))
  | .clz g w d a => some (g, fun x => dst d (BitVec.ofNat 32 (if w = 1 then clzOf (src2 x a) else clzOf (src x a))))
  | .brev g w d a => some (g, fun x => by1 (w == 1) d a x fun _ p => p.reverse)
  | .sel p n w d a b => some (noGuard, fun x => by2 (w == 1) d a b x fun _ y z =>
      if (if n = 1 then !qBit x.pr p.toNat else qBit x.pr p.toNat) then y else z)
  | .isetp g t c q a b => some (g, fun x =>
      let v := fun n => if 2 ≤ t.toNat then valOf (t.toNat % 2 == 0) (src2 x n) else valOf (t.toNat % 2 == 0) (src x n)
      ⟨[], [(q.toNat, cmpOf c.toNat (v a) (v b))], 0⟩)
  | .iadd64 g m d a b => some (g, fun x => dst2 d (sumOf 64 m.toNat false (src2 x a) (src2 x b)))
  | .isub64 g m d a b => some (g, fun x => dst2 d (sumOf 64 m.toNat true (src2 x a) (src2 x b)))
  | .iaddi g d k => some (g, fun x => dst d (src x d + k.signExtend 32))
  | .imuli g d k => some (g, fun x => dst d (src x d * k.signExtend 32))
  | .andi g d k => some (g, fun x => dst d (src x d &&& k.signExtend 32))
  | .ori g d k => some (g, fun x => dst d (src x d ||| k.signExtend 32))
  | .xori g d k => some (g, fun x => dst d (src x d ^^^ k.signExtend 32))
  | .shli g d k => some (g, fun x => dst d (shlOf (src x d) k.toNat))
  | .shri g d k => some (g, fun x => dst d (shrOf (src x d) k.toNat))
  | .sari g d k => some (g, fun x => dst d (sarOf (src x d) k.toNat))
  | .movi d k => some (noGuard, fun _ => dst d (k.signExtend 32))
  | .movhi d k => some (noGuard, fun x => dst d (BitVec.ofNat 32 ((src x d).toNat * 2 ^ 18 + k.toNat)))
  | .plop g m d a b => some (g, fun x =>
      let p := qBit x.pr a.toNat
      let q := qBit x.pr b.toNat
      ⟨[], [(d.toNat, match m.toNat with | 0 => p && q | 1 => p || q | 2 => p != q | _ => p && !q)], 0⟩)
  | .pmovTov g d => some (g, fun x => dst d (BitVec.ofNat 32 (x.pr.toNat % 128 + 128)))
  | .pmovFromv g a => some (g, fun x => ⟨[], (List.range 7).map fun n => (n, (src x a).toNat.testBit n), 0⟩)
  | _ => none

/-- The floating words of R176 to R185 of fixed latency: the guard, whether an executor may run it (R287), and what a
lane does, flags included. The operations on values are those of the chapter on numbers. -/
def floatResult (i : Instr) : Option (Guard × Bool × (LaneIn → LaneOut)) :=
  let n := fun (x : LaneIn) (r : BitVec 6) => (src x r).toNat
  let n2 := fun (x : LaneIn) (r : BitVec 6) => (src2 x r).toNat
  let o := fun (d : BitVec 6) (r : Nat × Flags5) => ({ dst d (BitVec.ofNat 32 r.1) with fl := r.2 } : LaneOut)
  let o2 := fun (d : BitVec 6) (r : Nat × Flags5) => ({ dst2 d (BitVec.ofNat 64 r.1) with fl := r.2 } : LaneOut)
  let h := fun (d : BitVec 6) (f : Nat → Nat × Flags5) =>
    ({ dst d (BitVec.ofNat 32 ((f 0).1 % 2 ^ 16 + (f 1).1 % 2 ^ 16 * 2 ^ 16)) with fl := (f 0).2 ||| (f 1).2 } : LaneOut)
  let lo := fun (v j : Nat) => v / 2 ^ (16 * j) % 2 ^ 16
  let hc := fun (f : Fmt) (m : BitVec 2) (c q : BitVec 3) (a b : BitVec 6) (x : LaneIn) =>
    let r := fun j => fpCmp f c.toNat false (lo (n x a) j) (lo (n x b) j)
    (⟨[], [(q.toNat, match m.toNat with
      | 0 => (r 0).1 | 1 => (r 1).1 | 2 => (r 0).1 && (r 1).1 | _ => (r 0).1 || (r 1).1)], (r 0).2 ||| (r 1).2⟩ : LaneOut)
  match i with
  | .faddF32 g m d a b => some (g, true, fun x => o d (fpAdd f32 m.toNat false false (n x a) (n x b)))
  | .fsubF32 g m d a b => some (g, true, fun x => o d (fpAdd f32 m.toNat false true (n x a) (n x b)))
  | .fmulF32 g m d a b => some (g, true, fun x => o d (fpMul f32 m.toNat false (n x a) (n x b)))
  | .ffmaF32 g m d a b => some (g, true, fun x => o d (fpFma f32 m.toNat false (n x a) (n x b) (n x d)))
  | .fminF32 g f d a b => some (g, true, fun x => o d (fpMinMax f32 false (f == 1) (n x a) (n x b)))
  | .fmaxF32 g f d a b => some (g, true, fun x => o d (fpMinMax f32 true (f == 1) (n x a) (n x b)))
  | .frcpaF32 g f d a => some (g, false, fun x => o d (fpRcp f32 (f == 1) (n x a)))
  | .frsqaF32 g f d a => some (g, false, fun x => o d (fpRsq f32 (f == 1) (n x a)))
  | .fsetpF32 g f c q a b => some (g, true, fun x =>
      let r := fpCmp f32 c.toNat (f == 1) (n x a) (n x b)
      ⟨[], [(q.toNat, r.1)], r.2⟩)
  | .fclassF32 g f d a => some (g, true, fun x => o d (fpClass f32 (f == 1) (n x a), 0))
  | .faddF64 g m d a b => some (g, true, fun x => o2 d (fpAdd f64 m.toNat false false (n2 x a) (n2 x b)))
  | .fsubF64 g m d a b => some (g, true, fun x => o2 d (fpAdd f64 m.toNat false true (n2 x a) (n2 x b)))
  | .fmulF64 g m d a b => some (g, true, fun x => o2 d (fpMul f64 m.toNat false (n2 x a) (n2 x b)))
  | .ffmaF64 g m d a b => some (g, true, fun x => o2 d (fpFma f64 m.toNat false (n2 x a) (n2 x b) (n2 x d)))
  | .fminF64 g d a b => some (g, true, fun x => o2 d (fpMinMax f64 false false (n2 x a) (n2 x b)))
  | .fmaxF64 g d a b => some (g, true, fun x => o2 d (fpMinMax f64 true false (n2 x a) (n2 x b)))
  | .frcpaF64 g d a => some (g, false, fun x => o2 d (fpRcp f64 false (n2 x a)))
  | .frsqaF64 g d a => some (g, false, fun x => o2 d (fpRsq f64 false (n2 x a)))
  | .fsetpF64 g c q a b => some (g, true, fun x =>
      let r := fpCmp f64 c.toNat false (n2 x a) (n2 x b)
      ⟨[], [(q.toNat, r.1)], r.2⟩)
  | .fclassF64 g d a => some (g, true, fun x => o d (fpClass f64 false (n2 x a), 0))
  | .cvt g m d a c => some (g, true, fun x =>
      let r := cvtOp false c.toNat m.toNat (if cvtWideSrc c.toNat then n2 x a else n x a)
      if cvtWideDst c.toNat then o2 d r else o d r)
  | .cvtsat g m d a c => some (g, true, fun x =>
      let r := cvtOp true c.toNat m.toNat (if cvtWideSrc c.toNat then n2 x a else n x a)
      if cvtWideDst c.toNat then o2 d r else o d r)
  | .faddF16x2 g m d a b => some (g, true, fun x =>
      h d fun j => fpAdd f16 (m.toNat % 2) (2 ≤ m.toNat) false (lo (n x a) j) (lo (n x b) j))
  | .fmulF16x2 g m d a b => some (g, true, fun x =>
      h d fun j => fpMul f16 (m.toNat % 2) (2 ≤ m.toNat) (lo (n x a) j) (lo (n x b) j))
  | .ffmaF16x2 g m d a b => some (g, true, fun x =>
      h d fun j => fpFma f16 (m.toNat % 2) (2 ≤ m.toNat) (lo (n x a) j) (lo (n x b) j) (lo (n x d) j))
  | .fminF16x2 g f d a b => some (g, true, fun x => h d fun j => fpMinMax f16 false (f == 1) (lo (n x a) j) (lo (n x b) j))
  | .fmaxF16x2 g f d a b => some (g, true, fun x => h d fun j => fpMinMax f16 true (f == 1) (lo (n x a) j) (lo (n x b) j))
  | .fsetpF16x2 g m c q a b => some (g, true, hc f16 m c q a b)
  | .faddBf16x2 g m d a b => some (g, true, fun x =>
      h d fun j => fpAdd bf16 m.toNat false false (lo (n x a) j) (lo (n x b) j))
  | .fmulBf16x2 g m d a b => some (g, true, fun x => h d fun j => fpMul bf16 m.toNat false (lo (n x a) j) (lo (n x b) j))
  | .ffmaBf16x2 g m d a b => some (g, true, fun x =>
      h d fun j => fpFma bf16 m.toNat false (lo (n x a) j) (lo (n x b) j) (lo (n x d) j))
  | .fminBf16x2 g d a b => some (g, true, fun x => h d fun j => fpMinMax bf16 false false (lo (n x a) j) (lo (n x b) j))
  | .fmaxBf16x2 g d a b => some (g, true, fun x => h d fun j => fpMinMax bf16 true false (lo (n x a) j) (lo (n x b) j))
  | .fsetpBf16x2 g m c q a b => some (g, true, hc bf16 m c q a b)
  | _ => none

/-- FDIV and FSQRT (R178): the guard, and what a lane does. -/
def divideResult (i : Instr) : Option (Guard × (LaneIn → LaneOut)) :=
  let o := fun (d : BitVec 6) (r : Nat × Flags5) => ({ dst d (BitVec.ofNat 32 r.1) with fl := r.2 } : LaneOut)
  let o2 := fun (d : BitVec 6) (r : Nat × Flags5) => ({ dst2 d (BitVec.ofNat 64 r.1) with fl := r.2 } : LaneOut)
  match i with
  | .fdivF32 g m d a b => some (g, fun x => o d (fpDiv f32 m.toNat false (src x a).toNat (src x b).toNat))
  | .fsqrtF32 g m d a f => some (g, fun x => o d (fpSqrt f32 m.toNat (f == 1) (src x a).toNat))
  | .fdivF64 g m d a b => some (g, fun x => o2 d (fpDiv f64 m.toNat false (src2 x a).toNat (src2 x b).toNat))
  | .fsqrtF64 g m d a => some (g, fun x => o2 d (fpSqrt f64 m.toNat false (src2 x a).toNat))
  | _ => none

/-- A special register's value (R152, R153). -/
def specialOf (s : State) (u : Iss) (n : Nat) : B64 :=
  BitVec.ofNat 64 (match n with
    | 0 => u.g.wid.toNat
    | 1 => u.g.launchId.toNat
    | 2 => s.now
    | 3 => u.g.fpcr.toNat
    | 4 => u.g.fpsr.toNat
    | 5 => ((List.range 12).map fun k => if smGet u.g.flags k 0 = 0 then 0 else 2 ^ k).sum
    | 6 => ((List.range 8).map fun sl => if u.g.live.toNat / 16 ^ sl % 16 = 0 then 0 else 2 ^ (8 + sl)).sum + u.f.smask.toNat
    | 7 => u.f.rpc.toNat % 2 ^ 57 / 4 * 4 + u.f.rv.toNat
    | 8 => u.g.stream.toNat
    | 9 => match smFind s.ctxs u.g.ctx with | some c => c.dies.toNat | none => 0
    | 10 => u.g.core
    | 11 => u.g.quarter
    | _ => u.g.slot)

/-- The gang once some lanes have written their results. -/
def wrote (g : Gang) (outs : List (Nat × LaneOut)) : Gang := outs.foldl (fun g p => applyLane g p.1 p.2) g
/-- A word's results in its participating lanes, from the values at issue (R80, R187). -/
def results (u : Iss) (gd : Guard) (f : LaneIn → LaneOut) : List (Nat × LaneOut) :=
  (bitList (partLanes u.g u.f gd)).map fun l => (l, f (gangIn u.g l))
/-- The flags that the lanes raise together, and the lanes that raise an enabled one (R135 to R138). -/
def raised (outs : List (Nat × LaneOut)) : Flags5 := outs.foldl (fun m p => m ||| p.2.fl) 0
def trapped (u : Iss) (outs : List (Nat × LaneOut)) : Lanes :=
  ofBits 32 ((outs.filter fun p => (u.g.fpcr.getLsbD 0 && p.2.fl.getLsbD 0) || (u.g.fpcr.getLsbD 1 && p.2.fl.getLsbD 1)).map
    Prod.fst)

/-! Memory words. -/

/-- The words that act on global memory in lanes (R227, R229, R232 to R236): guard, access, address pair, offset, and
whether an executor may issue the word (R287). -/
def memoryWord (i : Instr) : Option (Guard × MDesc × BitVec 6 × BitVec 6 × Bool) :=
  let plain := fun (dir : MDir) (size : Nat) (sx : Bool) (d : BitVec 6) =>
    (⟨.plain, dir, .global, size, sx, d.toNat, 1, 0, false⟩ : MDesc)
  let ordered := fun (dir : MDir) (w : BitVec 1) (sc : BitVec 4) (d : BitVec 6) =>
    (⟨.ordered sc.toNat, dir, .global, if w = 1 then 8 else 4, false, d.toNat, 1, 0, false⟩ : MDesc)
  let atom := fun (op : AOp) (nr far once : Bool) (w : BitVec 1) (sc : BitVec 4) (d : BitVec 6) =>
    (⟨.atomic op nr far once sc.toNat, .atom, .global, if w = 1 then 8 else 4, false, d.toNat, 1, 0, false⟩ : MDesc)
  match i with
  | .ldg g m d a c => some (g, plain .load (4 * 2 ^ m.toNat) false d, a, c, true)
  | .ldgh g sg d a c => some (g, plain .load 2 (sg == 1) d, a, c, true)
  | .ldgb g sg d a c => some (g, plain .load 1 (sg == 1) d, a, c, true)
  | .stg g m d a c => some (g, plain .store (4 * 2 ^ m.toNat) false d, a, c, true)
  | .stgh g d a c => some (g, plain .store 2 false d, a, c, true)
  | .stgb g d a c => some (g, plain .store 1 false d, a, c, true)
  | .lda g w d a sc => some (g, ordered .load w sc d, a, 0, true)
  | .stl g w d a sc => some (g, ordered .store w sc d, a, 0, true)
  | .atomAdd g r d a w f sc => some (g, atom .add (r == 1) (f == 1) false w sc d, a, 0, true)
  | .atomFadd g x r d a w f sc => some (g, atom (if x = 1 then .fadd2 else .fadd) (r == 1) (f == 1) false w sc d, a, 0, true)
  | .atomMin g un r d a w f sc => some (g, atom (if un = 1 then .minU else .minS) (r == 1) (f == 1) false w sc d, a, 0, true)
  | .atomMax g un r d a w f sc => some (g, atom (if un = 1 then .maxU else .maxS) (r == 1) (f == 1) false w sc d, a, 0, true)
  | .atomBit g m d a w f sc =>
    some (g, atom (match m.toNat with | 0 => .and_ | 1 => .or_ | _ => .xor_) false (f == 1) false w sc d, a, 0, true)
  | .atomExch g d a w f sc => some (g, atom .exch false (f == 1) false w sc d, a, 0, true)
  | .cas g d a w f sc => some (g, atom .cas false (f == 1) false w sc d, a, 0, true)
  | .atomsc g m d a w sc =>
    some (g, atom (match m.toNat with | 0 => .add | 1 => .exch | 2 => .cas | _ => .st) (m == 3) false true w sc d, a, 0, false)
  | _ => none
/-- The address of a plain form (R221): the pair plus the scaled offset. -/
def addrOf (rd : Nat → B32) (a c : BitVec 6) (size : Nat) : B64 :=
  (rd (a.toNat + 1) ++ rd a.toNat) + BitVec.ofInt 64 (c.toInt * size)
/-- The words that act on the scratchpad (R228). -/
def scratchOf (i : Instr) : Option (Guard × MDesc × BitVec 6 × BitVec 6) :=
  let plain := fun (dir : MDir) (size : Nat) (sx : Bool) (d : BitVec 6) =>
    (⟨.plain, dir, .scratch, size, sx, d.toNat, 1, 0, false⟩ : MDesc)
  match i with
  | .lds g m d a c => some (g, plain .load (4 * 2 ^ m.toNat) false d, a, c)
  | .ldsh g sg d a c => some (g, plain .load 2 (sg == 1) d, a, c)
  | .ldsb g sg d a c => some (g, plain .load 1 (sg == 1) d, a, c)
  | .sts g m d a c => some (g, plain .store (4 * 2 ^ m.toNat) false d, a, c)
  | .stsh g d a c => some (g, plain .store 2 false d, a, c)
  | .stsb g d a c => some (g, plain .store 1 false d, a, c)
  | _ => none
/-- A lane's scratchpad address (R228): the register plus the scaled offset, mod 2^32. -/
def scratchAddr (g : Gang) (l : Nat) (a c : BitVec 6) (size : Nat) : Nat :=
  ((laneReg g l a.toNat) + BitVec.ofInt 32 (c.toInt * size)).toNat
/-- The remote words (R341): the access, the address pair, and whether the peer is each lane's register or one g register. -/
def remoteOf (i : Instr) : Option (Guard × MDesc × BitVec 6 × BitVec 6 × Bool) :=
  let plain := fun (dir : MDir) (m : BitVec 2) (d : BitVec 6) =>
    (⟨.plain, dir, .remote, 4 * 2 ^ m.toNat, false, d.toNat, 1, 0, false⟩ : MDesc)
  let atom := fun (m : BitVec 2) (d : BitVec 6) =>
    (⟨.atomic (match m.toNat with | 0 | 1 => AOp.add | 2 => .exch | _ => .cas) (m == 1) true false 4, .atom, .remote, 8,
      false, d.toNat, 1, 0, false⟩ : MDesc)
  match i with
  | .rld g m d a c => some (g, plain .load m d, a, c, false)
  | .rst g m d a c => some (g, plain .store m d, a, c, false)
  | .ratom g m d a c => some (g, atom m d, a, c, false)
  | .rldv g m d a c => some (g, plain .load m d, a, c, true)
  | .rstv g m d a c => some (g, plain .store m d, a, c, true)
  | .ratomv g m d a c => some (g, atom m d, a, c, true)
  | _ => none
/-- The uniform words (R156). -/
def uniformOf (i : Instr) : Option (Guard × MDesc × BitVec 6 × BitVec 6) :=
  match i with
  | .gldk g m d a c => some (g, ⟨.plain, .load, .global, if m = 1 then 8 else 4, m == 2, d.toNat, 1, 0, true⟩, a, c)
  | .gstk g m d a c => some (g, ⟨.plain, .store, .global, if m = 1 then 8 else 4, false, d.toNat, 1, 0, true⟩, a, c)
  | _ => none
/-- The state with one more operation of the issuing fragment, counted by its flag (R78). -/
def opened (s : State) (u : Iss) (o : Op) : State :=
  { s with next := s.next + 1, ops := smPut s.ops s.next o, gangs := smPut s.gangs u.gid (flagUp u.g o.flag) }

/-! The fabric. -/

/-- A live port, whose I/O die is live, holds the key of a bank that a flit or a control message names (R329, R330). -/
structure HearsAt (s : State) (p kg : Nat) (x : Port) : Prop where
  port : smFind s.fab.ports p = some x
  live : x.live = true
  die : s.plat.live.getLsbD (ioDie p) = true
  key : (smFind x.keys kg).isSome = true
abbrev Hears (s : State) (p : Nat) (f : Flit) (x : Port) : Prop := HearsAt s p f.kg.toNat x
/-- The state once the port has counted and acknowledged what arrives under a key bank. -/
def heardAt (s : State) (p kg : Nat) (x : Port) : State :=
  s.setFab { s.fab with
    ports := (smPut s.fab.ports p { x with
      recv := x.recv + 1, fails := 0, newFlits := x.newFlits + if kg = x.kg then 1 else 0 })
    out := s.fab.out ++ [(p, { mkFlit s 0x3f 0 0 0 0 ((x.recv + 1) % 2 ^ 16) 0 [0#8] false with kg := BitVec.ofNat 1 x.kg })] }
def heard (s : State) (p : Nat) (f : Flit) (x : Port) : State := heardAt s p f.kg.toNat x
/-- A counted or flag flit is admitted by its arrival entry (R335, R339): not refused, of the entry's generation, and within
the window of 16 batches. -/
structure Admitted (s : State) (f : Flit) (e : ArrE) : Prop where
  entry : smFind s.fab.arr (arrKey f.src.toNat f.sctx.toNat f.stream.toNat) = some e
  open_ : e.st ≠ .refused
  gen : f.gen.toNat = e.gen % 4
  window : (f.count - e.nb).toNat < 16
/-- The state in which an admitted flit waits to be performed. -/
def withWrite (s : State) (p : Nat) (f : Flit) : State :=
  { s with next := s.next + 1, fab := { s.fab with
    writes := smPut s.fab.writes s.next ⟨arrKey f.src.toNat f.sctx.toNat f.stream.toNat, f, p⟩ } }
/-- STRSTAT after a command. -/
def strDone (s : State) (st code gen : Nat) : State :=
  s.setPf { s.pf with strstat := BitVec.ofNat 64 (st * 2 ^ 62 + code * 2 ^ 56 + gen % 2 ^ 16) }

end Sys2Proof
end

