-- ==== Sys2Proof/Certificates/Slice0/Obligations.lean ====
section
/-! DEFINITION. The statements for the provers: each formalises rules of the spec, named in its docstring. -/
open Sys2Proof Sys2Proof.Machine

/-! Encoding and decoding. -/

/-- R82, R85, R90 and the encoding tables of every entry: decoding the encoding of a well-formed instruction gives it back,
with every operand at every value that the encoding holds. -/
def Obligations.DecodeOfEncode : Prop :=
  ∀ i : Instr, WellFormed i → encode i < 2 ^ 32 ∧ decodeWord (encode i) = .ok i

/-- The other direction: a 32-bit word that decodes to an instruction is the encoding of it, so no bit of a word that
decodes is dropped, and what it decodes to is one of the instruction set's words. -/
def Obligations.EncodeOfDecode : Prop :=
  ∀ (w : Nat) (i : Instr), w < 2 ^ 32 → decodeWord w = .ok i → encode i = w ∧ isWord i = true

/-- Words written out from the spec's encodings and its examples (R149, R168, R172) decode to what they stand for. -/
def Obligations.ExampleWordsDecode : Prop :=
  decodeWord 0xa8140004 = .ok (.gmovi 5 4) ∧
  decodeWord 0xa9163456 = .ok (.gmovhi 5 0x23456) ∧
  decodeWord 0x16e11105 = .ok (.isetp ⟨7, 0⟩ 0 2 1 4 5) ∧
  decodeWord 0x21100fe0 = .ok (.movi 4 0xfe0) ∧
  decodeWord 0x22100000 = .ok (.movhi 4 0)

/-! Steps. -/

/-- R101 to R103, R85, R90: when a fragment's turn stands first in the inbox and it has a word to issue, the step runs the
decoded instruction as that fragment's, if no ready fragment of its pipe is to be issued rather than it; a word that decodes
to none takes ILLEGAL_INSTR. The step first takes the turn out of the inbox and counts itself; afterwards it keeps the ages
and bypass counts of R102 and R103. R287, R296: the same for an executor run. An event that stands first in the inbox is
what the step performs. That an inbox of turns and events decides what acts next is the model's (log 1). -/
def Obligations.StepRunsTheDecodedInstruction : Prop :=
  (∀ (s : State) (l : List Input) (gid e : Nat) (g : Gang) (f : Frag) (w : B32),
     s.inbox = .turn (.frag gid e) :: l → smFind s.gangs gid = some g → smFind g.frags e = some f → fragWord g f = some w →
     let s₀ : State := { s with inbox := l, turn := s.turn + 1 }
     let s₁ : State := { s₀ with cur := .frag gid e }
     let first := isChoice s₀ ⟨gid, e, g, f, w⟩
     (∀ i, decodeWord w.toNat = .ok i → first = true → step s = aged s (exec i s₁)) ∧
     (∀ x, decodeWord w.toNat = .error x → first = true → step s = aged s (rejectWord w s₁)) ∧
     (first = false → step s = aged s (.next s₀)) ∧
     ((∀ y ∈ cands s₀, samePipe ⟨gid, e, g, f, w⟩ y = true → y.gid = gid ∧ y.e = e) → s.gangs.Pairwise (fun a b => a.1 < b.1) →
       g.frags.Pairwise (fun a b => a.1 < b.1) → first = true)) ∧
  (∀ (s : State) (l : List Input) (r : Nat) (x : Run) (w : B32),
     s.inbox = .turn (.run r) :: l → smFind s.runs r = some x → runWord x = some w →
     let s₁ : State := { s with inbox := l, turn := s.turn + 1, cur := .run r }
     (∀ i, decodeWord w.toNat = .ok i → step s = aged s (exec i s₁)) ∧
     (∀ y, decodeWord w.toNat = .error y → step s = aged s (rejectWord w s₁))) ∧
  (∀ (s : State) (l : List Input) (i : Instr), s.inbox = .ev i :: l →
     step s = aged s (exec i { s with inbox := l, turn := s.turn + 1, cur := .none }))

/-- R83 to R85, R90, R360, R362: a word that fails an encoding check takes ILLEGAL_INSTR, precise-terminated, whatever its
guard. -/
def Obligations.IllegalWordsTerminate : Prop :=
  ∀ (i : Instr) (s : State) (gid e : Nat) (g : Gang) (f : Frag),
    isWord i = true → s.cur = .frag gid e → smFind s.gangs gid = some g → smFind g.frags e = some f →
    (legal i && fits g.regs g.tilesN g.accsN i) = false →
    exec i s = .next (terminate s gid .illegalInstr f.pc (BitVec.ofNat 32 (encode i)) 0 0)

/-- R83, R93, R78, R243, R260: a group word whose guard is false has no effect but that the fragment moves on; a privileged
one only where the context has the mark; a long-latency one only once its flag counts less than 63, and the core's matrix
engine or copy unit has room for it (R78, R243, R260), and until then it does not issue. That a privileged word is checked
for the mark first is the model's (log 15). -/
def Obligations.FalseGuardOnlyMovesOn : Prop :=
  ∀ (i : Instr) (s : State) (u : Iss), Issues i s u → 2 ^ 31 ≤ encode i → guardQ u.g.q (guardOf i) = false →
    (privileged i = true → PrivCtx s u.g) →
    (heldBack i s u = false → exec i s = .next (moved u u.g s)) ∧ (heldBack i s u = true → exec i s = .next s)

/-! The invariant. -/

/-- MEMORY: every step keeps the frames' canonical form. The frames as a list of cells, and 0 for a byte that nothing has
written, are the model's (log 4). -/
def Obligations.StepKeepsCanonical : Prop :=
  ∀ s t : State, Canonical s → step s = .next t → Canonical t

/-! Group arithmetic, predicates and special registers. -/

/-- R147 to R151, R154, R84: a group word's result, for every operand, goes to its register or its predicate (a write to q7
is discarded), and nothing else changes. R152, R153: GSR reads the register that its number names, and GSW writes the three
writable ones, ignoring bits of reserved fields. -/
def Obligations.GroupWords : Prop :=
  (∀ (i : Instr) (s : State) (u : Iss) (gd : Guard) (d : BitVec 6) (v : B64),
    Issues i s u → groupResult i u.g = some (gd, d, v) →
    exec i s = .next (moved u (if guardQ u.g.q gd then setGReg u.g d.toNat v else u.g) s)) ∧
  (∀ (i : Instr) (s : State) (u : Iss) (gd : Guard) (q : BitVec 3) (b : Bool),
    Issues i s u → groupPred i u.g = some (gd, q, b) →
    exec i s = .next (moved u
      (if guardQ u.g.q gd then
        (if q = 7 then u.g else { u.g with q := if b then u.g.q ||| (1#8 <<< q.toNat) else u.g.q &&& ~~~(1#8 <<< q.toNat) })
      else u.g) s)) ∧
  (∀ (s : State) (u : Iss) (gd : Guard) (d n : BitVec 6), Issues (.gsr gd d n) s u → guardQ u.g.q gd = true →
    exec (.gsr gd d n) s = .next (moved u (setGReg u.g d.toNat (specialOf s u n.toNat)) s)) ∧
  (∀ (s : State) (u : Iss) (gd : Guard) (n a : BitVec 6), Issues (.gsw gd n a) s u → guardQ u.g.q gd = true →
    let v := (gReg u.g a.toNat).toNat
    (n = 3 → exec (.gsw gd n a) s = .next (moved u { u.g with fpcr := BitVec.ofNat 2 (v % 4) } s)) ∧
    (n = 4 → exec (.gsw gd n a) s = .next (moved u { u.g with fpsr := BitVec.ofNat 5 (v % 32) } s)) ∧
    (n = 8 → exec (.gsw gd n a) s = .next (moved u { u.g with stream := BitVec.ofNat 4 (v % 16) } s)) ∧
    (n = 3 ∨ n = 4 ∨ n = 8))

/-- R155: GREDUCE writes the reduction of the active lanes' values and ORs its flags in; where an enabled exception is
raised it takes FP_TRAP with every active lane in the mask, and the register keeps its value. R155: an integer reduction is
exact: the sum, the smallest or the largest of the lanes' values as the type reads them, in 64 bits, or the bits that any of
them has; no flag is raised; and over no lane it is the operation's identity. -/
def Obligations.GroupReduction : Prop :=
  (∀ (s : State) (u : Iss) (gd : Guard) (o : BitVec 2) (d a : BitVec 6) (t : BitVec 4),
     Issues (.greduce gd o d a t) s u → guardQ u.g.q gd = true →
     let wide := t = 3 ∨ t = 7 ∨ t = 11
     let vs := (bitList (activeLanes u.g u.f)).map fun l =>
       if wide then (laneReg u.g l (a.toNat + 1) ++ laneReg u.g l a.toNat).toNat else (laneReg u.g l a.toNat).toNat
     let r := gReduce o.toNat t.toNat vs
     (traps u.g.fpcr r.2 = false →
       exec (.greduce gd o d a t) s = .next (moved u { setGReg u.g d.toNat r.1 with fpsr := u.g.fpsr ||| r.2 } s)) ∧
     (traps u.g.fpcr r.2 = true →
       exec (.greduce gd o d a t) s = .next (terminate s u.gid .fpTrap u.f.pc u.word (activeLanes u.g u.f) 0))) ∧
  (∀ (t : Nat) (vs : List Nat), (t = 2 ∨ t = 3 ∨ t = 6 ∨ t = 7) →
     let bits := if t = 2 ∨ t = 6 then 32 else 64
     let dec := fun v : Nat => if t = 2 ∨ t = 3 then (BitVec.ofNat bits v).toInt else ((BitVec.ofNat bits v).toNat : Int)
     let xs := vs.map dec
     (∀ o, (gReduce o t vs).2 = 0) ∧
     (gReduce 0 t vs).1 = BitVec.ofInt 64 xs.sum ∧
     (∀ m ∈ xs, (∀ x ∈ xs, m ≤ x) → (gReduce 1 t vs).1 = BitVec.ofInt 64 m) ∧
     (∀ m ∈ xs, (∀ x ∈ xs, x ≤ m) → (gReduce 2 t vs).1 = BitVec.ofInt 64 m) ∧
     (∀ k < bits, (gReduce 3 t vs).1.getLsbD k = vs.any fun v => v.testBit k) ∧
     (vs = [] →
       (gReduce 1 t vs).1 = BitVec.ofInt 64 (if t = 2 ∨ t = 3 then 2 ^ (bits - 1) - 1 else 2 ^ bits - 1) ∧
       (gReduce 2 t vs).1 = BitVec.ofInt 64 (if t = 2 ∨ t = 3 then -(2 ^ (bits - 1)) else 0)))

/-! Lane arithmetic. -/

/-- R167 to R175: integer, logic and predicate words, in every participating lane from the values at issue; no other lane,
register, flag or byte of memory changes. -/
def Obligations.LaneIntegerWords : Prop :=
  ∀ (i : Instr) (s : State) (u : Iss) (gd : Guard) (f : LaneIn → LaneOut),
    Issues i s u → laneResult i = some (gd, f) →
    exec i s = .next (moved u (wrote u.g (results u gd f)) s)

/-- R135 to R138, R176 to R185: floating words write their results and OR their flags in, unless a lane raises an enabled
exception: then the word takes FP_TRAP, its mask those lanes, and nothing is written. -/
def Obligations.LaneFloatWords : Prop :=
  ∀ (i : Instr) (s : State) (u : Iss) (gd : Guard) (sub : Bool) (f : LaneIn → LaneOut),
    Issues i s u → floatResult i = some (gd, sub, f) →
    let outs := results u gd f
    (trapped u outs = 0 →
      exec i s = .next (moved u { wrote u.g outs with fpsr := u.g.fpsr ||| raised outs } s)) ∧
    (trapped u outs ≠ 0 →
      exec i s = .next (terminate s u.gid .fpTrap u.f.pc u.word (trapped u outs) 0))

/-- R287: an executor runs the same words in its single lane, raising no flag. -/
def Obligations.ExecutorLaneWords : Prop :=
  ∀ (i : Instr) (s : State) (r : Nat) (x : Run) (gd : Guard) (f : LaneIn → LaneOut),
    RunIssues i s r x → (laneResult i = some (gd, f) ∨ floatResult i = some (gd, true, f)) →
    exec i s = .next (movedRun r (if guardQ (runPred x) gd then applyRun x (f (runIn x)) else x) s)

/-- R175, R187 to R189: words that cross lanes or bring group values into them. -/
def Obligations.LaneCrossingWords : Prop :=
  (∀ (s : State) (u : Iss) (g : Guard) (d a : BitVec 3), Issues (.pmovFromq g d a) s u →
    exec (.pmovFromq g d a) s =
      .next (moved u (wrote u.g (results u g fun _ => ⟨[], [(d.toNat, qBit u.g.q a.toNat)], 0⟩)) s)) ∧
  (∀ (s : State) (u : Iss) (g : Guard) (m : BitVec 2) (d a : BitVec 3), Issues (.vote g m d a) s u →
    let part := bitList (partLanes u.g u.f g)
    let one := fun l => (predMask u.g a.toNat).getLsbD l
    let v := match m.toNat with
      | 0 => part.any one
      | 1 => part.all one
      | _ => part.all one || part.all fun l => !one l
    exec (.vote g m d a) s = .next (moved u (setQReg u.g d.toNat v) s)) ∧
  (∀ (s : State) (u : Iss) (g : Guard) (d : BitVec 6) (a : BitVec 3), Issues (.voteBallot g d a) s u →
    exec (.voteBallot g d a) s = .next (moved u (setGReg u.g d.toNat (BitVec.ofNat 64
      (((bitList (partLanes u.g u.f g)).filter fun l => (predMask u.g a.toNat).getLsbD l).map (2 ^ ·)).sum)) s)) ∧
  (∀ (s : State) (u : Iss) (g : Guard) (m : BitVec 2) (d a b : BitVec 6), Issues (.shfl g m d a b) s u →
    let part := partLanes u.g u.f g
    let from_ := fun l : Nat =>
      let c := (laneReg u.g l b.toNat).toNat
      let sl : Int := match m.toNat with
        | 0 => (c % 32 : Nat) | 1 => (l : Int) - c | 2 => (l : Int) + c | _ => (Nat.xor l (c % 32) : Nat)
      if 0 ≤ sl ∧ sl ≤ 31 ∧ part.getLsbD sl.toNat then sl.toNat else l
    exec (.shfl g m d a b) s = .next (moved u (wrote u.g ((bitList part).map fun l =>
      (l, dst d (laneReg u.g (from_ l) a.toNat)))) s)) ∧
  (∀ (s : State) (u : Iss) (g : Guard) (m : BitVec 2) (d a : BitVec 6), Issues (.vfromg g m d a) s u →
    let v := gReg u.g a.toNat
    exec (.vfromg g m d a) s = .next (moved u (wrote u.g (results u g fun _ =>
      match m.toNat with
      | 0 => dst d (v.extractLsb' 0 32) | 1 => dst d (v.extractLsb' 32 32) | _ => dst2 d v)) s)) ∧
  (∀ (s : State) (u : Iss) (g : Guard) (d n : BitVec 6), Issues (.lsr g d n) s u →
    exec (.lsr g d n) s = .next (moved u (wrote u.g ((bitList (partLanes u.g u.f g)).map fun l =>
      (l, match n.toNat with
        | 0 => dst d (BitVec.ofNat 32 l) | 1 => dst d (BitVec.ofNat 32 (l / 4)) | _ => dst2 d (smGet u.g.owid l 0)))) s))

/-- R186: blocks of 16 or 32 lanes: one whose lanes all take part is converted, one with none is skipped, and one with some
makes the word take ILLEGAL_CONVERGENCE. The word completes, with the flags of R137, unless a block raises an enabled
exception: then it takes FP_TRAP, its mask that block's lanes, and nothing is written. Lane k of a block writes word k of
the packed elements, the header, or zero. The expert form takes ILLEGAL_INSTR for a nonzero gB[63:16]. That all the lanes of
a block count as having raised its exception, and that the nonzero field is tested before the blocks' lanes, is the model's
choice (log 54). -/
def Obligations.BlockConversion : Prop :=
  (∀ (s : State) (u : Iss) (g : Guard) (l : BitVec 1) (d a b : BitVec 6) (sr : BitVec 2),
    let n := if l = 1 then 32 else 16
    let part := partLanes u.g u.f g
    let mixed := ∃ k < 32 / n, (∃ j < n, part.getLsbD (k * n + j) = true) ∧ ∃ j < n, part.getLsbD (k * n + j) = false
    let h := (gReg u.g b.toNat).toNat
    let outs := fun fmt conv =>
      (((List.range (32 / n)).map fun k => (List.range n).map fun j => k * n + j).filter fun b => b.all (part.getLsbD ·)).flatMap
        (blkOuts u n d a fmt conv)
    let fmt := match sr.toNat with | 0 => f32 | 1 => f16 | _ => bf16
    let completes := fun (o : List (Nat × LaneOut)) => moved u { wrote u.g o with fpsr := u.g.fpsr ||| raised o } s
    let trap := fun (o : List (Nat × LaneOut)) => terminate s u.gid .fpTrap u.f.pc u.word (trapped u o) 0
    (Issues (.cvtblk g l d a sr) s u →
      (mixed → exec (.cvtblk g l d a sr) s = .next (terminate s u.gid .illegalConvergence u.f.pc u.word 0 0)) ∧
      (¬mixed → trapped u (outs fmt cvtBlkBasic) = 0 →
        exec (.cvtblk g l d a sr) s = .next (completes (outs fmt cvtBlkBasic))) ∧
      (¬mixed → trapped u (outs fmt cvtBlkBasic) ≠ 0 →
        exec (.cvtblk g l d a sr) s = .next (trap (outs fmt cvtBlkBasic)))) ∧
    (Issues (.cvtblkX g l d a b) s u →
      (h < 65536 → ¬mixed → trapped u (outs f32 (cvtBlkExpert h)) = 0 →
        exec (.cvtblkX g l d a b) s = .next (completes (outs f32 (cvtBlkExpert h)))) ∧
      (h < 65536 → ¬mixed → trapped u (outs f32 (cvtBlkExpert h)) ≠ 0 →
        exec (.cvtblkX g l d a b) s = .next (trap (outs f32 (cvtBlkExpert h)))) ∧
      (h < 65536 → mixed → exec (.cvtblkX g l d a b) s = .next (terminate s u.gid .illegalConvergence u.f.pc u.word 0 0)) ∧
      (65536 ≤ h → exec (.cvtblkX g l d a b) s = .next (terminate s u.gid .illegalInstr u.f.pc u.word 0 0)))) ∧
  (∀ (u : Iss) (n : Nat) (d a : BitVec 6) (f : Fmt) (conv : List Nat → Nat × List Nat × Flags) (b : List Nat) (k i : Nat),
    b[k]? = some i →
    let r := conv (b.map fun i => widenCode f ((laneReg u.g i a.toNat).toNat % (2 * f.signBit)))
    let v := if k < n / 8 then ((List.range 8).map fun j => (r.2.1.getD (8 * k + j) 0) * 16 ^ j).sum
      else if k = n / 8 then r.1 else 0
    ∃ fl, (blkOuts u n d a f conv b)[k]? = some (i, ⟨[(d.toNat, BitVec.ofNat 32 v)], [], fl⟩))

/-- R77, R78, R138, R178: FDIV and FSQRT count in the clause's SA flag when they issue; the results, the flags and the trap
are fixed there. While an exception is enabled the fragment waits for the operation. A lane word that no lane takes only
moves on, and a flag that counts 63 keeps any of them from issuing. R178, R138: at completion the registers and %fpsr change
and the flag's count falls, or the operation takes FP_TRAP at its word, but for a gang that has ended (R362). -/
def Obligations.DivideAndRoot : Prop :=
  (∀ (i : Instr) (s : State) (u : Iss) (gd : Guard) (f : LaneIn → LaneOut),
     Issues i s u → divideResult i = some (gd, f) →
     let outs := results u gd f
     let o : Op := { u.op false .fdiv with
       out := outs.foldl (fun m p => p.2.wr.foldl (fun m w => smPut m (w.1 * 32 + p.1) w.2) m) []
       trap := trapped u outs, fl := raised outs }
     (outs = [] → smGet u.g.flags (u.flag false) 0 < 63 → exec i s = .next (moved u u.g s)) ∧
     (63 ≤ smGet u.g.flags (u.flag false) 0 → exec i s = .next s) ∧
     (outs ≠ [] → smGet u.g.flags (u.flag false) 0 < 63 →
       exec i s = .next { s with
         next := s.next + 1, ops := smPut s.ops s.next o
         gangs := smPut s.gangs u.gid { flagUp u.g (u.flag false) with
           frags := smPut u.g.frags u.e (if u.g.fpcr = 0 then u.f.step
             else { u.f.step with st := .blocked, wait := .op s.next }) } })) ∧
  (∀ (s : State) (k : Nat) (o : Op) (g : Gang) (f : Frag),
     smFind s.ops k = some o → o.kind = .fdiv → smFind s.gangs o.gid = some g → smFind g.frags o.entry = some f →
     let f' : Frag := if f.wait = .op k then { f with st := .ready, wait := .none } else f
     let g' : Gang := { flagDown g o.flag with frags := smPut g.frags o.entry f' }
     let s' : State := { s with ops := smDel s.ops k, gangs := smPut s.gangs o.gid g' }
     (o.trap = 0 → exec (.fdivFsqrtComplete k) s =
       .next { s' with gangs := smPut s.gangs o.gid { g' with
         v := o.out.foldl (fun v p => smSet v p.1 p.2 0) g.v, fpsr := g.fpsr ||| o.fl } }) ∧
     (o.trap ≠ 0 → g.ending = none →
       exec (.fdivFsqrtComplete k) s = .next (terminate s' o.gid .fpTrap o.pc o.word o.trap 0)) ∧
     (o.trap ≠ 0 → g.ending ≠ none → exec (.fdivFsqrtComplete k) s = .next s'))

/-! Control, divergence and convergence. -/

/-- R71, R86, R143, R144: NOP, jumps, calls and returns: where the fragment goes, the link register, and MISALIGNED at a
register target that is not a multiple of 4. R145, R360: TRAP parks the fragment at its word, the record's address holding
the immediate. R103, R104, R146: PAUSE and the end of its penalty, urgency, and the end of an idempotent region. -/
def Obligations.BranchesTrapAndPause : Prop :=
  ((∀ (s : State) (u : Iss), Issues .nop s u → exec .nop s = .next (moved u u.g s)) ∧
   (∀ (s : State) (u : Iss) (f : BitVec 20), Issues (.bra f) s u →
     exec (.bra f) s = .next (withFrag s u.gid u.g u.e (u.f.jump (u.f.pc + 4 * f.signExtend 64)))) ∧
   (∀ (s : State) (u : Iss) (p : BitVec 3) (n : BitVec 1) (f : BitVec 20), Issues (.brq p n f) s u →
     exec (.brq p n f) s = .next (withFrag s u.gid u.g u.e (u.f.jump
       (if (if n = 1 then !qBit u.g.q p.toNat else qBit u.g.q p.toNat) then u.f.pc + 4 * f.signExtend 64 else u.f.nextHdr)))) ∧
   (∀ (s : State) (u : Iss) (l : BitVec 3) (f : BitVec 20), Issues (.callG l f) s u →
     exec (.callG l f) s = .next (withFrag s u.gid (setGReg u.g (56 + l.toNat) u.f.nextHdr) u.e
       (u.f.jump (u.f.pc + 4 * f.signExtend 64)))) ∧
   (∀ (i : Instr) (s : State) (u : Iss) (g : Guard) (a : BitVec 6), (i = .brx g a ∨ i = .retG g a) → Issues i s u →
     guardQ u.g.q g = true →
     let t := gReg u.g a.toNat
     (t.toNat % 4 = 0 → exec i s = .next (withFrag s u.gid u.g u.e (u.f.jump t))) ∧
     (t.toNat % 4 ≠ 0 → exec i s = .next (terminate s u.gid .misaligned u.f.pc u.word 0 0)))) ∧
  (∀ (s : State) (u : Iss) (g : Guard) (k : BitVec 12), Issues (.trapG g k) s u → guardQ u.g.q g = true →
     exec (.trapG g k) s = .next (park s u.gid u.e .trap .trap u.f.pc u.word 0 (BitVec.ofNat 64 k.toNat))) ∧
  (∀ (s : State) (u : Iss) (n : BitVec 18), Issues (.pauseG n) s u →
    exec (.pauseG n) s = .next (withFrag s u.gid u.g u.e { u.f.step with penalty := n.toNat })) ∧
  (∀ (s : State) (gid e : Nat) (g : Gang) (f : Frag), smFind s.gangs gid = some g → smFind g.frags e = some f →
    exec (.pausePenaltyEnd gid e) s = .next (withFrag s gid g e { f with penalty := 0 }) ∧
    (32 ≤ f.bypass → exec (.fragmentUrgent gid e) s = .next (withFrag s gid g e { f with urgent := true }))) ∧
  (∀ (s : State) (u : Iss) (k : Nat) (w : Workgroup), Issues .idemend s u → u.g.wg = some k → smFind s.wgs k = some w →
    exec .idemend s = .next (moved u u.g
      (if u.g.idem then { s with wgs := smPut s.wgs k { w with regionEnded := true } } else s)))

/-- R110: DBR. Where every active lane takes the branch the fragment goes to the target, where none does to the next clause,
and a slice with lanes of both kinds pushes a divergence entry for those that do not take it. A fragment some of whose
slices go to the target and others to the next clause splits in two: the first keep its entry, the others are a new fragment
in the lowest FREE entry, with the same RPC and RV. That no penalty of a PAUSE runs in the new one is the model's choice
(log 51). -/
def Obligations.DivergentBranch : Prop :=
  (∀ (s : State) (u : Iss) (p : BitVec 3) (n : BitVec 1) (f : BitVec 20), Issues (.dbr p n f) s u →
    let act := activeLanes u.g u.f
    let tk := act &&& guardLanes u.g ⟨p, n⟩
    let four := fun (m : Lanes) (sl : Nat) => (m >>> (4 * sl)).setWidth 4
    u.f.smask ≠ 0 → (∀ sl ∈ bitList u.f.smask, four act sl ≠ 0#4) →
    (tk = act → exec (.dbr p n f) s = .next (withFrag s u.gid u.g u.e (u.f.jump (u.f.pc + 4 * f.signExtend 64)))) ∧
    (tk = 0 → exec (.dbr p n f) s = .next (withFrag s u.gid u.g u.e (u.f.jump u.f.nextHdr))) ∧
    ((∀ sl ∈ bitList u.f.smask, four tk sl ≠ 0#4 ∧ four (act &&& ~~~tk) sl ≠ 0#4 ∧ (stackOf u.g sl).length < 8) →
      ∃ g', exec (.dbr p n f) s = .next (s.setGang u.gid g') ∧
        g'.frags = smPut u.g.frags u.e (u.f.jump (u.f.pc + 4 * f.signExtend 64)) ∧ g'.v = u.g.v ∧ g'.g = u.g.g ∧
        g'.p = u.g.p ∧ g'.live = u.g.live ∧
        (∀ sl ∈ bitList u.f.smask, maskOf g' sl = four tk sl ∧
          stackOf g' sl = ⟨false, four (act &&& ~~~tk) sl, u.f.rpc, u.f.rv, u.f.nextHdr⟩ :: stackOf u.g sl) ∧
        (∀ sl, u.f.smask.getLsbD sl = false → stackOf g' sl = stackOf u.g sl)) ∧
    (let nt := act &&& ~~~tk
     let goes := fun sl : Nat => u.f.smask.getLsbD sl && (four nt sl == 0#4 || four tk sl != 0#4)
     ∀ e₂ < 8, smFind u.g.frags e₂ = none → (∀ k < e₂, (smFind u.g.frags k).isSome = true) →
       (∃ sl, goes sl = true) → (∃ sl ∈ bitList u.f.smask, goes sl = false) →
       (∀ sl ∈ bitList u.f.smask, four tk sl ≠ 0#4 → four nt sl ≠ 0#4 → (stackOf u.g sl).length < 8) →
       ∃ g' f₁ f₂, exec (.dbr p n f) s = .next (s.setGang u.gid g') ∧
         smFind g'.frags u.e = some f₁ ∧ { f₁ with smask := u.f.smask } = u.f.jump (u.f.pc + 4 * f.signExtend 64) ∧
         (∀ sl, f₁.smask.getLsbD sl = goes sl) ∧
         smFind g'.frags e₂ = some f₂ ∧ f₂.st = .ready ∧ f₂.pc = u.f.nextHdr ∧ f₂.hdr = u.f.nextHdr ∧ f₂.penalty = 0 ∧ f₂.rpc = u.f.rpc ∧
         f₂.rv = u.f.rv ∧ (∀ sl, f₂.smask.getLsbD sl = (u.f.smask.getLsbD sl && !goes sl)) ∧
         (∀ k, k ≠ u.e → k ≠ e₂ → smFind g'.frags k = smFind u.g.frags k) ∧
         g'.v = u.g.v ∧ g'.g = u.g.g ∧ g'.p = u.g.p ∧ g'.live = u.g.live ∧
         (∀ sl ∈ bitList u.f.smask, if four tk sl ≠ 0#4 ∧ four nt sl ≠ 0#4
           then maskOf g' sl = four tk sl ∧ stackOf g' sl = ⟨false, four nt sl, u.f.rpc, u.f.rv, u.f.nextHdr⟩ :: stackOf u.g sl
           else maskOf g' sl = maskOf u.g sl ∧ stackOf g' sl = stackOf u.g sl))) ∧
  (∀ (s : State) (r : Nat) (x : Run) (p : BitVec 3) (n : BitVec 1) (f : BitVec 20), RunIssues (.dbr p n f) s r x →
    let x' := if guardQ (runPred x) ⟨p, n⟩ then x.jump (x.pc + 4 * f.signExtend 64) else x.step
    exec (.dbr p n f) s = .next { s with runs := smPut s.runs r x' })

/-- R109: JOINAT pushes a join entry on each slice's stack and sets the fragment's reconvergence address. R111: a JOIN at
the reconvergence address by the gang's one fragment, whose slices' top entries are the join entries of that address: the
wait completes at once, each slice takes its entry's mask less exited lanes, and the fragment goes on after the JOIN with
the popped RPC and RV. R112: a REGANG by the gang's one fragment, with no reconvergence pending and empty stacks, completes
at once: the fragment goes on after it, and removals take effect: exited lanes leave the masks of what entries remain
(R114). A fragment that waited alone keeps a PAUSE that runs (R104). -/
def Obligations.JoinAndRegang : Prop :=
  (∀ (s : State) (u : Iss) (f : BitVec 20), Issues (.joinat f) s u →
     (∀ sl ∈ bitList u.f.smask, (stackOf u.g sl).length < 8) →
     let j := u.f.pc + 4 * f.signExtend 64
     ∃ g', exec (.joinat f) s = .next (s.setGang u.gid g') ∧
       g'.frags = smPut u.g.frags u.e { u.f.step with rpc := j, rv := true } ∧
       g'.mask = u.g.mask ∧ g'.live = u.g.live ∧ g'.v = u.g.v ∧ g'.g = u.g.g ∧ g'.spills = u.g.spills ∧
       (∀ sl ∈ bitList u.f.smask,
         stackOf g' sl = ⟨true, maskOf u.g sl, u.f.rpc, u.f.rv, j⟩ :: stackOf u.g sl) ∧
       (∀ sl, u.f.smask.getLsbD sl = false → stackOf g' sl = stackOf u.g sl)) ∧
  (∀ (s : State) (u : Iss) (gd : Guard) (r : B64) (v : Bool) (m : Nat → BitVec 4), Issues (.joinG gd) s u →
     guardQ u.g.q gd = true → u.g.frags = [(u.e, u.f)] → u.f.rv = true → u.f.hdr = u.f.rpc → u.f.pc = u.f.hdr + 4 →
     u.f.smask ≠ 0 → u.g.live ≠ 0 → u.g.spills = [] →
     (∀ sl ∈ bitList (laneSlices u.g.live), u.f.smask.getLsbD sl = true) →
     (∀ sl ∈ bitList u.f.smask, stackOf u.g sl = [⟨true, m sl, r, v, u.f.rpc⟩]) →
     ∃ g', exec (.joinG gd) s = .next (s.setGang u.gid g') ∧
       g'.frags = [(u.e, ⟨.ready, u.f.smask, u.f.nextHdr, r, v, u.f.nextHdr, none, u.f.penalty, 0, false, 0, .none⟩)] ∧
       g'.live = u.g.live ∧ g'.v = u.g.v ∧ g'.g = u.g.g ∧ g'.p = u.g.p ∧
       ∀ sl ∈ bitList u.f.smask, maskOf g' sl = m sl &&& liveOf u.g sl ∧ stackOf g' sl = []) ∧
  (∀ (s : State) (u : Iss) (gd : Guard), Issues (.regang gd) s u → guardQ u.g.q gd = true → u.g.frags = [(u.e, u.f)] →
     u.f.rv = false → u.g.live ≠ 0 → (∀ sl ∈ bitList u.f.smask, stackOf u.g sl = []) → u.f.smask ≠ 0 →
     let out := fun sl : Nat => (u.g.gone >>> (4 * sl)).setWidth 4
     ∃ g', exec (.regang gd) s = .next (s.setGang u.gid g') ∧ g'.gone = 0 ∧
       g'.frags = [(u.e,
         ⟨.ready, u.f.smask, u.f.nextHdr, u.f.rpc, u.f.rv, u.f.nextHdr, none, u.f.penalty, 0, false, 0, .none⟩)] ∧
       { g' with gone := u.g.gone, frags := u.g.frags, stk := u.g.stk, spills := u.g.spills } = u.g ∧
       ∀ sl < 8, stackOf g' sl = (stackOf u.g sl).map fun e => { e with lmask := e.lmask &&& ~~~(out sl) })

/-- R107, R108: spilling. A push by JOINAT or DBR onto a slice's full stack of 8 first writes the stack's bottom entry to
the lowest record with V = 0, its DEPTH the slice's spill count; a push that would need a record where none is free, or
where the slice's count is 256, takes DIVERGENCE_OVERFLOW, with no effect. A pop that leaves a slice's stack empty moves
back the record of that slice with DEPTH = count - 1 and clears its V: here at a JOIN that completes at once. That slices
which spill at once take the free records in ascending order is the model's choice (log 62). -/
def Obligations.StackSpills : Prop :=
  (∀ (s : State) (u : Iss),
    let full := fun sls : List Nat => sls.filter fun sl => decide (8 ≤ (stackOf u.g sl).length)
    let free := (List.range u.g.spillN).filter fun k => (smFind u.g.spills k).isNone
    let count := fun sl : Nat => (u.g.spills.filter fun p => p.2.slice == sl).length
    let overflows := fun sls : List Nat => full sls ≠ [] ∧
      (u.g.spillN < List.length u.g.spills + (full sls).length ∨ ∃ sl ∈ full sls, 256 ≤ count sl)
    let spilled := fun (sls : List Nat) (entry : Nat → SEntry) (g' : Gang) =>
      (∀ sl ∈ sls, stackOf g' sl = entry sl :: if 8 ≤ (stackOf u.g sl).length then (stackOf u.g sl).dropLast else stackOf u.g sl) ∧
      (∀ sl, sl ∉ sls → stackOf g' sl = stackOf u.g sl) ∧
      (∀ (i k sl : Nat) (b : SEntry), (full sls)[i]? = some sl → free[i]? = some k → (stackOf u.g sl).getLast? = some b →
        smFind g'.spills k = some ⟨sl, count sl, b⟩) ∧
      (∀ k, k ∉ free.take (full sls).length → smFind g'.spills k = smFind u.g.spills k)
    let ends := terminate s u.gid .divergenceOverflow u.f.pc u.word 0 0
    (∀ f : BitVec 20, Issues (.joinat f) s u →
      let sls := bitList u.f.smask
      let j := u.f.pc + 4 * f.signExtend 64
      (overflows sls → exec (.joinat f) s = .next ends) ∧
      (¬overflows sls → ∃ g', exec (.joinat f) s = .next (s.setGang u.gid g') ∧
        spilled sls (fun sl => ⟨true, maskOf u.g sl, u.f.rpc, u.f.rv, j⟩) g' ∧
        { g' with stk := u.g.stk, spills := u.g.spills } =
          { u.g with frags := smPut u.g.frags u.e { u.f.step with rpc := j, rv := true } })) ∧
    (∀ (p : BitVec 3) (n : BitVec 1) (f : BitVec 20), Issues (.dbr p n f) s u →
      let act := activeLanes u.g u.f
      let tk := act &&& guardLanes u.g ⟨p, n⟩
      let four := fun (m : Lanes) (sl : Nat) => (m >>> (4 * sl)).setWidth 4
      let sls := (bitList u.f.smask).filter fun sl => four tk sl != 0#4 && four (act &&& ~~~tk) sl != 0#4
      (overflows sls → exec (.dbr p n f) s = .next ends) ∧
      (¬overflows sls → ∃ g', exec (.dbr p n f) s = .next (s.setGang u.gid g') ∧
        spilled sls (fun sl => ⟨false, four (act &&& ~~~tk) sl, u.f.rpc, u.f.rv, u.f.nextHdr⟩) g' ∧
        { g' with frags := u.g.frags, stk := u.g.stk, spills := u.g.spills, mask := u.g.mask } = u.g))) ∧
  (∀ (s : State) (u : Iss) (gd : Guard) (sl k n : Nat) (m : BitVec 4) (r : B64) (v : Bool) (b : SEntry),
    Issues (.joinG gd) s u → guardQ u.g.q gd = true → u.g.frags = [(u.e, u.f)] → u.f.rv = true → u.f.hdr = u.f.rpc →
    u.f.pc = u.f.hdr + 4 → sl < 8 → u.f.smask = 1#8 <<< sl → u.g.live ≠ 0 → u.g.gone = 0 →
    (∀ l ∈ bitList (laneSlices u.g.live), l = sl) →
    stackOf u.g sl = [⟨true, m, r, v, u.f.rpc⟩] → (u.g.spills.filter fun p => p.2.slice == sl).length = n + 1 →
    smKeys (fun _ x => x.slice == sl && x.depth == n) u.g.spills = [k] → smFind u.g.spills k = some ⟨sl, n, b⟩ →
    ∃ g', exec (.joinG gd) s = .next (s.setGang u.gid g') ∧ stackOf g' sl = [b] ∧ g'.spills = smDel u.g.spills k ∧
      maskOf g' sl = m &&& liveOf u.g sl ∧ (∀ l, l ≠ sl → stackOf g' l = stackOf u.g l) ∧
      g'.frags = [(u.e, ⟨.ready, u.f.smask, u.f.nextHdr, r, v, u.f.nextHdr, none, u.f.penalty, 0, false, 0, .none⟩)])

/-- R114, R115, R288, R295: EXITL ends lanes; EXIT ends the gang, as EXITL does when no live lane remains; an executor's
EXITL ends its run; and a gang that has ended, its flags clear, is released, once the map accesses to it that had been
accepted are performed (R382). -/
def Obligations.Exits : Prop :=
  (∀ (s : State) (u : Iss) (gd : Guard), Issues (.exitl gd) s u → u.g.frags = [(u.e, u.f)] → u.f.st = .ready →
    let out := partLanes u.g u.f gd
    (u.f.smask ≠ 0 → (∀ sl ∈ bitList u.f.smask, ((u.g.mask &&& u.g.live &&& ~~~out) >>> (4 * sl)).setWidth 4 ≠ 0#4) →
      exec (.exitl gd) s = .next (s.setGang u.gid { u.g with
        live := u.g.live &&& ~~~out, gone := u.g.gone ||| out, mask := u.g.mask &&& ~~~out
        frags := [(u.e, u.f.step)] })) ∧
    (u.g.live &&& ~~~out = 0 → u.g.ending = none → ∃ t g', exec (.exitl gd) s = .next t ∧
      smFind t.gangs u.gid = some g' ∧ g'.ending = some .exit ∧ g'.live = 0)) ∧
  (∀ (s : State) (u : Iss) (gd : Guard), Issues (.exitG gd) s u → guardQ u.g.q gd = true → u.g.ending = none →
    (∀ p ∈ s.ops, p.2.gid = u.gid → p.2.parked = false) →
    exec (.exitG gd) s = .next (s.setGang u.gid { u.g with ending := some .exit })) ∧
  (∀ (s : State) (r : Nat) (x : Run) (gd : Guard), RunIssues (.exitl gd) s r x → guardQ (runPred x) gd = true →
    exec (.exitl gd) s = .next { s with runs := smPut s.runs r { x with wait := .release (some .ended) } }) ∧
  (∀ (s : State) (gid : Nat) (g : Gang), smFind s.gangs gid = some g → g.ending ≠ none → (∀ p ∈ g.flags, p.2 = 0) →
    let t := redoAll s
    (mapPending t g = false → exec (.gangEnd gid) s = .next (retireGang t gid g)) ∧
    (mapPending t g = true → exec (.gangEnd gid) s = .next t) ∧
    ((∀ p ∈ s.ops, p.2.todo = []) → (∀ p ∈ s.copies, p.2.moved = []) → t = s ∧ mapPending t g = false) ∧
    smFind (retireGang s gid g).gangs gid = none)

/-- R116: GFUSE by a gang of one whole fragment enters FUSEWAIT, its removals applied; while no other gang waits so, it goes
on waiting. R116: two gangs that name each other, with opposite roles, one mask and clear flags, complete: lanes move from
the donor's live positions to the receiver's free ones, and each gang goes on as one fragment of its live slices with the
count of its live lanes in its register. A gang whose partner is not there goes on with no movement. R116: what moves: the
receiver's live lanes are those it had and as many of its free positions, lowest first, as the donor has live lanes; a lane
that moves brings the registers of the mask (the others become zero), its predicates and its %owid; the donor keeps the
rest, compacted low, with all they hold; and a donor left with no live lane ends as by EXIT. A gang that has ended moves
nothing (R362). -/
def Obligations.Fusion : Prop :=
  (∀ (i : Instr) (s : State) (u : Iss) (gd : Guard) (rcv : Bool) (d a b : BitVec 6),
     (i = .gfuseRcv gd d a b ∧ rcv = true ∨ i = .gfuseDon gd d a b ∧ rcv = false) → Issues i s u →
     guardQ u.g.q gd = true → (gReg u.g a.toNat).toNat < 2 ^ u.g.regs → u.g.frags = [(u.e, u.f)] →
     u.f.rv = false → (∀ sl < 8, allEntries u.g sl = []) → u.g.mask &&& u.g.live = u.g.live → (gReg u.g b.toNat).toNat ≠ u.g.f1 →
     (∀ p ∈ s.gangs, if p.1 = u.gid then p.2 = u.g else fuseOf p.2 = none) →
     ∃ g', exec i s = .next (s.setGang u.gid g') ∧ g'.gone = 0 ∧ (∀ sl < 8, stackOf g' sl = []) ∧
       { g' with gone := u.g.gone, stk := u.g.stk, frags := u.g.frags } = u.g ∧
       g'.frags = [(u.e, { u.f with
         st := .fuseWait, wait := .fuse rcv (gReg u.g a.toNat) (gReg u.g b.toNat) d.toNat })]) ∧
  ((∀ (s : State) (a b : Nat) (r d : Gang) (e e' : Nat) (f f' : Frag) (m p p' : B64) (x y : Nat),
     a ≠ b → smFind s.gangs a = some r → smFind s.gangs b = some d →
     r.frags = [(e, f)] → f.wait = .fuse true m p x → d.frags = [(e', f')] → f'.wait = .fuse false m p' y →
     partner s r p = some b → partner s d p' = some a → (∀ q ∈ r.flags, q.2 = 0) → (∀ q ∈ d.flags, q.2 = 0) →
     let s₁ := (s.setGang a (fusedGang (fuseMove r d m).1 e f x)).setGang b (fusedGang (fuseMove r d m).2 e' f' y)
     (r.ending = none → d.ending = none → (fuseMove r d m).2.live ≠ 0 → exec (.gfuseComplete a b) s = .next s₁) ∧
     (r.ending = none → d.ending = none → (fuseMove r d m).2.live = 0 → ∃ t g', exec (.gfuseComplete a b) s = .next t ∧
       smFind t.gangs b = some g' ∧ g'.ending = some .exit ∧ smFind t.gangs a = some (fusedGang (fuseMove r d m).1 e f x)) ∧
     (r.ending ≠ none ∨ d.ending ≠ none → exec (.gfuseComplete a b) s = .next s)) ∧
   (∀ (s : State) (a : Nat) (r : Gang) (e : Nat) (f : Frag) (rcv : Bool) (m p : B64) (x : Nat),
     smFind s.gangs a = some r → r.frags = [(e, f)] → f.wait = .fuse rcv m p x → r.ending = none →
     (∀ q, partner s r p = some q → ∃ y, smFind s.gangs q = some y ∧ y.ending ≠ none) →
     exec (.gfuseComplete a a) s = .next (s.setGang a (fusedGang r e f x)))) ∧
  (∀ (r d : Gang) (m : B64),
     let k := min (32 - popCount r.live) (popCount d.live)
     let free := bitList (~~~r.live)
     let src := bitList d.live
     let r' := (fuseMove r d m).1
     let d' := (fuseMove r d m).2
     (∀ l < 32, r'.live.getLsbD l = (r.live.getLsbD l || (free.take k).contains l)) ∧
     (∀ l < 32, d'.live.getLsbD l = decide (l < popCount d.live - k)) ∧
     (∀ l, r.live.getLsbD l = true → (∀ n, laneReg r' l n = laneReg r l n) ∧ smGet r'.owid l 0 = smGet r.owid l 0 ∧
       ∀ n, (predMask r' n).getLsbD l = (predMask r n).getLsbD l) ∧
     (∀ j < k, smGet r'.owid (free.getD j 0) 0 = smGet d.owid (src.getD j 0) 0 ∧
       (∀ n < 7, (predMask r' n).getLsbD (free.getD j 0) = (predMask d n).getLsbD (src.getD j 0)) ∧
       ∀ n < r.regs, laneReg r' (free.getD j 0) n = if m.getLsbD n then laneReg d (src.getD j 0) n else 0) ∧
     (∀ j < popCount d.live - k, smGet d'.owid j 0 = smGet d.owid (src.getD (k + j) 0) 0 ∧
       (∀ n < 7, (predMask d' n).getLsbD j = (predMask d n).getLsbD (src.getD (k + j) 0)) ∧
       ∀ n < min 64 d.regs, laneReg d' j n = laneReg d (src.getD (k + j) 0) n))

/-! Barriers. -/

/-- R244 to R247: the barrier words, on an address that is aligned and within SCRATCH: what each makes of the sixteen bytes;
MISALIGNED and PERMISSION otherwise. R244, R245: a barrier's bytes read back as an act wrote them, no other byte of the
workgroup's scratchpad changes, a plain store that touches a live barrier spoils it and a BARINIT mends it (what a spoilt
barrier holds is a free value, log 32), and a fragment that finds the phase flipped drops its core's self-invalidating lines
(R248; that this is how it sees the copied bytes is the model's, log 41). The flip happens when every expected arrival and
byte has been counted: counts return to zero, the expected arrivals stay, and the phase changes. BARWAIT, BARTRY and YIELD
are acts too: after one that finds a barrier full (as a plain store can leave one that is not live) it flips, and those that
wait go on. -/
def Obligations.BarrierWords : Prop :=
  (∀ (s : State) (u : Iss) (gd : Guard) (x y z : BitVec 6) (q : BitVec 3), guardQ u.g.q gd = true →
     let a := (gReg u.g x.toNat).toNat
     let wg := u.g.wg.getD 0
     let n := (gReg u.g y.toNat).toNat
     let ph := (gReg u.g y.toNat).getLsbD 0
     let t := gReg u.g z.toNat
     let v := barGet s wg a
     let d := barDraw s wg a
     let seen := acquireSi d u.g.core
     let ok := a % 16 = 0 ∧ a < 2 ^ 32 ∧ a + 16 ≤ u.g.scratchN
     (Issues (.barinit gd x y) s u → ok → 1 ≤ n → n ≤ 65535 → exec (.barinit gd x y) s =
       .next (u.adv (barAct (barFresh s wg a) wg a (n * 2 ^ 64)))) ∧
     (Issues (.barexp gd x y) s u → ok → bExpb v + n < 2 ^ 32 → exec (.barexp gd x y) s =
       .next (u.adv (barAct s wg a (setFld v 0 32 (bExpb v + n))))) ∧
     (Issues (.barexpArv gd x y) s u → ok → bExpb v + n < 2 ^ 32 → bArra v < bExpa v → exec (.barexpArv gd x y) s =
       .next (u.adv (barAct s wg a (setFld (setFld v 0 32 (bExpb v + n)) 80 16 (bArra v + 1))))) ∧
     (Issues (.bararv gd x z) s u → ok → bArra v < bExpa v → exec (.bararv gd x z) s =
       .next (u.adv (barAct (s.setGang u.gid (setGReg u.g z.toNat (if bPh v then 1 else 0))) wg a
         (setFld v 80 16 (bArra v + 1))))) ∧
     (Issues (.barwait gd x y) s u → ok → bErr v = false → exec (.barwait gd x y) s =
       .next (barSettle (if bPh v = ph then withFrag d u.gid u.g u.e { u.f with st := .blocked, wait := .barrier a ph u.f.pc u.word }
         else withFrag seen u.gid u.g u.e (Frag.resume { u.f with st := .blocked, wait := .barrier a ph u.f.pc u.word })) wg a)) ∧
     (Issues (.yieldG gd x y z) s u → ok → bErr v = false → barFlip v = v → barSpoilt s wg a = false → t.toNat % 4 = 0 → exec (.yieldG gd x y z) s =
       .next (barSettle (if bPh v = ph
         then withFrag d u.gid u.g u.e { u.f.jump t with st := .blocked, wait := .barrier a ph u.f.pc u.word }
         else withFrag seen u.gid u.g u.e { u.f.jump t with st := .ready, wait := .none }) wg a)) ∧
     (Issues (.bartry gd x y q) s u → ok → bErr v = false → exec (.bartry gd x y q) s =
       .next (barSettle (withFrag (if bPh v = ph then d else seen) u.gid (setQReg u.g q.toNat (bPh v != ph)) u.e
         { u.f.step with st := .ready, wait := .none }) wg a)) ∧
     (∀ i, (i = .barinit gd x y ∨ i = .barexp gd x y ∨ i = .barexpArv gd x y ∨ i = .bararv gd x z ∨ i = .barwait gd x y ∨
         i = .bartry gd x y q ∨ i = .yieldG gd x y z) → Issues i s u →
       (a % 16 ≠ 0 → exec i s = .next (terminate s u.gid .misaligned u.f.pc u.word 0 (gReg u.g x.toNat))) ∧
       (a % 16 = 0 → u.g.scratchN < a + 16 →
         exec i s = .next (terminate s u.gid .permission u.f.pc u.word 0 (gReg u.g x.toNat))))) ∧
  (∀ (s : State) (wg a v : Nat) (w : Workgroup), smFind s.wgs wg = some w → v < 2 ^ 128 →
    (barSpoilt s wg a = false → barGet (barPut s wg a v) wg a = v) ∧
    (∀ b, (b < a ∨ a + 16 ≤ b) → (readScratch (barPut s wg a v) wg b 1).data = (readScratch s wg b 1).data) ∧
    barSpoilt (barFresh s wg a) wg a = false ∧
    (barSpoilt s wg a = false → barFlip (barGet s wg a) = barGet s wg a → barSettle s wg a = s) ∧
    (barFlip (barGet s wg a) ≠ barGet s wg a → barSettle s wg a = barAct s wg a (barGet s wg a)) ∧
    ∀ b bs, (smFind w.bars a).isSome = true → b < a + 16 → a < b + bs.length → barSpoilt (writeScratch s wg b bs) wg a = true) ∧
  (∀ v < 2 ^ 128,
    let full := bExpa v ≠ 0 ∧ bExpa v ≤ bArra v ∧ bExpb v ≤ bArrb v
    (full → bExpb (barFlip v) = 0 ∧ bArrb (barFlip v) = 0 ∧ bArra (barFlip v) = 0 ∧ bExpa (barFlip v) = bExpa v ∧
      bPh (barFlip v) = !bPh v ∧ bErr (barFlip v) = bErr v) ∧
    (¬full → barFlip v = v))

/-! Memory words. -/

/-- R221, R227, R229, R233 to R236, R292: a global memory word of a fragment asks for one access in each participating lane,
at the address its registers give when it issues; an executor asks for one in its single lane, and a false guard only moves
the run on. That an access is performed at issue is the model's (log 6). -/
def Obligations.GlobalMemoryWords : Prop :=
  ∀ (i : Instr) (s : State) (gd : Guard) (m : MDesc) (a c : BitVec 6) (sub : Bool),
    memoryWord i = some (gd, m, a, c, sub) →
    (∀ u, Issues i s u →
      let m' : MDesc := { m with hint := if m.form = .plain then u.g.hint.toNat else 1, stream := u.g.stream.toNat }
      exec i s = .next (memFrag m' ((bitList (partLanes u.g u.f gd)).map fun l =>
        mkReq m' (laneReg u.g l) l (addrOf (laneReg u.g l) a c m.size) 0) u s)) ∧
    (sub = true → ∀ r x, RunIssues i s r x →
      (guardQ (runPred x) gd = true → exec i s = .next (runAccess r m
        (mkReq m (runReg x) 0 (addrOf (runReg x) a c m.size) 0) x (BitVec.ofNat 32 (encode i)) s)) ∧
      (guardQ (runPred x) gd = false → exec i s = .next (movedRun r x s)))

/-- R156, R228, R341: scratchpad, remote and uniform words ask for their accesses in the same way; a remote word that some
lane takes touches the dies of the fabric (R55). That an access is performed at issue is the model's (log 6). -/
def Obligations.OtherMemoryWords : Prop :=
  (∀ (i : Instr) (s : State) (u : Iss) (gd : Guard) (m : MDesc) (a c : BitVec 6),
    Issues i s u → scratchOf i = some (gd, m, a, c) →
    exec i s = .next (memFrag m ((bitList (partLanes u.g u.f gd)).map fun l =>
      mkReq m (laneReg u.g l) l (BitVec.ofNat 64 (scratchAddr u.g l a c m.size)) 0) u s)) ∧
  (∀ (i : Instr) (s : State) (u : Iss) (gd : Guard) (m : MDesc) (a c : BitVec 6) (v : Bool),
    Issues i s u → remoteOf i = some (gd, m, a, c, v) →
    let m' : MDesc := { m with stream := u.g.stream.toNat }
    let qs := (bitList (partLanes u.g u.f gd)).map fun l =>
      mkReq m' (laneReg u.g l) l (laneReg u.g l (a.toNat + 1) ++ laneReg u.g l a.toNat)
        (if v then (laneReg u.g l c.toNat).toNat else (gReg u.g c.toNat).toNat)
    exec i s = .next (memFrag m' qs u (if qs = [] then s else touch s u.g.ctx (0x300000 &&& s.plat.live)))) ∧
  (∀ (i : Instr) (s : State) (u : Iss) (gd : Guard) (m : MDesc) (a c : BitVec 6),
    Issues i s u → uniformOf i = some (gd, m, a, c) → guardQ u.g.q gd = true →
    let m' : MDesc := { m with hint := u.g.hint.toNat, stream := u.g.stream.toNat }
    exec i s = .next (memFrag m' [⟨0, gReg u.g a.toNat + BitVec.ofInt 64 (c.toInt * m.size), gReg u.g m.d, 0, 0⟩] u s))

/-- R78, R222 to R224, R336, R342: what the issue of a memory word does: a flag that counts 63 keeps it from issuing, and so
does a counted write that would raise a pair's write count above 2^30 (of the lanes that the checks let go, up to the first
peer where they fail); with no participating lane it only moves on; a fault of steps 2 or 3 ends the workgroup, but that a
remote word whose lowest peer's pair is refused leaves every lane unperformed, the fragment waiting to park; otherwise the
operation is counted and started, and the fragment moves on, waiting while something of it is unfinished. A word none of
whose pairs would pass the bound is not held back by it. That the operation starts its accesses at issue is the model's (log
6), and so is that the fragment of a remote word is held until its responses have come (log 12). -/
def Obligations.MemoryIssue : Prop :=
  ∀ (m : MDesc) (qs : List LaneReq) (u : Iss) (s : State),
    smFind s.gangs u.gid = some u.g → smFind u.g.frags u.e = some u.f →
    let room := smGet u.g.flags (u.flag m.isSb) 0 < 63
    let past := pastBound s u.g m qs
    let o := u.op m.isSb (.mem m)
    ((¬room ∨ past = true) → memFrag m qs u s = s) ∧
    (qs = [] → room → memFrag m qs u s = moved u u.g s) ∧
    (qs ≠ [] → room → past = false → m.space ≠ .remote →
      (∀ c mask a pk, steps23 s u.g m qs = some (c, mask, a, pk) →
        memFrag m qs u s = terminate s u.gid c u.f.pc u.word (if m.uniform then 0 else mask) a) ∧
      (steps23 s u.g m qs = none → memFrag m qs u s = holdFor s.next
        (u.adv (startLanes m s.next u.g qs (opened s u { o with deadline := stallEnd s u.g m }))))) ∧
    (qs ≠ [] → room → past = false → m.space = .remote →
      let s' := u.adv (opened s u { o with todo := qs })
      memFrag m qs u s = holdFor s.next (remoteStep m s.next 33 s') ∧
      ∀ q ∈ qs, (∀ x ∈ qs, q.peer % 512 ≤ x.peer % 512) → ∀ g c mask a, smFind s'.gangs u.gid = some g →
        steps23 s' g m (qs.filter fun x => x.peer % 512 == q.peer % 512) = some (c, mask, a, true) →
        memFrag m qs u s = (s'.setOp s.next { o with bad := qs.map fun x => ⟨x, c, a, true⟩ }).adjFrag u.gid u.e fun f =>
          { f with st := .blocked, wait := .op s.next }) ∧
    ((m.dir = .load ∨ qs = [] ∨ ∀ p e, smFind s.fab.send (pairKey u.g.ctx m.stream p) = some e →
        e.wc.toNat + (qs.filterMap (countedPeer s u.g m)).count p ≤ 2 ^ 30) → past = false) ∧
    (m.space = .remote → m.dir ≠ .load → (∀ c, m.form ≠ .cctl c) → (∀ n, m.form ≠ .grid n) → lostDies s 0x300000 = false →
      ∀ q ∈ qs, ∀ e, smFind s.fab.send (pairKey u.g.ctx m.stream (q.peer % 512)) = some e →
      (∀ x ∈ qs, x.peer % 512 ≤ q.peer % 512 → x.va.toNat % m.size = 0 ∧
        peerCheck s u.g.ctx m.stream true (BitVec.ofNat 64 x.peer) x.va = none) →
      2 ^ 30 < e.wc.toNat + (qs.filter fun x => x.peer % 512 == q.peer % 512).length → past = true)

/-- R223, R227, R228: a scratchpad load whose lanes are aligned, within SCRATCH and not poisoned performs every lane at
issue: the results wait in the operation for its completion, and nothing else changes but the flag and the fragment. A
scratchpad store whose lanes are aligned and within SCRATCH performs every lane at issue: a byte that one lane stores to
holds that lane's byte, a byte that none stores to is as before, and so is the memory behind the caches, every register and
every other workgroup. That the access is performed at issue is the model's (log 6). -/
def Obligations.ScratchpadWords : Prop :=
  (∀ (i : Instr) (s : State) (u : Iss) (gd : Guard) (m : MDesc) (a c : BitVec 6) (w : Nat) (x : Workgroup),
     Issues i s u → scratchOf i = some (gd, m, a, c) → m.dir = .load → u.g.wg = some w → smFind s.wgs w = some x →
     let ls := bitList (partLanes u.g u.f gd)
     ls ≠ [] → smGet u.g.flags (u.flag false) 0 < 63 →
     (∀ l ∈ ls, scratchAddr u.g l a c m.size % m.size = 0 ∧ scratchAddr u.g l a c m.size + m.size ≤ u.g.scratchN) →
     (∀ k, smGet s.mem.poison (scratchMark w k) false = false) →
     exec i s = .next (moved u (flagUp u.g (u.flag false)) { s with
       next := s.next + 1
       ops := smPut s.ops s.next { u.op false (.mem m) with
         out := ls.foldl (fun out l => (loadWords m (readBytes x.scratch (scratchAddr u.g l a c m.size) m.size)).foldl
           (fun out w => smPut out (w.1 * 32 + l) w.2) out) [] } })) ∧
  (∀ (i : Instr) (s : State) (u : Iss) (gd : Guard) (m : MDesc) (a c : BitVec 6) (w : Nat) (x : Workgroup),
     Issues i s u → scratchOf i = some (gd, m, a, c) → m.dir = .store → u.g.wg = some w → smFind s.wgs w = some x →
     let ls := bitList (partLanes u.g u.f gd)
     let at_ := fun l => scratchAddr u.g l a c m.size
     let data := fun l => toBytes m.size ((List.range (max 1 (m.size / 4))).map fun k =>
       (laneReg u.g l (m.d + k)).toNat * 2 ^ (32 * k)).sum
     ls ≠ [] → smGet u.g.flags (u.flag true) 0 < 63 → (∀ l ∈ ls, at_ l % m.size = 0 ∧ at_ l + m.size ≤ u.g.scratchN) →
     ∃ t x', exec i s = .next t ∧ smFind t.wgs w = some x' ∧
       (∀ b, (∀ l ∈ ls, b < at_ l ∨ at_ l + m.size ≤ b) → readByte x'.scratch b = readByte x.scratch b) ∧
       (∀ l ∈ ls, ∀ k < m.size, (∀ l' ∈ ls, l' ≠ l → at_ l + k < at_ l' ∨ at_ l' + m.size ≤ at_ l + k) →
         some (readByte x'.scratch (at_ l + k)) = (data l)[k]?) ∧
       (∀ v, v ≠ w → smFind t.wgs v = smFind s.wgs v) ∧ t.mem.frames = s.mem.frames ∧ t.mem.l1 = s.mem.l1 ∧
       t.mem.l2 = s.mem.l2 ∧ t.gangs = (moved u (flagUp u.g (u.flag true)) s).gangs ∧
       smFind t.ops s.next = some { u.op true (.mem m) with
         did := ls.map fun l => mkReq m (laneReg u.g l) l (BitVec.ofNat 64 (at_ l)) 0 })

/-- R193, R196: through a core's L1, on a directory-tracked page: a store reads back, every other byte of the line is as the
core's own copy had it, else as the copy of another core that had written it, else as the home line, the frame beneath is
not written, no other line changes, and no other core keeps a copy that the directory tracks. R198, R292: an access at the
frame reads the bytes there, a store there reads back, and every other byte is as before. R195, R199: a line that comes to a
set shares its way with compressed lines only, and takes another's place only where no way is free: that of the least
recently used line of the lowest priority. The explicit lines, which lines make a set, and how near a line's words are taken
to be, are the model's (logs 6, 36, 56). -/
def Obligations.CachesAndFrames : Prop :=
  (∀ (m : Mem) (l : L2Line) (core ia key : Nat) (bs : List Byte),
     l.bytes.length = 128 → (∀ x, smFind m.l1 (lineKey core (ia / 128)) = some x → x.bytes.length = 128) →
     ia % 128 + bs.length ≤ 128 → ia / 128 < 2 ^ 45 →
     let r := (coreAccess m l 0 core ia bs.length key (.store bs)).1
     (∀ l' cls, (coreAccess r l' cls core ia bs.length key .load).2.data = bs) ∧
     (∀ j < 128, (j < ia % 128 ∨ ia % 128 + bs.length ≤ j) →
       let mine := lineKey core (ia / 128)
       let theirs := fun (p : Nat × L1Line) => keyLine p.1 = ia / 128 ∧ keyUnit p.1 ≠ core ∧ p.2.si = false ∧
         l.dir.getLsbD (keyUnit p.1 / 8) = true ∧ p.2.dirty.getLsbD j = true
       ∃ y, smFind r.l1 mine = some y ∧
         (∀ x, smFind m.l1 mine = some x → y.bytes[j]? = x.bytes[j]?) ∧
         (smFind m.l1 mine = none → (∀ p ∈ m.l1, ¬theirs p) → y.bytes[j]? = l.bytes[j]?) ∧
         (smFind m.l1 mine = none → ∀ p ∈ m.l1, theirs p → p.2.bytes.length = 128 → (∀ q ∈ m.l1, theirs q → q = p) →
           y.bytes[j]? = p.2.bytes[j]?)) ∧
     r.frames = m.frames ∧
     (∀ k, keyLine k ≠ ia / 128 → smFind r.l1 k = smFind m.l1 k) ∧ (∀ k, k ≠ key → smFind r.l2 k = smFind m.l2 k) ∧
     (∀ k x, smFind r.l1 k = some x → keyLine k = ia / 128 → keyUnit k ≠ core → x.si = false →
       l.dir.getLsbD (keyUnit k / 8) = false)) ∧
  (∀ (m : Mem) (pa n : Nat) (bs : List Byte),
     (onFrame m pa n .load).1 = m ∧ (onFrame m pa n .load).2.data = readBytes m.frames pa n ∧
     ∀ a, readByte (onFrame m pa bs.length (.store bs)).1.frames a =
       if pa ≤ a ∧ a < pa + bs.length then bs.getD (a - pa) 0 else readByte m.frames a) ∧
  (∀ (m : Mem) (key : Nat) (l : L2Line),
     let x := wayFor m key l
     let set := setMates m key
     (∀ p ∈ set, p.2.way = x.1 → p.1 ∈ x.2 ∨ (compressible l = true ∧ compressible p.2 = true)) ∧
     (∀ v vs, x.2 = v :: vs → (∀ w < 16, ∃ p ∈ set, p.2.way = w) ∧ ∃ y, (v, y) ∈ set ∧ y.way = x.1 ∧
       ∀ q ∈ set, y.prio < q.2.prio ∨ (y.prio = q.2.prio ∧ y.stamp ≤ q.2.stamp)))

/-- R193, R196, R198, R203, R206, R222 to R224, R227: one lane of a global load or store, from its address to the bytes. The
address is translated through the context's windows and the page looked up by the home slice; on an uncached page the access
is at the frame; on a cached one a load that its core's L1 holds is served there, and any other access goes through the home
line, brought to its set where it is absent, and through the L1 as R196 says. A load's words wait in the operation for its
completion, or where a granule is poisoned, DATA_POISON at its first poisoned byte; a store leaves the bytes of its
registers. An access that would reach a bank under refresh waits, and its fragment with it. That an access is performed at
issue, and when a line that has outgrown its way moves, are the model's (logs 6, 36). -/
def Obligations.GlobalLane : Prop :=
  ∀ (i : Instr) (s s₁ : State) (u : Iss) (gd : Guard) (m₀ : MDesc) (a c : BitVec 6) (sub : Bool) (l ia home : Nat) (p : Page),
    Issues i s u → memoryWord i = some (gd, m₀, a, c, sub) → m₀.form = .plain → bitList (partLanes u.g u.f gd) = [l] →
    let m : MDesc := { m₀ with hint := u.g.hint.toNat, stream := u.g.stream.toNat }
    let n := m.size
    let va := (laneReg u.g l (a.toNat + 1) ++ laneReg u.g l a.toNat) + BitVec.ofInt 64 (c.toInt * n)
    let q := mkReq m (laneReg u.g l) l va 0
    let k := s.next
    let key := homeKey ia home
    smGet u.g.flags (u.flag m.isSb) 0 < 63 → pastBound s u.g m [q] = false → s.mem.waiting = [] → va.toNat % n = 0 →
    translate (s.winOf u.g.ctx) va.toNat m.kind = .ok (ia, home) → isMap ia = false →
    lookup (opened s u (u.op m.isSb (.mem m))) (keyUnit key) u.g.ten ia m.kind = .ok (s₁, p) → p.st < 2 →
    lostDies s₁ (pageDies s₁.pf p) = false →
    let s₂ := touch s₁ u.g.ctx (pageDies s₁.pf p)
    let bs := toBytes n ((List.range (max 1 (n / 4))).map fun j => (laneReg u.g l (m.d + j)).toNat * 2 ^ (32 * j)).sum
    let blocked := fun t : State => Host.Outcome.next (State.adjFrag (u.adv t) u.gid u.e fun f =>
      { f with st := .blocked, wait := .op k })
    let loads := fun (t : State) (f : Found) => m.dir = .load →
      (f.psn = none → exec i s = .next (u.adv (t.adjOp k fun o => { o with
        out := (loadWords m f.data).foldl (fun out w => smPut out (w.1 * 32 + l) w.2) o.out }))) ∧
      (∀ j, f.psn = some j → exec i s = blocked (State.adjOp { t with free := t.free + 32 } k fun o => { o with
        bad := [⟨q, .dataPoison, va + BitVec.ofNat 64 j, false⟩] }))
    let stores := fun t : State => m.dir = .store →
      exec i s = .next (u.adv ((coverMarks t u.g m [q] q).adjOp k fun o => { o with did := [q] }))
    let waits := exec i s = blocked ((toWait s₂ (keyUnit key) (ia / 128) (q.who k) (hintEnd s₂ p.at_) p).adjOp k fun o =>
      { o with todo := [q] })
    let line := lineKey u.g.core (ia / 128)
    let free := m.dir = .load ∨ hostHalf s₂.mem ia n = none
    (p.cls = 2 →
      (bankBusy s₂ p.at_ = true → free → waits) ∧
      (bankBusy s₂ p.at_ = false → loads (refit s₂) (onFrame s₂.mem p.at_ n .load).2 ∧
        (free → stores (refit (s₂.setMem (unmark (undirty (onFrame s₂.mem p.at_ n (.store bs)).1 ia n) ia n)))))) ∧
    (p.cls ≠ 2 →
      (∀ x, smFind s₂.mem.l1 line = some x → loads s₂ (onL1 x (ia % 128) n true .load).2) ∧
      (smFind s₂.mem.l2 key = none → bankBusy s₂ p.at_ = true → free → (m.dir = .load → smFind s₂.mem.l1 line = none) → waits) ∧
      ∀ (s₃ : State) (h : L2Line),
        (smFind s₂.mem.l2 key = some h ∧ s₃ = s₂ ∨ smFind s₂.mem.l2 key = none ∧ bankBusy s₂ p.at_ = false ∧
          room s₂ key (fillLine s₂.mem (p.at_ / 128 * 128) 0 p.cmp) = .ok (s₃, h)) →
        let s₄ := s₃.setMem { s₃.mem with clock := s₃.mem.clock + 1 }
        let used : L2Line := { h with prio := raise s₃.mem key h m.hint, stamp := s₃.mem.clock }
        let through := fun d => coreAccess (roomL1 s₄.mem u.g.core (ia / 128)) used p.cls u.g.core ia n key d
        (smFind s₂.mem.l1 line = none → loads (refit (s₄.setMem (through .load).1)) (through .load).2) ∧
        (free → stores (refit (s₄.setMem (unmark (through (.store bs)).1 ia n)))))

/-- R77, R78, R225: a memory operation of which nothing is outstanding completes: its results are written, its flag's count
falls, and a fragment that waits for it goes on. With faults that all park, the fragment parks at its word with the code of
the lowest lane and the mask of every unfinished lane; otherwise the operation's group is terminated. That results wait in
the operation until its completion is the model's (log 6). -/
def Obligations.MemoryCompletes : Prop :=
  ∀ (s : State) (k : Nat) (o : Op) (m : MDesc) (g : Gang) (f : Frag),
    smFind s.ops k = some o → o.kind = .mem m → smFind s.gangs o.gid = some g → smFind g.frags o.entry = some f →
    o.parked = false → o.todo = [] → o.resp = [] →
    let g₁ := o.gout.foldl (fun g p => setGReg g p.1 p.2) { g with v := o.out.foldl (fun v p => smSet v p.1 p.2 0) g.v }
    (o.bad = [] → exec (.memoryAccessComplete k) s = .next { s with
      ops := smDel s.ops k
      gangs := smPut s.gangs o.gid { flagDown g₁ o.flag with
        frags := smPut g.frags o.entry (if f.wait = .op k then { f with st := .ready, wait := .none } else f) } }) ∧
    (∀ b ∈ o.bad, (∀ x ∈ o.bad, x.parks = true ∧ (x = b ∨ b.lane.lane < x.lane.lane)) → g.ending = none →
      exec (.memoryAccessComplete k) s = .next (park ((s.setGang o.gid g₁).setOp k { o with out := [], gout := [], parked := true })
        o.gid o.entry b.code (.op k) o.pc o.word
        (if m.uniform then 0 else ofBits 32 (o.bad.map fun x => x.lane.lane)) b.addr)) ∧
    (∀ b ∈ o.bad, b.parks = false → (∀ x ∈ o.bad, x.parks = true ∨ x = b ∨ b.lane.lane < x.lane.lane) → g.ending = none →
      exec (.memoryAccessComplete k) s = .next (terminate (closeOp (s.setGang o.gid g₁) k) o.gid b.code o.pc o.word
        (if m.uniform then 0
          else ofBits 32 ((o.bad.filter fun x => !x.parks && x.code.num == b.code.num).map fun x => x.lane.lane)) b.addr))

/-- R203, R238: a bank's refresh lasts its time; a reissue tries the waiting lanes again in their order; and lanes of a GLD
that are still stale at its deadline, and those only, take STALE_HALO: the lanes that aim at a ghost element, in a grid
whose binding stalls, under a tag that the element has not reached. When what waits is tried again is an event's choice (log
1), and a refresh does not begin in a bank that is under one (log 66). -/
def Obligations.RefreshAndReissue : Prop :=
  (∀ (s : State) (bank dur : Nat),
    (dur ≤ 350 → smGet s.mem.refresh bank 0 ≤ s.now → exec (.bankRefresh bank dur) s =
      .next { s with mem := { s.mem with refresh := smPut s.mem.refresh bank (s.now + dur) } }) ∧
    ((350 < dur ∨ s.now < smGet s.mem.refresh bank 0) → exec (.bankRefresh bank dur) s = .next s)) ∧
  (∀ (s : State) (k : Nat) (o : Op) (m : MDesc), smFind s.ops k = some o → o.kind = .mem m → m.space ≠ .remote →
    exec (.refreshRetryReissue k) s =
      .next (o.todo.foldl (doLane m k) s)) ∧
  (∀ (s : State) (gid e k : Nat) (g : Gang) (f : Frag) (o : Op) (m : MDesc),
    smFind s.gangs gid = some g → smFind g.frags e = some f → f.wait = .op k →
    smFind (redoOp s k).ops k = some o → o.kind = .mem m →
    let s₁ := redoOp s k
    let late := o.todo.filter (staleLane s₁ g m)
    (o.deadline ≤ s.now → late ≠ [] → exec (.gldStallTimeout gid e) s = .next (s₁.setOp k
      { o with todo := o.todo.filter (fun q => !(staleLane s₁ g m q))
               bad := o.bad ++ late.map fun q => ⟨q, .staleHalo, q.va, true⟩ })) ∧
    ((s.now < o.deadline ∨ late = []) → exec (.gldStallTimeout gid e) s = .next s)) ∧
  (∀ (s : State) (g : Gang) (m : MDesc) (q : LaneReq), staleLane s g m q = true ↔
    ∃ tag n b kf reg ia home, m.form = .grid tag ∧ g.bind = some n ∧ smFind s.binds n = some b ∧
      aimLane s g m q = .ok (.ghost kf reg ia home) ∧ dFault b.desc = false ∧ tagCheck b kf reg tag = .stale)

/-- R232, R237: CCTL without an address acts once: the self-invalidating lines of the core go, or the gang's hint changes;
with an address it acts on each lane's line. GLD asks for ghost elements under its step tag, where a binding of the word's
element size is there, and takes GRID_DESCRIPTOR otherwise. R78: none of them issues while its flag counts 63. -/
def Obligations.CacheControlAndGridLoad : Prop :=
  (∀ (s : State) (u : Iss) (gd : Guard) (a c : BitVec 6), Issues (.cctl gd a c) s u →
    let m : MDesc := ⟨.cctl c.toNat, .store, .global, 1, false, 0, 1, u.g.stream.toNat, false⟩
    (63 ≤ smGet u.g.flags (u.flag true) 0 → exec (.cctl gd a c) s = .next s) ∧
    (smGet u.g.flags (u.flag true) 0 < 63 → c = 2 → exec (.cctl gd a c) s = .next (moved u u.g { s with mem := { s.mem with
      l1 := smKeep (fun k x => !(keyUnit k == u.g.core && x.si)) s.mem.l1 } })) ∧
    (smGet u.g.flags (u.flag true) 0 < 63 → 8 ≤ c.toNat → exec (.cctl gd a c) s = .next (moved u { u.g with hint := BitVec.ofNat 2 (c.toNat - 8) } s)) ∧
    (c ≠ 2 → c.toNat < 8 → exec (.cctl gd a c) s = .next (memFrag m ((bitList (partLanes u.g u.f gd)).map fun l =>
      mkReq m (laneReg u.g l) l (laneReg u.g l (a.toNat + 1) ++ laneReg u.g l a.toNat) 0) u s))) ∧
  (∀ (s : State) (u : Iss) (gd : Guard) (m : BitVec 2) (d a c : BitVec 6), Issues (.gld gd m d a c) s u →
    let md : MDesc := ⟨.grid ((gReg u.g c.toNat).toNat % 2 ^ 63), .load, .global, 2 * 2 ^ m.toNat, false, d.toNat, 1,
      u.g.stream.toNat, false⟩
    let ls := bitList (partLanes u.g u.f gd)
    let qs := ls.map fun l => mkReq md (laneReg u.g l) l (laneReg u.g l (a.toNat + 1) ++ laneReg u.g l a.toNat) 0
    let room := smGet u.g.flags (u.flag false) 0 < 63
    (¬room → exec (.gld gd m d a c) s = .next s) ∧
    (room → ls = [] → exec (.gld gd m d a c) s = .next (moved u u.g s)) ∧
    (∀ b k, u.g.bind = some k → smFind s.binds k = some b → dSize b.desc = md.size →
      exec (.gld gd m d a c) s = .next (memFrag md qs u s)) ∧
    (∀ l rest, room → ls = l :: rest → (∀ b k, u.g.bind = some k → smFind s.binds k = some b → dSize b.desc ≠ md.size) → exec (.gld gd m d a c) s =
      .next (terminate s u.gid .gridDescriptor u.f.pc u.word (partLanes u.g u.f gd)
        (laneReg u.g l (a.toNat + 1) ++ laneReg u.g l a.toNat))))

/-! Asynchronous copies. -/

/-- R243: TCOPY and TCOPYG issue once the core's copy unit has room, with their operands read then. A template that passes
the checks, TCOPYG's row register below REGS, makes a copy, which counts on the barrier that it names, and the fragment
moves on; while the template's memory is not ready the word has issued, and waits with its operands (log 49). -/
def Obligations.CopyCommands : Prop :=
  (∀ (s : State) (u : Iss) (gd : Guard) (x y z : BitVec 6), guardQ u.g.q gd = true →
    let n := gReg u.g z.toNat
    (Issues (.tcopy gd x y z) s u →
      (copyFull s u.g.core = true → exec (.tcopy gd x y z) s = .next s) ∧
      (copyFull s u.g.core = false → exec (.tcopy gd x y z) s = .next (startCopy (.tcopy gd x y z)
        [gReg u.g x.toNat, gReg u.g y.toNat, n] false u.gid u.e u.f.pc u.word s))) ∧
    (Issues (.tcopyg gd x y z) s u →
      (copyFull s u.g.core = true → exec (.tcopyg gd x y z) s = .next s) ∧
      (copyFull s u.g.core = false →
        exec (.tcopyg gd x y z) s = .next (startCopy (.tcopyg gd x y z) ([gReg u.g x.toNat, 0, gReg u.g y.toNat] ++
          ((List.range 32).map fun l => BitVec.ofNat 64 (laneReg u.g l (n.toNat % 64)).toNat) ++
          [BitVec.ofNat 64 (activeLanes u.g u.f).toNat, n]) true u.gid u.e u.f.pc u.word s)))) ∧
  (∀ (i : Instr) (vals : List B64) (gather : Bool) (gid e : Nat) (pc : B64) (word : B32) (s s₁ : State) (g : Gang)
      (bs : List Byte),
    let va := vals.getD 0 0
    let offS := vals.getD 1 0
    let offD := vals.getD 2 0
    let rows := if gather then some (((vals.drop 3).take 32).map (·.toNat), BitVec.ofNat 32 (vals.getD 35 0).toNat) else none
    let t := BitVec.ofNat 512 (leNat bs)
    let a := tf t 448 15 * 16
    smFind s.gangs gid = some g → va.toNat % 64 = 0 →
    readBlock s g.ctx (clusterOf s g.wg) [6, gid, e] (s.winOf g.ctx) .load va.toNat 64 = .ok s₁ bs none →
    tmplOk t gather = true → (gather = true → (vals.getD 36 0).toNat < 64 ∧ (vals.getD 36 0).toNat < g.regs) →
    (tf t 0 64 + offS.toNat) % tEsz t = 0 → (tf t 64 64 + offD.toNat) % tEsz t = 0 →
    (∀ d, 1 ≤ d → d < tRank t → tSstr t d % tEsz t = 0 ∧ tDstr t d % tEsz t = 0) →
    (tf t 494 2 = 1 → (tTop t offS offD rows).1 ≤ g.scratchN) → (tf t 496 2 = 1 → (tTop t offS offD rows).2 ≤ g.scratchN) →
    tf t 479 1 = 0 → a + 16 ≤ g.scratchN →
    ∃ idx, startCopy i vals gather gid e pc word s =
      State.adjFrag { s₁ with
        copies := smPut s₁.copies s₁.next ⟨g.ctx, g.core, g.wg, clusterOf s₁ g.wg, pc, word, t, idx, offS, offD, rows,
          g.wg.getD 0, a, BitVec.ofNat 64 a, 0, 0, [], false, false, false, []⟩
        next := s₁.next + 1 } gid e (fun f => { f.step with st := .ready, wait := .none }) ∧
      (idx ≠ 0xffff → g.ctt.toNat + 64 * idx = va.toNat)) ∧
  (∀ (i : Instr) (vals : List B64) (gather : Bool) (gid e : Nat) (pc : B64) (word : B32) (s s₁ : State) (g : Gang),
    let va := vals.getD 0 0
    smFind s.gangs gid = some g → va.toNat % 64 = 0 →
    readBlock s g.ctx (clusterOf s g.wg) [6, gid, e] (s.winOf g.ctx) .load va.toNat 64 = .wait s₁ →
    startCopy i vals gather gid e pc word s = s₁.adjFrag gid e fun f => { f with st := .blocked, wait := .redo i vals })

/-- R242, R245, R249: a chunk that may start is written and then counted; the last one ends the copy. One that meets a fault
makes its copy park, or abandons it, with one record, and sets ERR on its barrier; what it moved before stays moved (the
copy itself keeps count of the granules that it has written clean, R378). Of the copy of a discarded workgroup only the
chunks in flight complete, and with the last of them it is gone (R371). R241: one that must wait keeps how many of its
pieces are moved, so that each is moved once. R241, R242: chunk j of a copy without row indices counts CS bytes, the last
one what is left, so the chunks together count the template's bytes. In which order a copy's chunks are written is an
event's choice (log 31), and when the chunks in flight of a discarded workgroup complete is the model's (log 59). -/
def Obligations.CopyChunks : Prop :=
  (∀ (s : State) (k j : Nat) (c : Copy), smFind s.copies k = some c → chunkOpen c j = true →
     let n := smGet c.moved j 0
     let r := movePieces c k j ((chunkPieces c j).drop n) n s
     (∀ s₁ (d : Copy), smFind s₁.copies k = some d → d.last = true →
       let left := smDel d.moved j
       let last := tidyCopy { d with moved := left } { s₁ with
         copies := if left = [] then smDel s₁.copies k else smPut s₁.copies k { d with moved := left } }
       (r = .done s₁ → exec (.copyChunkPerformed k j) s = .next last) ∧
       ∀ m code a, r = .fault s₁ m code a → exec (.copyChunkFault k j) s = .next last) ∧
     (∀ s₁ (d : Copy), r = .done s₁ → smFind s₁.copies k = some d → d.last = false →
       let f := slideDone 64 d.low (d.done ||| (1#64 <<< (j - d.low)))
       let d' := { d with low := f.1, done := f.2, moved := smDel d.moved j }
       exec (.copyChunkPerformed k j) s = .next (tidyCopy d (countChunk { s₁ with
         copies := if tChunks d.tmpl ≤ f.1 then smDel s₁.copies k else smPut s₁.copies k d' } d' (chunkCount d j)))) ∧
     (∀ s₁ m, r = .wait s₁ m →
       exec (.copyChunkPerformed k j) s = .next (s₁.adjCopy k fun c => { c with moved := smSet c.moved j m 0 }) ∧
       n ≤ m ∧ m < (chunkPieces c j).length) ∧
     (∀ s₁ m code a (d : Copy), r = .fault s₁ m code a → smFind s₁.copies k = some d → d.last = false →
       let d' := { d with moved := smSet d.moved j m 0 }
       let s₂ := postRec s₁ d.ctx (copyRec d' code (BitVec.ofNat 64 a))
       (parksAs code = true → exec (.copyChunkFault k j) s = .next (tidyCopy d' (barSetErr { s₂ with
         copies := smPut s₂.copies k { d' with parked := true, setErr := true } } d.barWg d.barAddr false))) ∧
       (parksAs code = false → exec (.copyChunkFault k j) s = .next (tidyCopy d'
         (barSetErr { s₂ with copies := smDel s₂.copies k } d.barWg d.barAddr true))))) ∧
  (∀ (c : Copy) (j : Nat), tmplOk c.tmpl false = true → c.rows = none → j < tChunks c.tmpl →
     chunkCount c j = min (tCs c.tmpl) (tBytes c.tmpl - j * tCs c.tmpl))

/-! The matrix engine. -/

/-- R256 to R260, R263 to R268: a matrix word of a gang of one fragment with every lane live and active, the engine and its
flag having room, enters the engine with the operands it reads: record and headers, rows of scratchpad, or rows of global
memory, whose words are then accessed. R259, R260: a matrix word of a gang that is not one whole fragment takes
ILLEGAL_CONVERGENCE, and one whose engine or flag has no room is not ready; nor is MSTT while its rows would pass a pair's
bound (R336). What is the model's: that rows of global memory are accessed, and MSTT's latch filled, when the word issues
(log 6); that the engine first completes the gang's earlier matrix instructions, for MSTT all of them, and for a word that
reads scratchpad where one of them writes it; and the order of checks and the addresses that the rules do not name (log 10).
-/
def Obligations.MatrixIssues : Prop :=
  (∀ (s : State) (u : Iss) (gd : Guard) (m : BitVec 2) (x z : BitVec 6) (k : BitVec 2) (a b t : BitVec 4) (z5 : BitVec 5),
     guardQ u.g.q gd = true → engineFull s u.g.core = false → smGet u.g.flags (u.flag true) 0 < 63 →
     convergent u.g u.f = true →
     let st := u.g.stream.toNat
     let before := if writesSp s u.gid then finishMats s u.gid else s
     let enters := fun (s : State) (g : Gang) (o : MatOp) (latch : SMap Byte) =>
       u.adv (opened s { u with g := g } { u.op true (.mat o st) with latch := latch })
     let moves := fun (s : State) (g : Gang) (o : MatOp) (qs : List LaneReq) =>
       holdFor s.next (u.adv (startLanes (rowDesc o st) s.next u.g qs (opened s { u with g := g } (u.op true (.mat o st)))))
     let none_ := fun _ : Nat => (0 : Byte)
     ∀ gb, smFind before.gangs u.gid = some gb →
     (∀ r, Issues (.mma gd m x k a b) s u →
       (readRecord u before x.toNat).bind (fun v => readBlocks u before v (List.range 32)) = .ok r →
       exec (.mma gd m x k a b) s =
         .next (enters before gb (.mma (m.getLsbD 0) (m.getLsbD 1) k.toNat a.toNat b.toNat r) [])) ∧
     (∀ e, Issues (.mma gd m x k a b) s u → readRecord u before x.toNat = .error e →
       exec (.mma gd m x k a b) s = .next (terminate before u.gid e.1 u.f.pc u.word 0 e.2)) ∧
     (Issues (.mza gd k) s u → exec (.mza gd k) s = .next (enters s u.g (.mza k.toNat) [])) ∧
     (∀ v r, Issues (.mmag gd m x k b z5) s u →
       let base := gReg u.g (2 * z5.toNat)
       let d := (gReg u.g (2 * z5.toNat + 1)).toNat
       let stride := d / 2 ^ 32
       let idx := (List.range 32).map fun l => (laneReg u.g l (d % 64)).toNat
       let rows := idx.map fun i => ((base.toNat + i * stride : Nat) : Int)
       let o := MatOp.mmag (m.getLsbD 1) k.toNat b.toNat r
       let qs := rowWords (idx.zipIdx.map fun p => (p.2, base + BitVec.ofNat 64 (p.1 * stride))) none_
       readRecord u before x.toNat = .ok v → fld d 6 26 = 0 → d % 64 < u.g.regs → readBlocks u before v idx = .ok r →
       base.toNat % 64 = 0 → stride % 64 = 0 →
       (m.getLsbD 0 = true → base.toNat < 2 ^ 32 → spFault u before true rows = none →
         exec (.mmag gd m x k b z5) s = .next (enters before gb o (spLatch u before rows))) ∧
       (m.getLsbD 0 = false → rowFault before u.g false qs = none →
         exec (.mmag gd m x k b z5) s = .next (moves before gb o qs))) ∧
     (Issues (.mldt gd m x t z) s u →
       let base := gReg u.g x.toNat
       let str := if m.getLsbD 1 then gReg u.g z.toNat else 64
       let qs := rowWords (vaRows base str) none_
       base.toNat % 64 = 0 → str.toNat % 64 = 0 →
       (m.getLsbD 0 = true → base.toNat < 2 ^ 32 → spFault u before true (spRows base str) = none →
         exec (.mldt gd m x t z) s = .next (enters before gb (.mldt t.toNat) (spLatch u before (spRows base str)))) ∧
       (m.getLsbD 0 = false → rowFault s u.g false qs = none →
         exec (.mldt gd m x t z) s = .next (moves s u.g (.mldt t.toNat) qs))) ∧
     (Issues (.mstt gd m x t z) s u →
       let base := gReg u.g x.toNat
       let str := if m.getLsbD 1 then gReg u.g z.toNat else 64
       let s₁ := finishMats s u.gid
       ∀ g₁, smFind s₁.gangs u.gid = some g₁ →
       let byte := tileByte g₁ t.toNat
       let qs := rowWords (vaRows base str) byte
       let stored := (spRows base str).zipIdx.foldl (fun s p => writeScratch s (u.g.wg.getD 0) p.1.toNat
         ((List.range 64).map fun i => byte (p.2 * 64 + i))) s₁
       base.toNat % 64 = 0 → str.toNat % 64 = 0 →
       (m.getLsbD 0 = true → base.toNat < 2 ^ 32 → spFault u s false (spRows base str) = none →
         exec (.mstt gd m x t z) s = .next (enters stored g₁ (.mstt t.toNat) [])) ∧
       (m.getLsbD 0 = false →
         let past := pastBound s u.g (rowDesc (.mstt t.toNat) st) (rowWords (vaRows base str) (tileByte g₁ t.toNat))
         (past = false → rowFault s₁ u.g true qs = none → exec (.mstt gd m x t z) s = .next (moves s₁ g₁ (.mstt t.toNat) qs)) ∧
         (past = true → exec (.mstt gd m x t z) s = .next s)) ∧
       (gangMats s u.gid = [] → s₁ = s)) ∧
     (let c := (gReg u.g x.toNat).toNat
      let accm := c / 64 % 4
      let size := rdaSize accm (c % 16)
      let row := rdaN accm * size
      let gs := (gReg u.g z.toNat).toNat
      let sat := c / 512 % 2 == 1
      c < 2 ^ 10 → size ≠ 0 →
      (Issues (.mrdaTile gd m x k t) s u → c / 256 % 2 = 0 → u.g.tilesN ≠ 0 →
        (2048 < 32 * row → t.toNat + 1 ≤ 15 ∧ t.toNat + 1 < u.g.tilesN) →
        exec (.mrdaTile gd m x k t) s = .next (enters s u.g (.mrdaT k.toNat t.toNat accm (c % 16) m.toNat sat) [])) ∧
      (Issues (.mrdaScratch gd m x k z) s u → c / 256 % 2 = 1 → gs % 2 ^ 32 % 16 = 0 → gs / 2 ^ 32 % 16 = 0 →
        row ≤ gs / 2 ^ 32 → (∀ i < 32, gs % 2 ^ 32 + i * (gs / 2 ^ 32) + row ≤ u.g.scratchN) →
        exec (.mrdaScratch gd m x k z) s =
          .next (enters s u.g (.mrdaS k.toNat accm (c % 16) m.toNat sat (gs % 2 ^ 32) (gs / 2 ^ 32)) [])))) ∧
  (∀ (i : Instr) (s : State) (u : Iss) (gd : Guard) (m n : BitVec 2) (x z : BitVec 6) (k : BitVec 2) (a b t : BitVec 4)
     (z5 : BitVec 5),
     (i = .mza gd k ∨ i = .mma gd m x k a b ∨ i = .mmag gd m x k b z5 ∨ i = .mldt gd m x t z ∨ i = .mstt gd m x t z ∨
       i = .mrdaTile gd m x n t ∨ i = .mrdaScratch gd m x n z) → Issues i s u →
     let held := engineFull s u.g.core = true ∨ 63 ≤ smGet u.g.flags (u.flag true) 0
     (held → exec i s = .next s) ∧
     (¬held → guardQ u.g.q gd = true → convergent u.g u.f = false →
       exec i s = .next (terminate s u.gid .illegalConvergence u.f.pc u.word 0 0)))

/-- R260, R264: MMAG's latch is complete once no row word is outstanding; the gang's oldest matrix instruction, its rows
moved, then performs its effect, its flags are ORed into %fpsr, its count falls, rows that the next one has read reach its
tile (R266), and what waits is tried again. R255, R262, R266, R267: the effects on tiles and accumulators. MZA clears its
accumulator, MLDT fills its tile from the latch, and an integer product adds to each cell, in groups of 32 and saturating
each sum to 36 bits, the products of A's row and B's column; each leaves every other tile, accumulator and register as it
was. When an instruction completes is an event's choice (log 1), or that of a later one that needs it done (log 10). -/
def Obligations.MatrixCompletion : Prop :=
  (∀ (s : State) (k : Nat) (o : Op) (mo : MatOp) (st : Nat) (g : Gang),
    smFind s.ops k = some o → o.kind = .mat mo st → smFind s.gangs o.gid = some g →
    o.todo = [] → o.resp = [] → o.bad = [] → o.parked = false →
    ((∃ tb acc b r, mo = .mmag tb acc b r) →
      exec (.mmagLatchComplete k) s = .next { s with ops := smPut s.ops k { o with latched := true } }) ∧
    ((gangMats s o.gid).head? = some k →
      let r := matEffect s o.gid g o mo
      let t := closeOp (r.1.adjGang o.gid fun g => { g with fpsr := g.fpsr ||| r.2 }) k
      let t' := releaseFrag (match (gangMats t o.gid).head? with | some n => landRows t n | none => t) o.gid o.entry k
      (((∃ tb acc b r, mo = .mmag tb acc b r) → o.latched = true) → exec (.matrixInstrComplete k) s = .next (redoAll t')) ∧
      (gangMats s o.gid = [k] → finishMats s o.gid = t'))) ∧
  (∀ (s : State) (gid : Nat) (g : Gang) (o : Op) (acc : Nat),
    ∃ g', matEffect s gid g o (.mza acc) = (s.setGang gid g', 0) ∧ { g' with acc := g.acc } = g ∧
      ∀ a, ∀ n < 1024, accCell g' a n = if a = acc then 0 else accCell g a n) ∧
  (∀ (s : State) (gid : Nat) (g : Gang) (o : Op) (t : Nat), o.rows = 0 → (∀ i < 2048, ∃ b, smFind o.latch i = some b) →
    List.Pairwise (fun a b => a.1 < b.1) o.latch → (∀ p ∈ o.latch, p.1 < 2048) →
    ∃ g', matEffect s gid g o (.mldt t) = (s.setGang gid g', 0) ∧ { g' with tile := g.tile } = g ∧
      ∀ a, ∀ i < 2048, tileByte g' a i = if a = t then smGet o.latch i 0 else tileByte g a i) ∧
  (∀ (g : Gang) (acc : Nat) (a b : Nat → Byte) (ta tb : Bool) (r : FmtRec),
    (r.fa = 0 ∨ r.fa = 4) → (r.fb = 0 ∨ r.fb = 4) → r.accm = 1 →
    let val := fun (signed : Bool) (x : Byte) => if signed then x.toInt else (x.toNat : Int)
    let av := fun i k => val (r.fa = 0) (a (if ta then k * 32 + i else i * 64 + k))
    let bv := fun j k => val (r.fb = 0) (b (if tb then k * 32 + j else j * 64 + k))
    let sat := fun v : Int => max (-(2 ^ 35)) (min (2 ^ 35 - 1) v)
    let group := fun i j n => ((List.range 32).map fun k => av i (32 * n + k) * bv j (32 * n + k)).sum
    let p := matProduct g acc a b ta tb r
    p.2 = 0 ∧ { p.1 with acc := g.acc } = g ∧
    (∀ i < 32, ∀ j < 32, accCell p.1 acc (i * 32 + j) =
      BitVec.ofInt 36 (sat (sat ((accCell g acc (i * 32 + j)).toInt + group i j 0) + group i j 1))) ∧
    (∀ x ≠ acc, ∀ n < 1024, accCell p.1 x n = accCell g x n))


/-! The frame of words that write registers only. -/

/-- R80, R84, R122, R147 to R155, R167 to R189: FRAME of the group arithmetic words and of the lane words of fixed latency.
The destination register holds the result; every other register and predicate, every other lane, every other gang and every
byte of memory is as it was, and %fpsr changes only for a floating word. -/
def Obligations.RegisterWordFrames : Prop :=
  ∀ (i : Instr) (s t : State) (u : Iss), Issues i s u → exec i s = .next t →
    (∀ gd d v, groupResult i u.g = some (gd, d, v) →
      ∃ g', t = moved u g' s ∧ { g' with g := u.g.g } = u.g ∧
        ∀ n, gReg g' n = if n = d.toNat ∧ guardQ u.g.q gd = true then v else gReg u.g n) ∧
    (∀ gd f, (laneResult i = some (gd, f) ∨ ∃ sub, floatResult i = some (gd, sub, f)) → trapped u (results u gd f) = 0 →
      ∃ g', t = moved u g' s ∧ { g' with v := u.g.v, p := u.g.p, fpsr := u.g.fpsr } = u.g ∧
        (laneResult i = some (gd, f) → g'.fpsr = u.g.fpsr) ∧
        (∀ o ∈ results u gd f, ∀ w ∈ o.2.wr, laneReg g' o.1 w.1 = w.2) ∧
        (∀ o ∈ results u gd f, ∀ w ∈ o.2.pw, w.1 < 7 → (predMask g' w.1).getLsbD o.1 = w.2) ∧
        (∀ l < 32, ∀ n, (∀ o ∈ results u gd f, o.1 = l → ∀ w ∈ o.2.wr, w.1 ≠ n) → laneReg g' l n = laneReg u.g l n) ∧
        (∀ l < 32, ∀ n, (∀ o ∈ results u gd f, o.1 = l → ∀ w ∈ o.2.pw, w.1 ≠ n) →
          (predMask g' n).getLsbD l = (predMask u.g n).getLsbD l)) ∧
    ((groupResult i u.g ≠ none ∨ laneResult i ≠ none) →
      (∀ a, readByte t.mem.frames a = readByte s.mem.frames a) ∧ ∀ k, k ≠ u.gid → smFind t.gangs k = smFind s.gangs k)

/-! Penumbra. -/

/-- R273 to R275, R282, R283: binding, stepping and waiting on ghost faces. A gang that binds an existing binding becomes
one of its participants and waits for step 0, or joins at the last committed step, once R37's checks pass for it too; it
waits for one that is ending, and takes GRID_DESCRIPTOR for a broken one, another P or one that is full; while the
descriptor's memory is not ready the word has issued, and waits with its operands (log 49); GSTEP counts one arrival for the
next step, unless that is committed already, and waits for it, going on at once where the step is committed and read; GWAIT
goes on, with an acquire at DEV scope, once every named face is fresh, and takes GRID_DESCRIPTOR in a gang that is not
bound, or bound to a broken binding. Which address a GRID_DESCRIPTOR record holds where no rule names one is the model's
(log 11). -/
def Obligations.PenumbraWords : Prop :=
  (∀ (s : State) (u : Iss) (gd : Guard), Issues (.gbindUn gd) s u → guardQ u.g.q gd = true →
    (u.g.bind = none → exec (.gbindUn gd) s = .next (moved u u.g s)) ∧
    (∀ k b, u.g.bind = some k → smFind s.binds k = some b →
      let rest := b.parts.filter (· ≠ u.gid)
      let faces : SMap Face := smMap (fun _ (f : Face) => if f.started then f else { f with st := .idle, strip := [] }) b.faces
      exec (.gbindUn gd) s = .next { moved u { u.g with bind := none, step := 0 } s with
        binds := smPut s.binds k (if rest ≠ [] then { b with parts := rest }
          else { b with parts := [], ending := true, faces := faces }) })) ∧
  (∀ (i : Instr) (s : State) (u : Iss) (gd : Guard) (x y : BitVec 6) (n : Nat),
    (i = .gbind gd x ∧ n = groupSize s u.g ∨ i = .gbindN gd x y ∧ n = (gReg u.g y.toNat).toNat) → Issues i s u →
    guardQ u.g.q gd = true →
    let va := gReg u.g x.toNat
    let tok := [9, u.gid, u.e]
    ((u.g.bind ≠ none ∨ va = 0 ∨ va.toNat % 128 ≠ 0 ∨ n = 0 ∨ (65535 < n ∧ n < 2 ^ 64)) →
      exec i s = .next (terminate s u.gid .gridDescriptor u.f.pc u.word 0 va)) ∧
    (u.g.bind = none → va ≠ 0 → va.toNat % 128 = 0 → 1 ≤ n → n ≤ 65535 →
      (∀ k b, List.find? (fun q : Nat × Binding => q.2.ctx == u.g.ctx && q.2.va == va) s.binds = some (k, b) →
        smFind s.binds k = some b →
        let s' := dropTok s tok
        let fits_ := b.p = n ∧ b.parts.length < n ∧ ownersOk s' u.g.ctx b = true
        (b.broken = false → b.ending = true →
          exec i s = .next (withFrag s' u.gid u.g u.e { u.f with st := .blocked, wait := .bind va n })) ∧
        ((b.broken = true ∨ b.ending = false ∧ ¬fits_) →
          exec i s = .next (terminate s' u.gid .gridDescriptor u.f.pc u.word 0 va)) ∧
        (b.broken = false → b.ending = false → fits_ →
          (b.steps = 0 → exec i s = .next (withFrag { s' with
              binds := smPut s.binds k { b with
                parts := b.parts ++ [u.gid], arrivals := smPut b.arrivals 0 (smGet b.arrivals 0 0 + 1) } }
            u.gid { u.g with bind := some k, step := 0 } u.e { u.f with st := .blocked, wait := .step k 0 })) ∧
          (b.steps ≠ 0 → exec i s = .next (withFrag
            (endRegion { s' with binds := smPut s.binds k { b with parts := b.parts ++ [u.gid] } } u.g)
            u.gid { u.g with bind := some k, step := b.steps - 1 } u.e { u.f.step with st := .ready, wait := .none })))) ∧
      (List.find? (fun q : Nat × Binding => q.2.ctx == u.g.ctx && q.2.va == va) s.binds = none →
        (List.filter (fun q : Nat × Binding => q.2.ctx == u.g.ctx) s.binds).length < 64 →
        (∀ s₁ d o, readGrid s u.g.ctx (clusterOf s u.g.wg) tok va.toNat = .ok s₁ d o →
          let s' := dropTok s₁ tok
          let b : Binding := ⟨u.g.ctx, u.g.ten, va, d, o, n, 0, [], [], [], [], 0, 0, false, 0, false, false, none,
            freeNumber s' u.g.ctx, s'.next⟩
          (ownersOk s' u.g.ctx b = true → secondBinding s' b = false → exec i s = .next (joinBinding { s' with
            binds := smPut s'.binds s'.next b, next := s'.next + 1 } s'.next u.gid u.e)) ∧
          ((ownersOk s' u.g.ctx b = false ∨ secondBinding s' b = true) →
            exec i s = .next (terminate s' u.gid .gridDescriptor u.f.pc u.word 0 va))) ∧
        (∀ s₁, readGrid s u.g.ctx (clusterOf s u.g.wg) tok va.toNat = .wait s₁ → exec i s = .next
          (s₁.adjFrag u.gid u.e fun f => { f with st := .blocked, wait := .redo i [va, BitVec.ofNat 64 n] })) ∧
        (∀ s₁ c a, readGrid s u.g.ctx (clusterOf s u.g.wg) tok va.toNat = .fault s₁ c a false →
          exec i s = .next (terminate (dropTok s₁ tok) u.gid c u.f.pc u.word 0 (BitVec.ofNat 64 a))) ∧
        (∀ s₁ c a, readGrid s u.g.ctx (clusterOf s u.g.wg) tok va.toNat = .fault s₁ c a true →
          exec i s = .next (park (dropTok s₁ tok) u.gid u.e c (.redo i [va, BitVec.ofNat 64 n]) u.f.pc u.word 0
            (BitVec.ofNat 64 a)))))) ∧
  (∀ (s : State) (u : Iss) (gd : Guard) (x : BitVec 6), Issues (.gstep gd x) s u → guardQ u.g.q gd = true →
    let t := (gReg u.g x.toNat).toNat
    (List.length u.g.frags ≠ 1 →
      exec (.gstep gd x) s = .next (terminate s u.gid .illegalConvergence u.f.pc u.word 0 0)) ∧
    (List.length u.g.frags = 1 → u.g.bind = none →
      exec (.gstep gd x) s = .next (terminate s u.gid .gridDescriptor u.f.pc u.word 0 0)) ∧
    (∀ k b, List.length u.g.frags = 1 → u.g.bind = some k → smFind s.binds k = some b → b.broken = false → b.bad = none →
      (t = u.g.step + 1 → t < 2 ^ 63 → exec (.gstep gd x) s = .next (wakeSteps (withFrag
        { s with
          binds := (smPut s.binds k
            (if t < b.steps then b else { b with arrivals := smPut b.arrivals t (smGet b.arrivals t 0 + 1) })) }
        u.gid { u.g with step := t } u.e { u.f with st := .blocked, wait := .step k t }) k)) ∧
      (t = u.g.step + 1 → t < b.steps → t < 2 ^ 63 → roundRead b (t / dDepth b.desc) = true → u.g.ending = none →
        s.gangs.Pairwise (fun a b => a.1 < b.1) → ∃ t' g', exec (.gstep gd x) s = .next t' ∧
          smFind t'.gangs u.gid = some g' ∧ g'.step = t ∧ g'.frags = [(u.e, { u.f.step with st := .ready, wait := .none })]) ∧
      (t ≠ u.g.step + 1 → exec (.gstep gd x) s = .next (terminate s u.gid .gridDescriptor u.f.pc u.word 0 b.va)))) ∧
  (∀ (s : State) (u : Iss) (gd : Guard) (x y : BitVec 6) (z : BitVec 3) (k : Nat) (b : Binding),
    guardQ u.g.q gd = true → u.g.bind = some k → smFind s.binds k = some b → b.broken = false →
    let t := (gReg u.g x.toNat).toNat % 2 ^ 63
    let m := (gReg u.g y.toNat).toNat
    let named := (wideFaces b.desc).filter m.testBit
    let kept := b.steps = 0 ∨ (b.steps - 1) / dDepth b.desc ≤ t / dDepth b.desc
    let s' := acquireAt s u.g.core 3
    m < 64 →
    (kept → (∀ j ∈ named, faceFresh b j t = true) →
      (Issues (.gwait gd x y) s u → exec (.gwait gd x y) s =
        .next (withFrag s' u.gid u.g u.e { u.f.step with st := .ready, wait := .none })) ∧
      (Issues (.gwaitTry gd x y z) s u → exec (.gwaitTry gd x y z) s = .next (moved u (setQReg u.g z.toNat true) s'))) ∧
    (∀ j, kept → named.find? (fun j => !faceFresh b j t) = some j →
      (Issues (.gwait gd x y) s u → dFault b.desc = false → exec (.gwait gd x y) s =
        .next (withFrag s u.gid u.g u.e { u.f with st := .blocked, wait := .faces t m (s.now + 1000 * dTmo b.desc) k })) ∧
      (Issues (.gwait gd x y) s u → dFault b.desc = true →
        exec (.gwait gd x y) s = .next (facesPark s b u.gid u.e t m j)) ∧
      (Issues (.gwaitTry gd x y z) s u → exec (.gwaitTry gd x y z) s = .next (moved u (setQReg u.g z.toNat false) s)))) ∧
  (∀ (i : Instr) (s : State) (u : Iss) (gd : Guard) (x y : BitVec 6) (z : BitVec 3), guardQ u.g.q gd = true →
    (i = .gwait gd x y ∨ i = .gwaitTry gd x y z) → Issues i s u →
    let m := (gReg u.g y.toNat).toNat
    (64 ≤ m → exec i s = .next (terminate s u.gid .illegalInstr u.f.pc u.word 0 0)) ∧
    (m < 64 → u.g.bind = none → exec i s = .next (terminate s u.gid .gridDescriptor u.f.pc u.word 0 0)) ∧
    (∀ k b, m < 64 → u.g.bind = some k → smFind s.binds k = some b → b.broken = true →
      exec i s = .next (terminate s u.gid .gridDescriptor u.f.pc u.word 0 b.va)))

/-- R273, R275, R277 to R284, R393: the engine's acts. P arrivals commit a step; a released face reads its strip; what has
been read is sent, and a send across the fabric is over once its close is delivered at the receiving package (log 42); ghost
regions are received, filled or copied, and their tags rise; searches find a partner on the engine of the neighbour's
socket, and a peer's engine whose digest does not agree is named by the binding that it asks; each held access is tried
again after 10 us; a binding that is ending ends once its started sends are over; a stalled GWAIT takes STALE_HALO at its
deadline. The layers of a strip and what follows an answer of none are the model's reading (log 11), and so is that the
completion counter's add goes on the grid's stream (log 38). -/
def Obligations.PenumbraActs : Prop :=
  ∀ (s : State) (bid k : Nat) (b : Binding), smFind s.binds bid = some b →
    let D := dDepth b.desc
    let f := b.face k
    let r := f.cur
    let held := fun kind => s.now < smGet f.held kind 0
    (b.broken = false → b.ending = false → b.p ≤ smGet b.arrivals b.steps 0 → exec (.stepCommit bid) s =
      .next (wakeFaces (wakeSteps (advance { s with binds := smPut s.binds bid { b with
        arrivals := smDel b.arrivals b.steps, steps := b.steps + 1 } } bid) bid) bid)) ∧
    (smGet b.arrivals b.steps 0 < b.p → exec (.stepCommit bid) s = .next s) ∧
    (b.broken = false → b.ending = false → ¬held kRead →
      (f.st = .read ∨ f.st = .waitRel ∧ (exchanged b.desc k = true → released s b k r = true)) →
      let inner := fun (p : List Int × List (List Int)) =>
        p.2.all (fun x => (outDims b.desc x).isEmpty) && (exchanged b.desc k || outDims b.desc p.1 == [k / 2])
      let s₁ := s.adjFace bid k fun f => { f with st := .read }
      let got := computeElems b.ctx (dSize b.desc) (faceTok bid k kRead r) (fun x => (elemPlace b.desc r x).1)
        (fun x vs => if exchanged b.desc k then vs.getD 0 0 else fillValue b.desc k x vs)
        ((faceWork b k).map fun p => (p.1, if inner p then p.2 else [])) s₁
      (∀ s₂ vs, got = .ok s₂ vs → exec (.faceStripRead bid k) s =
        .next (wakeSteps ((faceOk s₂ bid k kRead (faceTok bid k kRead r)).adjFace bid k fun f =>
          { f with strip := vs, st := if k / 2 = 0 then .send else .waitLow }) bid)) ∧
      (∀ s₂, got = .wait s₂ → exec (.faceStripRead bid k) s = .next s₂) ∧
      (∀ s₂ c va, got = .fault s₂ c va → exec (.faceStripRead bid k) s = .next (faceFault s₂ bid k kRead r c va))) ∧
    (b.broken = false → (b.ending = true → f.started = true) → ¬held kSend → exchanged b.desc k = true →
      (f.st = .waitLow ∨ f.st = .send) →
      (f.started = true → nbLocal s b k = false → exec (.faceSendDone bid k) s = .next s ∧
        (f.st = .send → exec (.penumbraExchange (.delivered bid k r)) s = .next (sendDone s bid k))) ∧
      ((f.started = false ∨ nbLocal s b k = true) → readsReady b r ((faceWork b k).map Prod.fst) = true →
        let low := fun (p : List Int × List (List Int)) => !(outDims b.desc p.1).isEmpty
        let work := faceWork b k
        let s₁ := s.adjFace bid k fun f => { f with st := .send }
        (f.partner = none → exec (.faceSendDone bid k) s = .next s₁) ∧
        (∀ num s₂ lows, f.partner = some num →
          computeElems b.ctx (dSize b.desc) (faceTok bid k kSend r) (fun x => (elemPlace b.desc r x).1)
            (fun _ vs => vs.getD 0 0) (work.filter low) s₁ = .ok s₂ lows →
          let s₃ := faceOk s₂ bid k kSend (faceTok bid k kSend r)
          let els := (work.filter low).map Prod.fst
          let vs := (work.zip f.strip).map fun p => if low p.1 then lows.getD (els.idxOf p.1.1) (0, false) else p.2
          (nbLocal s₃ b k = true → ∀ y, smFind s₃.binds num = some y →
            exec (.faceSendDone bid k) s = .next (sendLocal s₃ bid k num y r vs)) ∧
          (nbLocal s₃ b k = false → exec (.faceSendDone bid k) s = .next (sendFar s₃ bid b k num r vs))))) ∧
    (∀ reg x xs, b.broken = false → ¬held (kFill reg) → regionElems b.desc k reg = x :: xs →
      (∀ e, higherOut b.desc k x = some e →
        exec (.ghostRegionFilled bid k reg) s = .next (copyRegion s bid b k reg e (x :: xs))) ∧
      (higherOut b.desc k x = none → exchanged b.desc k = true → ∀ n, f.recv = n + 1 →
        smGet b.tags (tagKey k (n % 2) reg) 0 < n * D + 1 →
        exec (.ghostRegionFilled bid k reg) s = .next (raiseTag s bid (tagKey k (n % 2) reg) (n * D + 1))) ∧
      (higherOut b.desc k x = none → exchanged b.desc k = false → b.ending = false →
        exec (.ghostRegionFilled bid k reg) s = .next (fillRegion s bid b k reg (x :: xs)))) ∧
    (b.broken = false → b.ending = false → f.partner = none → k ∈ sharedFaces b.desc → nbLocal s b k = true →
      (∀ yid y, findBinding s (fun y => y.ten == b.ten) (entSock (b.nbEntry k)) (neighbour b.desc k)
          (dStream b.desc) = some (yid, y) →
        (entSock y.ownEntry = entSock (b.nbEntry k) ∧ y.ten = b.ten ∧ y.ending = false ∧
          selfCoord y.desc = neighbour b.desc k ∧ dStream y.desc = dStream b.desc) ∧
        (sharedAgree b (sharedFields y.desc ++ ownerWords y.owners) = true → exec (.penumbraExchange (.search bid k)) s =
          .next { s with binds := smPut s.binds bid { b with faces := smPut b.faces k { f with partner := some yid } } }) ∧
        (sharedAgree b (sharedFields y.desc ++ ownerWords y.owners) = false → yid ≠ bid → smFind s.binds yid = some y →
          exec (.penumbraExchange (.search bid k)) s = .next { s with
            binds := smPut (smPut s.binds bid { b with bad := some (nameEntry (b.nbEntry k)) }) yid
              { y with bad := some (nameEntry b.ownEntry) } }))) ∧
    (∀ n via x, nbLocal s b k = false → (b.noted = 0 ∨ k ∉ b.ins) → HearsAt s via.port via.kg.toNat x →
      exec (.penumbraExchange (.reply via bid k (some n) true)) s = .next { heardAt s via.port via.kg.toNat x with
        binds := smPut s.binds bid { b with faces := smPut b.faces k { f with asked := false, partner := some n } } }) ∧
    (∀ via x peer sctx stream sock asker face coord shared own, peer < 512 → asker < 32 → HearsAt s via.port via.kg.toNat x →
      smFind s.fab.arr (arrKey peer sctx stream) = some own → own.st = .opened →
      findBinding s (fun y => y.ctx == own.owner) sock coord stream = some (bid, b) → sharedAgree b shared = false →
      ∃ t, exec (.penumbraExchange (.inbound via peer sctx stream sock asker face coord shared)) s = .next t ∧
        t.binds = smPut s.binds bid { b with bad := some (BitVec.ofNat 64 (peer * 32 + asker)) }) ∧
    (k < 6 → (∀ kind, smFind f.held kind = none) → exec (.penumbraFaultRetry bid k) s = .next s) ∧
    (∀ kind, k < 6 → smFind f.held kind ≠ none → (∀ j, j ≠ kind → smFind f.held j = none) →
      (kind = kRead → exec (.penumbraFaultRetry bid k) s = exec (.faceStripRead bid k) s) ∧
      (kind = kSend → exec (.penumbraFaultRetry bid k) s = exec (.faceSendDone bid k) s) ∧
      (∀ reg ∈ regionsOf b.desc k, kind = kFill reg →
        exec (.penumbraFaultRetry bid k) s = exec (.ghostRegionFilled bid k reg) s)) ∧
    (exec (.penumbraFaultRetry bid 6) s = .next (countRound bid 3 s) ∧
      (roundFull b = false → countRound bid 3 s = s) ∧
      (roundFull b = true → b.broken = false → b.cntRetry ≤ s.now → dCcnt b.desc ≠ 0 → ∀ s₁,
        addCounter s b.ctx (dStream b.desc) [2, bid, 6] true (BitVec.ofNat 64 (dCcnt b.desc)) 1 = .done s₁ →
        countOne s bid b = s₁.adjBind bid fun b' => { b' with rounds := b.rounds + 1, cntRetry := 0, cntPosted := false })) ∧
    (b.ending = true → ((∀ p ∈ b.faces, p.2.started = false) ∨ b.broken = true) →
      waiters s (fun g w => match w with | .bind va _ => g.ctx == b.ctx && va == b.va | _ => false) = [] →
      ∃ t, exec (.bindingEnded bid) s = .next t ∧ smFind t.binds bid = none ∧
        ∀ j y, j ≠ bid → smFind s.binds j = some y → ∃ faces, smFind t.binds j = some { y with faces := faces }) ∧
    (∀ gid e g fr t mask dl, smFind s.gangs gid = some g → smFind g.frags e = some fr → fr.wait = .faces t mask dl bid →
      g.ending = none →
      (s.now < dl → exec (.gwaitStallTimeout gid e) s = .next s) ∧
      (dl ≤ s.now → facesAt b t mask = .fresh → exec (.gwaitStallTimeout gid e) s = .next (facesDone s gid e)) ∧
      (∀ j, dl ≤ s.now → (facesAt b t mask = .stale j ∨ facesAt b t mask = .released j) →
        exec (.gwaitStallTimeout gid e) s = .next (facesPark s b gid e t mask j)))

/-! Executors. -/

/-- R289, R290: BXRUN checks its operands, waits while its slot runs, and starts a run; BXWAIT waits for its slots and
writes their states, with an acquire at DEV scope. -/
def Obligations.ExecutorWords : Prop :=
  (∀ (s : State) (u : Iss) (gd : Guard) (m : BitVec 2) (x y : BitVec 6) (z : BitVec 5), Issues (.bxrun gd m x y z) s u →
    guardQ u.g.q gd = true →
    let p := (gReg u.g x.toNat).toNat
    let anchor := gReg u.g y.toNat
    let entry := BitVec.ofNat 64 (fld p 0 57)
    (fld p 57 3 ≠ 0 → exec (.bxrun gd m x y z) s = .next (terminate s u.gid .illegalInstr u.f.pc u.word 0 0)) ∧
    (fld p 57 3 = 0 → p % 4 ≠ 0 →
      exec (.bxrun gd m x y z) s = .next (terminate s u.gid .misaligned u.f.pc u.word 0 entry)) ∧
    (fld p 57 3 = 0 → p % 4 = 0 →
      (∀ c, translate (s.winOf u.g.ctx) anchor.toNat (some .load) = .error c →
        exec (.bxrun gd m x y z) s = .next (terminate s u.gid c u.f.pc u.word 0 anchor)) ∧
      (∀ ia home, translate (s.winOf u.g.ctx) anchor.toNat (some .load) = .ok (ia, home) →
        (slotOf u.g m.toNat = .running → exec (.bxrun gd m x y z) s = .next s) ∧
        (slotOf u.g m.toNat ≠ .running → exec (.bxrun gd m x y z) s = .next
          { moved u (setSlot u.g m.toNat .running) (endRegion s u.g) with
            next := s.next + 1
            runs := smPut s.runs s.next ⟨u.g.ctx, u.g.ten, u.gid, m.toNat, (u.g.core, u.g.quarter, u.g.slot),
              u.g.lantern, (if fld p 60 4 = 0 then 15 else fld p 60 4), anchor, gReg u.g (2 * z.toNat), gReg u.g (2 * z.toNat + 1), u.f.pc,
              u.word, 8 + transHome ia, none, 0, [], 0, [], .lines [], entry, entry, none, .start, none⟩ })))) ∧
  (∀ (s : State) (u : Iss) (gd : Guard) (x y : BitVec 6) (z : BitVec 3), guardQ u.g.q gd = true →
    let m := (gReg u.g y.toNat).toNat
    let done := ∀ k < 4, m.testBit k = true → slotOf u.g k ≠ .running
    let s' := acquireAt s u.g.core 3
    let g' := setGReg u.g x.toNat (slotBytes u.g)
    (Issues (.bxwait gd x y) s u →
      (16 ≤ m → exec (.bxwait gd x y) s = .next (terminate s u.gid .illegalInstr u.f.pc u.word 0 0)) ∧
      (m < 16 → done → exec (.bxwait gd x y) s = .next (withFrag s' u.gid g' u.e { u.f.step with st := .ready, wait := .none })) ∧
      (m < 16 → ¬done → exec (.bxwait gd x y) s =
        .next (withFrag s u.gid u.g u.e { u.f with st := .blocked, wait := .slots x.toNat m }))) ∧
    (Issues (.bxwaitTry gd x y z) s u →
      (16 ≤ m → exec (.bxwaitTry gd x y z) s = .next (terminate s u.gid .illegalInstr u.f.pc u.word 0 0)) ∧
      (m < 16 → done → exec (.bxwaitTry gd x y z) s = .next (moved u (setQReg g' z.toNat true) s')) ∧
      (m < 16 → ¬done → exec (.bxwaitTry gd x y z) s = .next (moved u (setQReg g' z.toNat false) s)))) ∧
  (∀ g : Gang, slotBytes g = BitVec.ofNat 64 ((slotOf g 0).num + (slotOf g 1).num * 2 ^ 8 + (slotOf g 2).num * 2 ^ 16
    + (slotOf g 3).num * 2 ^ 24))

/-- R286 to R289, R293 to R297: a run starts on a free context of its anchor's unit, with its operands in its registers,
once no bank that its release writes back to is under refresh; fetches its clauses; issues its stalled access again after a
refresh; performs a releasing access, or ends, once its lines are taken back, those that the host holds once it has given
them up; and the end marks its slot. A run's fault begins its end with one record. The codes of a run that is cut off from
its anchor are the model's reading (log 17), and so is that its start waits for those banks (log 66). -/
def Obligations.ExecutorRuns : Prop :=
  ∀ (s : State) (r : Nat) (x : Run), smFind s.runs r = some x →
    (x.wait = .start →
      (∀ c, reach s x.ctx (s.winOf x.ctx) x.anchor.toNat .load = .fault c →
        exec (.executorRunStart r) s = .next (runFault s r c.num x.bpc x.bword x.anchor)) ∧
      (∀ ia, reach s x.ctx (s.winOf x.ctx) x.anchor.toNat .load = .map ia →
        exec (.executorRunStart r) s = .next (runFault s r 0x12 x.bpc x.bword x.anchor)) ∧
      (∀ s₀ sp, reach s x.ctx (s.winOf x.ctx) x.anchor.toNat .load = .spot s₀ sp →
        (3 ≤ sp.page.st → exec (.executorRunStart r) s = .next (runFault s r 0x60 x.bpc x.bword x.anchor)) ∧
        let held := partBusy s (winDies (s.winOf x.ctx)) (some (9, sp.page.at_)) = true
        ((sp.page.st = 2 ∨ sp.page.st < 2 ∧ held) → exec (.executorRunStart r) s = .next s) ∧
        (sp.page.st < 2 → ¬held → ∀ k < 4,
          let unit := unitOf s.pf sp.page.at_
          let free := fun k : Nat => x.cmask.testBit k = true ∧ ∀ p ∈ s.runs, p.2.unit = some unit → p.2.ectx ≠ k
          free k → (∀ j < k, ¬free j) →
          let words := [x.z0.setWidth 32, (x.z0 >>> 32).setWidth 32, x.z1.setWidth 32, (x.z1 >>> 32).setWidth 32,
            x.anchor.setWidth 32, (x.anchor >>> 32).setWidth 32, BitVec.ofNat 32 (unit + 1024 * k)]
          ∃ t y, exec (.executorRunStart r) s = .next t ∧ (smFind s₀.runs r = some x → smFind t.runs r = some y ∧
            y.unit = some unit ∧ y.ectx = k ∧ y.wait = .going ∧ y.hdr = x.hdr ∧ y.p = x.p ∧
            (∀ n, runReg y n = words.getD n 0))))) ∧
    (x.wait = .going → x.clause = none →
      (∀ s₁ w ws, fetchClause s x.ctx [8, r] x.win x.hdr true = .ok s₁ w ws → exec (.executorClauseFetch r) s =
        .next (s₁.adjRun r fun x => { x with clause := some ⟨x.hdr, w, ws, true, false⟩, pc := x.hdr + 4 })) ∧
      (∀ s₁ va w parks, fetchClause s x.ctx [8, r] x.win x.hdr true = .fault s₁ .illegalClause va w parks →
        exec (.executorClauseFetch r) s = .next (runFault s₁ r 0x02 x.hdr w x.anchor))) ∧
    (∀ d, x.wait = .stall d →
      (s.now < d → exec (.executorRefreshRetry r) s = .next s) ∧
      (d ≤ s.now → x.pend = none →
        exec (.executorRefreshRetry r) s = .next { s with runs := smPut s.runs r { x with wait := .going } }) ∧
      (∀ m q s₁ sp, d ≤ s.now → x.pend = some (m, q) → m.relDev = false → runReach s x q.va.toNat m.xkind = .ok (s₁, sp) →
        (m.acquires && m.dir == .load && smGet s₁.mem.flagMarks (sp.ia / 8) false) = false →
        (∀ s₂ f, runPerf s₁ r x.unit sp m q = .done s₂ f → f.psn = none →
          exec (.executorRefreshRetry r) s = .next (runDone s₂ r m sp.ia f)) ∧
        (∀ s₂ t, runPerf s₁ r x.unit sp m q = .wait s₂ t → exec (.executorRefreshRetry r) s =
          .next (s₂.adjRun r fun x => { x with wait := .stall (max s₂.now t), pend := some (m, q) })))) ∧
    (let back := runBackInv s x x.wset
     let s₁ := back.1.adjRun r fun x => { x with wset := .lines [] }
     (∀ fin, x.wait = .release fin → back.2 = false → exec (.executorReleaseAcked r) s = .next back.1) ∧
     (back.2 = true → ∀ fin, x.wait = .release (some fin) → exec (.executorReleaseAcked r) s = .next (closeRun s₁ r fin) ∧
       smFind (closeRun s₁ r fin).runs r = none ∧
       ∀ g, smFind s.gangs x.gid = some g → ∃ g', smFind (closeRun s₁ r fin).gangs x.gid = some g' ∧
         slotOf g' x.rslot = fin) ∧
     (back.2 = true → x.wait = .release none → x.pend = none →
       exec (.executorReleaseAcked r) s = .next (s₁.adjRun r fun x => { x with wait := .going })) ∧
     (∀ m q s₂ sp s₃ f, back.2 = true → x.wait = .release none → x.pend = some (m, q) → runReach s₁ x q.va.toNat m.xkind = .ok (s₂, sp) →
       runPerf s₂ r x.unit sp m q = .done s₃ f → f.psn = none →
       let own := runBackInv (runDone s₃ r m sp.ia f) x (.lines [sp.ia / 128])
       (own.2 = true → exec (.executorReleaseAcked r) s = .next (own.1.adjRun r fun x => { x with wset := .lines [] })) ∧
       (own.2 = false → exec (.executorReleaseAcked r) s = .next (own.1.adjRun r fun x => { x with wait := .release none })))) ∧
    (∀ cause pc word a, ∃ t y, runFault s r cause pc word a = t ∧ smFind t.runs r = some y ∧
      y = { x with wait := .release (some .faulted), pend := none })

/-! The fabric. -/

/-- R334 to R336, R341, R343 to R345: RREL closes its pair's batch: the value and the write count go to the peer, the batch
number steps and the count clears; a refused pair parks. RFENCE waits for the fragment's own responses, and its counting
form writes the pair's position. A sent flit waits in its port for its acknowledgement (R329). The layout of a flit's
payload is the model's (log 8), and so are the address of RREL's MISALIGNED record, the peer in bits 56 to 48, and that RREL
closes its batch at once, the fragment's own remote words being over by then (log 12). -/
def Obligations.FabricWords : Prop :=
  (∀ (s : State) (u : Iss) (gd : Guard) (x y z : BitVec 6), Issues (.rrel gd x y z) s u → guardQ u.g.q gd = true →
    let peer := gReg u.g x.toNat
    let a := gReg u.g y.toNat
    let at_ := BitVec.ofNat 64 (peer.toNat % 512 * 2 ^ 48 + a.toNat % 2 ^ 48)
    let st := u.g.stream.toNat
    (a.toNat % 8 ≠ 0 → exec (.rrel gd x y z) s = .next (terminate s u.gid .misaligned u.f.pc u.word 0 at_)) ∧
    (a.toNat % 8 = 0 →
      (∀ c, peerCheck s u.g.ctx st true peer a = some (c, false) →
        exec (.rrel gd x y z) s = .next (terminate s u.gid c u.f.pc u.word 0 at_)) ∧
      (∀ c, peerCheck s u.g.ctx st true peer a = some (c, true) → exec (.rrel gd x y z) s = .next (park s u.gid u.e c
        (.redo (.rrel gd x y z) [peer, a, gReg u.g z.toNat, BitVec.ofNat 64 st]) u.f.pc u.word 0 at_)) ∧
      (∀ e, peerCheck s u.g.ctx st true peer a = none → lostDies s 0x300000 = false →
        smFind s.fab.send (pairKey u.g.ctx st peer.toNat) = some e →
        exec (.rrel gd x y z) s = .next (withFrag
          (closeBatch (touch s u.g.ctx 0x300000) u.g.ctx st peer.toNat 0x06 a.toNat (BitVec.ofNat 64 ((gReg u.g z.toNat).toNat % 2 ^ 63)))
          u.gid u.g u.e { u.f.step with st := .ready, wait := .none })))) ∧
  (∀ (s : State) (ctx st peer type a : Nat) (v : B64) (e : SendE), smFind s.fab.send (pairKey ctx st peer) = some e →
    let t := closeBatch s ctx st peer type a v
    let f := mkFlit s type peer st ctx e.gen e.bn.toNat a (toBytes 8 v.toNat ++ toBytes 4 e.wc.toNat) false
    smFind t.fab.send (pairKey ctx st peer) = some { e with bn := e.bn + 1, wc := 0 } ∧
    (∀ k, k ≠ pairKey ctx st peer → smFind t.fab.send k = smFind s.fab.send k) ∧
    (∀ p x, planeOf s (BitVec.ofNat 9 peer).toNat (BitVec.ofNat 48 a).toNat = some p → smFind s.fab.ports p = some x → x.live = true →
      let f' := { f with kg := BitVec.ofNat 1 x.kg }
      t.fab.out = s.fab.out ++ [(p, f')] ∧
      smFind t.fab.ports p = some { x with sent := x.sent + 1, replay := x.replay ++ [f'] })) ∧
  (∀ (s : State) (u : Iss) (gd : Guard), Issues (.rfence gd) s u → guardQ u.g.q gd = true →
    ((∃ p ∈ s.ops, p.2.gid = u.gid ∧ p.2.entry = u.e ∧ p.2.resp ≠ []) → exec (.rfence gd) s = .next s) ∧
    ((∀ p ∈ s.ops, p.2.gid = u.gid → p.2.entry = u.e → p.2.resp = []) → exec (.rfence gd) s = .next (moved u u.g s))) ∧
  (∀ (s : State) (u : Iss) (gd : Guard) (d a : BitVec 6), Issues (.rfenceCnt gd d a) s u → guardQ u.g.q gd = true →
    (∀ p ∈ s.ops, p.2.gid = u.gid → p.2.entry = u.e → p.2.resp = []) →
    let peer := (gReg u.g a.toNat).toNat % 512
    (∀ x, smFind s.fab.send (pairKey u.g.ctx u.g.stream.toNat peer) = some x → exec (.rfenceCnt gd d a) s =
      .next (moved u (setGReg u.g d.toNat (BitVec.ofNat 64 (x.bn.toNat * 2 ^ 32 + x.wc.toNat))) s)) ∧
    (smFind s.fab.send (pairKey u.g.ctx u.g.stream.toNat peer) = none → exec (.rfenceCnt gd d a) s =
      .next (terminate s u.gid .streamOverrun u.f.pc u.word 0 (BitVec.ofNat 64 (peer * 2 ^ 48)))))

/-- R328, R329, R333, R335 to R341, R345, R394: flits that arrive. A counted write, a grid write or an atomic that its entry
admits waits to be performed, and so does a read; performing a write counts it in its batch's slot; a read is answered on
its port with the 16 aligned bytes that hold its address; responses and their timeouts reach the lane that asked; a flag is
withheld in its slot, is applied when the slot's count is its write count, and is poisoned after FTMO; an NTC makes the pair
REFUSED and posts its record. The layout of a flit's payload, and what an NTC and a write for an ended binding do, are the
model's reading (logs 8, 12, 13). -/
def Obligations.FlitsArrive : Prop :=
  (∀ (s : State) (p : Nat) (f : Flit) (x : Port), Hears s p f x →
    let s₁ := heard s p f x
    (exec (.rdFlit p f) s = .next (withWrite s₁ p { f with type := 0x02 })) ∧
    (∀ e, Admitted s f e →
      exec (.wrFlit p f) s = .next (withWrite s₁ p { f with type := 0x01 }) ∧
      exec (.gwrFlit p f) s = .next (withWrite s₁ p { f with type := 0x0a }) ∧
      exec (.atomFlit p f) s = .next (withWrite s₁ p { f with type := 0x04 }) ∧
      (∀ i ty, (i = .relFlit p f ∧ ty = 0x06#6 ∨ i = .grelFlit p f ∧ ty = 0x0b#6) → e.st = .opened →
        (e.slot (f.count.toNat % 16)).flag = none →
        exec i s = .next (serviceEntry (flitKey f) 17 (s₁.setFab { s₁.fab with arr := smPut s.fab.arr (flitKey f) { e with
          slots := (smPut e.slots (f.count.toNat % 16)
            ⟨(e.slot (f.count.toNat % 16)).cnt, some ({ f with type := ty }, s.now, p)⟩) } })))) ∧
    (∀ i, (i = .rdrFlit p f ∨ i = .atomrFlit p f) → ∀ q k o m, smFind s.fab.reqs f.count.toNat = some q → q.ans = none →
      q.op = some k → smFind s.ops k = some o → o.kind = .mem m →
      (q.atom = false → smKeys (fun _ x => x.sameRead q.op q.peer q.addr) s.fab.reqs = [f.count.toNat]) →
      let answer := fun a => answerLane (s₁.setFab { s₁.fab with reqs := smDel s.fab.reqs f.count.toNat }) k q.lane a
      (4 < f.payload.length → f.psn = 0 →
        exec i s = .next (answer (.ok ((if q.atom then f.payload else f.payload.drop (q.addr % 16)).take m.size)))) ∧
      (4 < f.payload.length → f.psn = 1 → exec i s = .next (answer (.error (.dataPoison, false, remAddr q.peer q.addr)))) ∧
      (f.payload.length ≤ 4 → leNat f.payload = 1 →
        exec i s = .next (answer (.error (.remoteAccess, false, remAddr q.peer q.addr)))) ∧
      (f.payload.length ≤ 4 → leNat f.payload = 2 →
        exec i s = .next (answer (.error (.remoteAccess, true, remAddr q.peer q.addr))))) ∧
    (∀ c ∈ [Code.fabricIncomplete, .streamOverrun, .remoteWriteFaulted], ∀ (e : SendE) (st : BitVec 8),
      f.payload[0]? = some (BitVec.ofNat 8 c.num) → f.payload[1]? = some st →
      smFind s.fab.send (pairKey f.sctx.toNat st.toNat f.src.toNat) = some e →
      exec (.ntcFlit p f) s = .next (postRec
        (s₁.setFab { s₁.fab with send := smPut s.fab.send (pairKey f.sctx.toNat st.toNat f.src.toNat) { e with st := .refused } })
        f.sctx.toNat (streamRec c p f.src.toNat f.sctx.toNat st.toNat (leNat ((f.payload.drop 2).take 4))
          (leNat ((f.payload.drop 6).take 4)) (BitVec.ofNat 64 (leNat ((f.payload.drop 10).take 8)))))) ∧
    (f.type.toNat ∈ flitTypes → exec (.flitBadType p f) s = .next s) ∧
    (f.type.toNat ∉ flitTypes → exec (.flitBadType p f) s = .next (s₁.setFab { s₁.fab with ports := smPut s.fab.ports p { x with
      recv := x.recv + 1, fails := 0, newFlits := x.newFlits + (if f.kg.toNat = x.kg then 1 else 0), errs := x.errs + 1 } }))) ∧
  (∀ (s : State) (k : Nat) (w : InWrite), smFind s.fab.writes k = some w →
    (∀ q ∈ s.fab.writes, q.1 < k → q.2.f.src = w.f.src → q.2.f.addr.toNat / 128 ≠ w.f.addr.toNat / 128) →
    (∀ t bs psn, (w.f.type = 0x01 ∨ w.f.type = 0x0a) → (∃ e, Admitted s w.f e) → performIn s k w = .done t bs psn →
      exec (.writeCounted k) s = .next (countWrite (t.setFab { t.fab with writes := smDel t.fab.writes k }) w none)) ∧
    (∀ t bs psn, w.f.type = 0x02 → inRead w.port [10, k] [(w.f.addr.toNat / 16 * 16, 16)] s [] false = .done t bs psn →
      exec (.writeCounted k) s = .next (respond (t.setFab { t.fab with writes := smDel t.fab.writes k }) w.port 0x03 w.f
        w.f.count.toNat (.ok (bs, psn)))) ∧
    (∀ e, smFind s.fab.arr w.key = some e → countWrite s w none = serviceEntry w.key 17 (s.setFab { s.fab with
      arr := smPut s.fab.arr w.key { e with slots := (smPut e.slots (w.f.count.toNat % 16)
        ⟨(e.slot (w.f.count.toNat % 16)).cnt + 1, (e.slot (w.f.count.toNat % 16)).flag⟩) } }))) ∧
  (∀ (s : State) (key n : Nat) (e : ArrE) (f : Flit) (at_ port : Nat), smFind s.fab.arr key = some e → e.st = .opened →
    e.due = false → (∀ q ∈ e.slots, ∀ h, q.2.flag = some h → q.2.cnt ≤ flagCount h.1) →
    let j := e.nb.toNat % 16
    (e.slot j).flag = some (f, at_, port) → f.type ≠ 0x0b →
    ((e.slot j).cnt ≠ flagCount f → serviceEntry key (n + 1) s = settleEntry s key) ∧
    (∀ t bs psn, (e.slot j).cnt = flagCount f → storeFlag s port f (flagVal f % 2 ^ 63) = .done t bs psn →
      serviceEntry key (n + 1) s =
        serviceEntry key n (t.adjArr key fun e => { e with nb := e.nb + 1, slots := smDel e.slots j }))) ∧
  (∀ (s : State) (key j : Nat) (e : ArrE) (f : Flit) (t port : Nat), smFind s.fab.arr key = some e →
    (e.slot j).flag = some (f, t, port) →
    t + 1000 * e.ftmo ≤ s.now →
    exec (.flagTimeout key j) s = .next (settleEntry (poisonAll key (List.range 16) (s.setFab { s.fab with
      arr := smPut s.fab.arr key { e with due := true } })) key)) ∧
  (∀ (s : State) (tag k : Nat) (q : RReq), smFind s.fab.reqs tag = some q → q.ans = none → q.op = some k →
    (s.now < q.deadline → exec (.remoteRequestTimeout tag) s = .next s) ∧
    (q.deadline ≤ s.now → exec (.remoteRequestTimeout tag) s = .next (answerLane
      (s.setFab { s.fab with reqs := smDel s.fab.reqs tag }) k q.lane
      (.error (.remoteTimeout, !q.atom, BitVec.ofNat 64 (q.peer % 512 * 2 ^ 48 + q.addr % 2 ^ 48))))))

/-- R163, R328, R334, R339: streams. OPEN and CLOSE make and free a pair's entries, refusing what is there, absent, out of
room or reserved, with the generation that the pair then has in STRSTAT, and a context that is not there refuses an open
with 3, as a close finds no entry; a close with a flag withheld is busy until that is applied or poisoned, and while it is,
commands are ignored; a reset at the peer opens its entry empty at the next generation, no flag of it left; RSRESET asks for
that, waits for the acknowledgement and for 500 us since the last reset, and writes the new generation. The layout of a
flit's payload and the end of RSRESET by REMOTE_TIMEOUT are the model's reading (logs 8, 16). -/
def Obligations.StreamsAndResets : Prop :=
  (∀ (s : State) (c : StreamCmd), s.pf.closing = none → c.rsv = 0 →
    let live := (smFind s.ctxs c.ctx.toNat).isSome = true
    let sk := (c.ctx.toNat * 16 + c.stream.toNat) * 512 + c.peer.toNat
    let rk := (c.peer.toNat * 1024 + c.rctx.toNat) * 16 + c.stream.toNat
    let cmd := fun op : Nat => s.setPf { s.pf with strcmd := BitVec.ofNat 64 (op * 2 ^ 61 + c.ctx.toNat * 2 ^ 51
      + c.stream.toNat * 2 ^ 47 + c.peer.toNat * 2 ^ 38 + c.rctx.toNat * 2 ^ 28 + c.ftmo.toNat * 2 ^ 8) }
    let sgen := match smFind s.fab.send sk with | some e => e.gen | none => 0
    let rgen := match smFind s.fab.arr rk with | some e => e.gen | none => 0
    (c.rctx = 0 →
      (∀ e, live → smFind s.fab.send sk = some e → exec (.openSend c) s = .next (strDone (cmd 0) 3 2 e.gen)) ∧
      (live → smFind s.fab.send sk = none → Config.streamEntries ≤ List.length s.fab.send →
        exec (.openSend c) s = .next (strDone (cmd 0) 3 1 0)) ∧
      (live → smFind s.fab.send sk = none → List.length s.fab.send < Config.streamEntries → lostDies s 0x300000 = false →
        exec (.openSend c) s = .next (strDone { touch (cmd 0) c.ctx.toNat 0x300000 with
          fab := { s.fab with send := smPut s.fab.send sk ⟨.opened, 0, 0, 0, 0⟩ } } 2 0 0)) ∧
      (∀ e, smFind s.fab.send sk = some e → exec (.closeSend c) s =
        .next (strDone ((cmd 2).setFab { s.fab with send := smDel s.fab.send sk }) 2 0 e.gen)) ∧
      (smFind s.fab.send sk = none → exec (.closeSend c) s = .next (strDone (cmd 2) 3 4 0))) ∧
    (c.rctx ≠ 0 → exec (.openSend c) s = .next (strDone (cmd 0) 3 3 sgen) ∧
      exec (.closeSend c) s = .next (strDone (cmd 2) 3 3 sgen)) ∧
    (let t := c.ftmo.toNat
     let ok := t = 0 ∨ (16 ≤ t ∧ t ≤ 1000000)
     (¬ok → exec (.openReceive c) s = .next (strDone (cmd 1) 3 3 rgen)) ∧
     (live → ok → (smFind s.fab.arr rk).isSome = true → exec (.openReceive c) s = .next (strDone (cmd 1) 3 2 rgen)) ∧
     (live → ok → smFind s.fab.arr rk = none → Config.streamEntries ≤ List.length s.fab.arr →
       exec (.openReceive c) s = .next (strDone (cmd 1) 3 1 0)) ∧
     (live → ok → smFind s.fab.arr rk = none → List.length s.fab.arr < Config.streamEntries →
       lostDies s 0x300000 = false → exec (.openReceive c) s = .next (strDone { touch (cmd 1) c.ctx.toNat 0x300000 with
         fab := { s.fab with arr := (smPut s.fab.arr rk
           ⟨c.ctx.toNat, .opened, false, 0, 0, [], if t = 0 then 1000 else t, false, false⟩) } } 2 0 0))) ∧
    ((∀ e, smFind s.fab.arr rk = some e → e.owner ≠ c.ctx.toNat) →
      exec (.closeReceive c) s = .next (strDone (cmd 3) 3 4 rgen)) ∧
    (∀ e, smFind s.fab.arr rk = some e → e.owner = c.ctx.toNat → (∃ q ∈ e.slots, q.2.flag ≠ none) →
      let t := strDone ((cmd 3).setFab { s.fab with arr := smPut s.fab.arr rk { e with closing := true } }) 1 0 e.gen
      exec (.closeReceive c) s = .next (t.setPf { t.pf with closing := some rk })) ∧
    (∀ e, smFind s.fab.arr rk = some e → e.owner = c.ctx.toNat → (∀ q ∈ e.slots, q.2.flag = none) →
      (∀ w ∈ s.fab.writes, w.2.flagOf rk = false) →
      ∃ t, exec (.closeReceive c) s = .next t ∧ smFind t.fab.arr rk = none ∧ t.pf.closing = none ∧
        t.pf.strstat = BitVec.ofNat 64 (2 * 2 ^ 62 + e.gen % 2 ^ 16))) ∧
  (∀ (s : State) (c : StreamCmd) (i : Instr), (i = .openSend c ∨ i = .openReceive c ∨ i = .closeSend c ∨ i = .closeReceive c) →
    (s.pf.closing ≠ none → exec i s = .next s) ∧
    (s.pf.closing = none →
      (c.rsv ≠ 0 ∨ smFind s.ctxs c.ctx.toNat = none ∧ (i = .openSend c ∨ i = .openReceive c)) →
      ∃ t, exec i s = .next t ∧ t.fab = s.fab ∧ t.ctxs = s.ctxs ∧ ∃ gen, t.pf.strstat = BitVec.ofNat 64 (3 * 2 ^ 62 + 3 * 2 ^ 56 + gen))) ∧
  (∀ (s : State) (p : Nat) (f : Flit) (x : Port) (e : ArrE), Hears s p f x → smFind s.fab.arr (flitKey f) = some e →
    e.closing = false →
    let s₁ := dropTok (heard s p f x) [11, flitKey f]
    exec (.rsresetRequest p f) s = .next (sendOn (s₁.setFab { s₁.fab with
      arr := (smPut s.fab.arr (flitKey f) { e with st := .opened, overrun := false, gen := e.gen + 1, nb := 0, slots := [], due := false })
      writes := smKeep (fun _ w => !w.flagOf (flitKey f)) s.fab.writes }) (some p)
      (mkFlit s 0x09 f.src.toNat f.stream.toNat f.sctx.toNat 0 f.count.toNat 0 [1#8, 0#8] false))) ∧
  (∀ (s : State) (u : Iss) (gd : Guard) (x y z : BitVec 6), Issues (.rsreset gd x y z) s u → PrivCtx s u.g →
    guardQ u.g.q gd = true →
    let a := (gReg u.g x.toNat).toNat
    let peer := (gReg u.g y.toNat).toNat
    let status := fun n : Nat => moved u (setGReg u.g z.toNat (BitVec.ofNat 64 n)) s
    ((2 ^ 14 ≤ a ∨ 2 ^ 9 ≤ peer) → exec (.rsreset gd x y z) s = .next (status 3)) ∧
    (a < 2 ^ 14 → peer < 2 ^ 9 →
      (∀ n, target u.g s (a / 16) true = .error n → exec (.rsreset gd x y z) s = .next (status n)) ∧
      (∀ c, target u.g s (a / 16) true = .ok c →
        (smFind s.fab.send (pairKey (a / 16) (a % 16) peer) = none → exec (.rsreset gd x y z) s = .next (status 1)) ∧
        (∀ e, smFind s.fab.send (pairKey (a / 16) (a % 16) peer) = some e → lostDies s 0x300000 = false →
          exec (.rsreset gd x y z) s = .next (withFrag
            (sendFlit { touch s (a / 16) 0x300000 with next := s.next + 1 }
              (mkFlit s 0x08 peer (a % 16) (a / 16) (e.gen % 4) s.next 0 [1#8] false))
            u.gid u.g u.e { u.f with
              st := .blocked
              wait := .reset (a / 16) (a % 16) peer z.toNat (s.now + 1000 * (s.tenant c.ten).rtmo) false }))))) ∧
  (∀ (s : State) (gid e : Nat) (g : Gang) (f : Frag) (ctx st peer z dl : Nat),
    smFind s.gangs gid = some g → smFind g.frags e = some f →
    (g.ending = none → f.wait = .reset ctx st peer z dl false → dl ≤ s.now → exec (.rsresetTimeout gid e) s = .next (terminate s gid
      .remoteTimeout f.pc f.instrAt.1 0 (BitVec.ofNat 64 (peer % 512 * 2 ^ 48)))) ∧
    (∀ p fl x, f.wait = .reset ctx st peer z dl false → Hears s p fl x → fl.payload[0]? = some 1#8 →
      waiters s (fun _ w => match w with
        | .reset c t r _ _ false => c == fl.sctx.toNat && t == fl.stream.toNat && r == fl.src.toNat
        | _ => false) = [(gid, e)] →
      exec (.ctlaFlit p fl) s = .next (finishReset
        (withFrag (heard s p fl x) gid g e { f with wait := .reset ctx st peer z dl true }) gid e)) ∧
    (∀ x, f.wait = .reset ctx st peer z dl true → smFind s.fab.send (pairKey ctx st peer) = some x →
      (x.lastReset ≠ 0 → s.now < x.lastReset + 500000 → exec (.rsresetHoldoffEnd gid e) s = .next s) ∧
      ((x.lastReset = 0 ∨ x.lastReset + 500000 ≤ s.now) → exec (.rsresetHoldoffEnd gid e) s = .next (withFrag
        (s.setFab { s.fab with send := smPut s.fab.send (pairKey ctx st peer) ⟨.opened, x.gen + 1, 0, 0, s.now⟩ }) gid
        (setGReg g z (BitVec.ofNat 64 ((x.gen + 1) % 2 ^ 16 * 2 ^ 32))) e { f.step with st := .ready, wait := .none }))))

/-- R325, R326, R329 to R331, R347, R348: links. A port whose plane fails leaves the live set, and the flits that it holds
unacknowledged are lost; a failed check asks for replay, and the ninth in a row fails the link; acknowledgements free the
replay buffer, and a replay sends the rest again under the key now in use; a link-layer flit names the key in use too, and
one under an erased bank fails its check; a new key goes to the bank not in use, and the old one is erased after 4,096
flits; training sets the version, the speed, the width and the flit size. A key's value is free (log 7); the layout of a
flit is the model's (log 8), and so are the rate that a host link trains to, the highest that both ends offer, 64 GT/s only
in flit mode, and what a pool port needs to come up (log 47). -/
def Obligations.Links : Prop :=
  (∀ (s : State) (p : Nat) (x : Port), smFind s.fab.ports p = some x →
    (x.live = true → exec (.planeFailure p) s = .next (s.setFab { s.fab with
      ports := smPut s.fab.ports p { x with live := false, trained := false, replay := [] }
      out := unsent s p x.replay.length, events := s.fab.events ++ [(0, p)] })) ∧
    (∀ l, s.fab.out = l ++ x.replay.map (fun f => (p, f)) → (∀ f ∈ x.replay, f.type ≠ 0x3f) → unsent s p x.replay.length = l) ∧
    (x.live = true → x.fails < 8 → exec (.flitCheckFailure p) s = .next (s.setFab { s.fab with
      ports := smPut s.fab.ports p { x with fails := x.fails + 1, errs := x.errs + 1 }
      out := s.fab.out ++ [(p, { mkFlit s 0x3f 0 0 0 0 (x.recv % 2 ^ 16) 0 [1#8] false with kg := BitVec.ofNat 1 x.kg })] })) ∧
    (x.live = true → 8 ≤ x.fails → exec (.flitCheckFailure p) s = .next (s.setFab { s.fab with
      ports := smPut s.fab.ports p { x with
        fails := x.fails + 1, errs := x.errs + 1, live := false, trained := false, replay := [] }
      out := unsent s p x.replay.length, events := s.fab.events ++ [(0, p)] })) ∧
    (∀ (n : BitVec 16) (kg : BitVec 1), let upTo := (n.toNat + 2 ^ 16 - (x.sent - x.replay.length) % 2 ^ 16) % 2 ^ 16
      let y : Port := { x with newFlits := x.newFlits + if kg.toNat = x.kg then 1 else 0 }
      (upTo ≤ x.replay.length → (smFind x.keys kg.toNat).isSome = true →
        exec (.lnkFlit p ⟨.ack, kg, n⟩) s =
          .next (s.setFab { s.fab with ports := smPut s.fab.ports p { y with replay := x.replay.drop upTo } }) ∧
        let rest := (x.replay.drop upTo).map fun f => { f with kg := BitVec.ofNat 1 x.kg }
        exec (.lnkFlit p ⟨.replay, kg, n⟩) s = .next (s.setFab { s.fab with
          ports := smPut s.fab.ports p { y with replay := rest }
          out := unsent s p rest.length ++ rest.map fun f => (p, f) })) ∧
      (∀ kind, smFind x.keys kg.toNat = none → exec (.lnkFlit p ⟨kind, kg, n⟩) s = exec (.flitCheckFailure p) s)) ∧
    (∀ key, exec (.linkRekey p key) s = .next (s.setFab { s.fab with ports := smPut s.fab.ports p { x with
      keys := smPut x.keys (1 - x.kg) key, kg := 1 - x.kg, newFlits := 0 } })) ∧
    (4096 ≤ x.newFlits → exec (.oldKeyErase p) s = .next (s.setFab { s.fab with ports := smPut s.fab.ports p { x with
      keys := smDel x.keys (1 - x.kg) } }))) ∧
  (∀ (s : State) (p : Nat) (vs : List (BitVec 16)) (v : BitVec 16), p < 64 → v ∈ vs → v.toNat / 256 = 1 →
    s.plat.live.getLsbD (ioDie p) = true → ∃ t x, exec (.ibcelLinkTrain p vs) s = .next t ∧ smFind t.fab.ports p = some x ∧
      x.live = true ∧ x.trained = true ∧ x.ver = 0x0100 ∧ x.sent = 0 ∧ x.recv = 0 ∧ x.replay = [] ∧ x.keys = [(0, 0)]) ∧
  (∀ (s : State) (p : Nat) (o : LinkOffer), p < 6 → ∃ t x, exec (.hostLinkTrain p o) s = .next t ∧ hport t p = x ∧
    (2 ≤ p → (x.live = true ↔ o.cxl.isSome = true ∧ (∀ v, o.cxl = some v → 0x0301 ≤ v.toNat) ∧ 16 ≤ o.gts ∧ 16 ≤ o.lanes
      ∧ 256 ≤ o.flit) ∧
      (x.live = true → x.lanes = 16 ∧ x.flit = 256 ∧ x.gts = if 64 ≤ o.gts then 64 else if 32 ≤ o.gts then 32 else 16)) ∧
    (p < 2 → 16 ≤ o.gts → 4 ≤ o.lanes →
      let big := 256 ≤ o.flit ∧ x.cxl ≠ 0x0200
      x.live = true ∧ x.flit = (if big then 256 else if x.cxl = 0 then 0 else 68) ∧
      x.gts = (if 64 ≤ o.gts ∧ big then 64 else if 32 ≤ o.gts then 32 else 16) ∧
      x.lanes = (if 16 ≤ o.lanes then 16 else if 8 ≤ o.lanes then 8 else 4) ∧
      x.cxl = (match o.cxl with
        | none => 0
        | some v => if 0x0301 ≤ v.toNat then 0x0301 else if 0x0200 ≤ v.toNat then 0x0200 else 0)))

/-! Work: launches, waits and fences. -/

/-- R44 to R46, R157 to R160: LAUNCH reads and checks its header and queues the launch, its flag counting it and its result
the context's next identifier, and one that waits for no counter is eligible at once; a full queue holds the word back, a
header that fails its checks ends the workgroup, and one whose memory is not ready is read once the word has issued (log
49); SIGNAL adds to its counter, not ready while the pair of a remote counter stands at its bound, tries a parked add again
every 10 us, and gives up an add that meets any other fault, with its record; WAITGE waits until bits [62:0] of its counter
reach the target, and takes FLAG_POISONED where bit 63 is set; FENCE acquires and releases at its scope; a release at SYS
brings every byte that a cache holds dirty to the frame beneath, where the page walk reads. A release whose write-backs meet
banks under refresh waits for them, its word issued (R203; log 49). That polling goes on while a context is stopped, and
that a release at SYS brings its bytes to the frames at once, is the model's reading (logs 6, 19). -/
def Obligations.LaunchWords : Prop :=
  (∀ (s : State) (u : Iss) (gd : Guard) (x y : BitVec 6), Issues (.launchG gd x y) s u → guardQ u.g.q gd = true →
    let va := gReg u.g y.toNat
    (63 ≤ smGet u.g.flags (u.flag false) 0 → exec (.launchG gd x y) s = .next s) ∧
    (smGet u.g.flags (u.flag false) 0 < 63 →
      (va.toNat % 128 ≠ 0 → u.g.lantern = false → exec (.launchG gd x y) s = .next (terminate
        (closeOp (u.adv (opened s u (u.op false .launch))) s.next) u.gid .misaligned u.f.pc u.word 0 va)) ∧
      (∀ s₁ bs, va.toNat % 128 = 0 → readHdr s u.g.ctx (clusterOf s u.g.wg) [12, u.gid, u.e] va.toNat = .ok s₁ bs none →
        let h : Hdr := BitVec.ofNat 1024 (leNat bs)
        (launchOk h = false → u.g.lantern = false → exec (.launchG gd x y) s = .next (terminate
          (closeOp (u.adv (opened s₁ u (u.op false .launch))) s₁.next) u.gid .illegalInstr u.f.pc u.word 0 va)) ∧
        (launchOk h = true → Config.queueDepth ≤ pendingIn s₁ u.g.ten (hPrio h) → exec (.launchG gd x y) s = .next s₁) ∧
        (launchOk h = true → pendingIn s₁ u.g.ten (hPrio h) < Config.queueDepth →
          let id := match smFind s₁.ctxs u.g.ctx with | some c => c.nextLaunch | none => 1
          let queued := fun l : Launch => State.adjCtx { s₁ with
            next := s₁.next + 1
            launches := smPut s₁.launches s₁.next l }
            u.g.ctx fun c => { c with nextLaunch := c.nextLaunch + 1 }
          let l : Launch := ⟨u.g.ctx, u.g.ten, hPrio h, va, h, id, false, 0, 0, 0, [], 0, [], [], false, 0⟩
          let runs := fun t : State => u.adv (openOp t { u.op false .launch with gout := [(x.toNat, id)] }).1
          (hWaiten h ≠ 0 → exec (.launchG gd x y) s = .next (runs (queued l))) ∧
          (hWaiten h = 0 → (hasWork h = false ∨ fitsEmpty s₁ u.g.ten (hNeeds h) (hE h 2) = true) →
            exec (.launchG gd x y) s = .next (runs (dropTok (queued { l with eligible := true }) [1, s₁.next]))))) ∧
      (∀ s₁, va.toNat % 128 = 0 → readHdr s u.g.ctx (clusterOf s u.g.wg) [12, u.gid, u.e] va.toNat = .wait s₁ →
        smFind s₁.gangs u.gid = some u.g →
        exec (.launchG gd x y) s = .next (State.adjFrag
          (u.adv (opened s₁ u { u.op false .launch with todo := [⟨0, va, 0, 0, 0⟩] })) u.gid u.e
          fun f => { f with st := .blocked, wait := .op s₁.next })))) ∧
  (∀ (s : State) (k : Nat) (o : Op), smFind s.ops k = some o → o.kind = .launch → o.parked = false → o.todo = [] → o.resp = [] →
    exec (.memoryAccessComplete k) s = .next (completeOp s k o)) ∧
  (∀ (s : State) (u : Iss) (gd : Guard) (m : BitVec 2) (x y : BitVec 6), Issues (.signalG gd m x y) s u →
    guardQ u.g.q gd = true →
    let va := gReg u.g x.toNat
    let inc := gReg u.g y.toNat
    let st := u.g.stream.toNat
    let q : SigRetry := ⟨u.g.ctx, st, va, inc, gangRec u.g .pageNotPresent .async u.f.pc u.word 0 va, s.now, false⟩
    let s₀ := releaseAt s (sigScope m.toNat)
    let s₁ : State := { s₀ with sigs := smPut s.sigs s.next q, next := s.next + 1 }
    let tries := addCounter s₁ u.g.ctx st [5, s.next] false va inc
    (va.toNat % 8 ≠ 0 → exec (.signalG gd m x y) s = .next (terminate s u.gid .misaligned u.f.pc u.word 0 va)) ∧
    (∀ c, va.toNat % 8 = 0 → translate (s.winOf u.g.ctx) va.toNat (some .atomic) = .error c →
      exec (.signalG gd m x y) s = .next (terminate s u.gid c u.f.pc u.word 0 va)) ∧
    (∀ ia home, va.toNat % 8 = 0 → translate (s.winOf u.g.ctx) va.toNat (some .atomic) = .ok (ia, home) → isMap ia = false →
      let held := pastBound s u.g { signalDesc with stream := st } [⟨0, va, 0, 0, 0⟩]
      let banks := m = 0 ∧ ∃ p ∈ s.mem.l2, wbBusy s p.1 = true
      (held = true → exec (.signalG gd m x y) s = .next s) ∧
      (held = false → banks → exec (.signalG gd m x y) s = .next (withFrag s u.gid u.g u.e
        { u.f with st := .blocked, wait := .redo (.signalG gd m x y) [va, inc, BitVec.ofNat 64 st] })) ∧
      (held = false → ¬banks →
        (∀ s₂, tries = .done s₂ → exec (.signalG gd m x y) s = .next (u.adv { s₂ with sigs := smDel s₂.sigs s.next })) ∧
        (∀ s₂, tries = .wait s₂ →
          exec (.signalG gd m x y) s = .next (u.adv { s₂ with sigs := smPut s₂.sigs s.next { q with retryAt := s₂.now } })) ∧
        (∀ s₂ c, tries = .fault s₂ c →
          let s₃ := postRec s₂ u.g.ctx { q.rec_ with code := c }
          (parksAs c = false → exec (.signalG gd m x y) s = .next (u.adv { s₃ with sigs := smDel s₃.sigs s.next })) ∧
          (parksAs c = true → exec (.signalG gd m x y) s = .next (u.adv { s₃ with
            sigs := smPut s₃.sigs s.next { q with posted := true, retryAt := s₃.now + 10000 } })))))) ∧
  (∀ (s s₂ : State) (k : Nat) (q : SigRetry), smFind s.sigs k = some q →
    (s.now < q.retryAt → exec (.signalAddRetry k) s = .next s) ∧
    (q.retryAt ≤ s.now → addCounter s q.ctx q.stream [5, k] false q.va q.inc = .done s₂ →
      exec (.signalAddRetry k) s = .next { s₂ with sigs := smDel s₂.sigs k })) ∧
  (∀ (s : State) (u : Iss) (gd : Guard) (m : BitVec 2) (x y : BitVec 6), Issues (.waitge gd m x y) s u →
    guardQ u.g.q gd = true →
    let va := gReg u.g x.toNat
    (va.toNat % 8 ≠ 0 → exec (.waitge gd m x y) s = .next (terminate s u.gid .misaligned u.f.pc u.word 0 va)) ∧
    let waits := fun t : State => (dropTok t [4, u.gid, u.e]).adjFrag u.gid u.e fun f =>
      { f with st := .blocked, wait := .counter va (gReg u.g y.toNat) m.toNat }
    (∀ s₁ sp, va.toNat % 8 = 0 → reach s u.g.ctx (s.winOf u.g.ctx) va.toNat .load = .spot s₁ sp →
      exec (.waitge gd m x y) s = .next (waits s₁)) ∧
    (∀ ia, va.toNat % 8 = 0 → reach s u.g.ctx (s.winOf u.g.ctx) va.toNat .load = .map ia →
      (mapAt s (clusterOf s u.g.wg) ia 8 ≠ none → exec (.waitge gd m x y) s = .next (waits s)) ∧
      (mapAt s (clusterOf s u.g.wg) ia 8 = none →
        exec (.waitge gd m x y) s = .next (terminate s u.gid .permission u.f.pc u.word 0 va))) ∧
    (∀ c, va.toNat % 8 = 0 → reach s u.g.ctx (s.winOf u.g.ctx) va.toNat .load = .fault c → exec (.waitge gd m x y) s =
      .next (if parksAs c then park s u.gid u.e c (.redo (.waitge gd m x y) [va, gReg u.g y.toNat]) u.f.pc u.word 0 va
        else terminate s u.gid c u.f.pc u.word 0 va))) ∧
  (∀ (s s₂ : State) (bs : List Byte) (gid e m : Nat) (g : Gang) (f : Frag) (va tgt : B64),
    smFind s.gangs gid = some g → smFind g.frags e = some f → f.wait = .counter va tgt m → g.ending = none →
    readCounter s g gid e va = .ok s₂ bs none →
    let v := leNat bs
    (v < 2 ^ 63 → tgt.toNat % 2 ^ 63 ≤ v → exec (.waitgeSatisfied gid e) s =
      .next ((unblock (acquireAt s₂ g.core (sigScope m)) gid e).adjFrag gid e Frag.step)) ∧
    (v < tgt.toNat % 2 ^ 63 → exec (.waitgeSatisfied gid e) s = .next s₂) ∧
    (2 ^ 63 ≤ v → ∃ i word, exec (.waitgeSatisfied gid e) s =
      .next (park s₂ gid e .flagPoisoned (.redo i [va, tgt]) f.pc word 0 va))) ∧
  (∀ (s : State) (u : Iss) (gd : Guard) (m : BitVec 2) (sc : BitVec 4), Issues (.fenceG gd m sc) s u → guardQ u.g.q gd = true →
    let held := m ≠ 2 ∧ ∃ p ∈ s.mem.l2, wbBusy s p.1 = true ∧
      (sc = 5 ∨ 8 ≤ sc.toNat ∧ (winDies (s.winOf u.g.ctx)).testBit (keyDie p.1) = true ∧ ∃ a, p.2.under = .frame a)
    (held → exec (.fenceG gd m sc) s = .next (withFrag s u.gid u.g u.e
      { u.f with st := .blocked, wait := .redo (.fenceG gd m sc) [] })) ∧
    (¬held → sc.toNat < 8 →
      let s₁ := if m = 2 then s else releaseAt s sc.toNat
      (m = 1 → exec (.fenceG gd m sc) s = .next (moved u u.g s₁)) ∧
      (m ≠ 1 → exec (.fenceG gd m sc) s = .next (moved u u.g (acquireAt s₁ u.g.core sc.toNat))) ∧
      (sc ≠ 5 → s₁ = s)) ∧
    (¬held → 8 ≤ sc.toNat →
      let s₁ := if m = 2 then s else releasePart s (some u.g.core) (winDies (s.winOf u.g.ctx)) none
      let s₂ := if m = 1 then s₁ else acquirePart s₁ u.g.core none
      exec (.fenceG gd m sc) s = .next (u.adv s₂))) ∧
  (∀ (s : State) (key pa : Nat) (l : L2Line), s.mem.l1.Pairwise (fun a b => a.1 < b.1) →
    s.mem.l2.Pairwise (fun a b => a.1 < b.1) → smFind s.mem.l2 key = some l → l.under = .frame pa → l.bytes.length = 128 →
    (∀ p ∈ s.mem.l2, p.1 ≠ key → ∀ q, p.2.under = .frame q → q + 128 ≤ pa ∨ pa + 128 ≤ q) → ∀ i < 128,
    let newer := fun p : Nat × L1Line => p.2.home = key ∧ p.2.dirty.getLsbD i = true
    let now := some (readByte (releaseAt s 5).mem.frames (pa + i))
    ((∀ p ∈ s.mem.l1, ¬newer p) → l.dirty.getLsbD i = true → now = l.bytes[i]?) ∧
    (∀ p ∈ s.mem.l1, newer p → p.2.bytes.length = 128 → (∀ q ∈ s.mem.l1, newer q → q = p) → now = p.2.bytes[i]?))

/-- R15, R48 to R53, R58 to R61, R382, R384: the dispatcher. A launch whose counters have reached their targets becomes
eligible; its next cluster is placed on cores that fit; a launch all of whose workgroups have exited completes and is gone;
the completion waits for the context's writes to host and pool; a Lantern gang is queued by LGCMD, once its header's memory
is ready, and placed ahead of the tenant's workgroups, none of a stopped context. What the model chose: that the cluster
placed is the launch's lowest one not yet placed (log 43), that a completion's signals are counted on stream 0 (log 38),
that a completion's release waits for banks under refresh (log 66), and which launches count as pending (log 19). -/
def Obligations.Dispatcher : Prop :=
  (∀ (s : State) (k : Nat) (l : Launch), smFind s.launches k = some l → l.eligible = false →
    (∀ s₁ x ok, pollCounters k l ((List.range 4).filter (hWaiten l.hdr).testBit) s { l with retryAt := 0 } = some (s₁, some (x, ok)) →
      let t := if ok then (if hasWork x.hdr = true ∧ fitsEmpty s₁ x.ten (hNeeds x.hdr) (hE x.hdr 2) = false
        then postRec { dropTok s₁ [1, k] with launches := smPut s₁.launches k { x with
            eligible := true, retryAt := 0, failed := true, nextCluster := clusters x.hdr } } x.ctx
          (dispRec .illegalInstr x.id x.hdrVa)
        else { dropTok s₁ [1, k] with launches := smPut s₁.launches k { x with eligible := true, retryAt := 0 } })
        else { s₁ with launches := smPut s₁.launches k x }
      (l.retryAt = 0 → exec (.launchEligible k) s = .next t) ∧
      (l.retryAt ≠ 0 → l.retryAt ≤ s.now → l.phase = 0 → exec (.launchCounterRetry k) s = .next t)) ∧
    (hWaiten l.hdr = 0 → l.retryAt = 0 → hasWork l.hdr = false → exec (.launchEligible k) s =
      .next { dropTok s [1, k] with launches := smPut s.launches k { l with eligible := true, retryAt := 0 } })) ∧
  (∀ (s : State) (k : Nat) (l : Launch) (cores : List Nat), smFind s.launches k = some l →
    lanternWaits s l.ten = false → coresOk s l.ten cores = true → cores.length = hE l.hdr 2 →
    (takeCores s (hNeeds l.hdr) cores [] []).isSome = true →
    (∀ x ∈ itemsBefore s (.fresh k), itemCores s x = none) → (itemCores s (.fresh k)).isSome = true →
    exec (.workgroupPlace (.fresh k) cores) s = .next (placeCluster { s with
      launches := smPut s.launches k { l with nextCluster := l.nextCluster + 1 } } k l.nextCluster l cores)) ∧
  (∀ (s : State) (k : Nat) (x : Launch), smFind s.launches k = some x →
    (launchDone s k x = true → x.retryAt = 0 → (ctxRuns s x.ctx = true ∨ 0 < clusters x.hdr) → x.phase = 0 →
      let s' := if hf x.hdr 21 1 = 1 then releaseAt s 5 else s
      let held := writesOut s x.ctx = true ∨ (hf x.hdr 21 1 = 1 ∧ ∃ p ∈ s.mem.l2, wbBusy s p.1 = true)
      let endedAs := fun t : State =>
        ({ (if hf x.hdr 22 1 = 1 then sendMsix t x.ten (hf x.hdr 24 4) else t) with launches := smDel t.launches k } : State)
      let at_ := fun (t : State) (n : Nat) =>
        ({ t with launches := smPut t.launches k { x with phase := n, retryAt := 0 } } : State)
      let add := fun (t : State) (i : Nat) => addCounter (at_ t (i + 1)) x.ctx 0 [1, k, 4 + i] true
        (hCounter x.hdr (hf x.hdr (512 + 64 * i) 32)) (BitVec.ofNat 64 (hf x.hdr (544 + 64 * i) 32))
      let kept := fun (t : State) (i : Nat) => smFind t.launches k = some { x with phase := i + 1, retryAt := 0 }
      (held → exec (.launchComplete k) s = .next s) ∧
      (¬held → (x.failed = true ∨ hSigen x.hdr = 0) → exec (.launchComplete k) s = .next (endedAs s')) ∧
      (∀ i t, ¬held → x.failed = false → (i = 0 ∧ hSigen x.hdr = 1 ∨ i = 1 ∧ hSigen x.hdr = 2) → kept t i →
        add s' i = .done t → exec (.launchComplete k) s = .next (endedAs t)) ∧
      (∀ t t', ¬held → x.failed = false → hSigen x.hdr = 3 → add s' 0 = .done t → kept t 0 → add t 1 = .done t' → kept t' 1 →
        exec (.launchComplete k) s = .next (endedAs t')) ∧
      (∀ t c, ¬held → x.failed = false → (hSigen x.hdr).testBit 0 = true → add s' 0 = .fault t c → kept t 0 →
        parksAs c = true → x.posted.getLsbD 4 = true → exec (.launchComplete k) s = .next { t with
          launches := smPut t.launches k { x with phase := 1, retryAt := t.now + 10000, posted := x.posted ||| (1#6 <<< 4) } })) ∧
    (x.phase = 2 → x.retryAt ≠ 0 → x.retryAt ≤ s.now → (hSigen x.hdr).testBit 1 = true →
      ∀ s₁, addCounter s x.ctx 0 [1, k, 5] true (hCounter x.hdr (hf x.hdr 576 32)) (BitVec.ofNat 64 (hf x.hdr 608 32)) = .done s₁ →
        smFind s₁.launches k = some x → exec (.completionSignalRetry k) s = .next
          { (if hf x.hdr 22 1 = 1 then sendMsix s₁ x.ten (hf x.hdr 24 4) else s₁) with launches := smDel s₁.launches k })) ∧
  (∀ (s : State) (ctx : BitVec 10) (b : BitVec 1) (hdr : BitVec 50) (c : Ctx), fld s.pf.lgcmd.toNat 61 2 ≠ 1 →
    smFind s.ctxs ctx.toNat = some c →
    let s₁ := s.setPf { s.pf with lgcmd := BitVec.ofNat 64 (ctx.toNat * 2 ^ 51 + hdr.toNat) }
    let settled := fun t : State => t.setPf { t.pf with lgwait := none }
    (c.lost = true → exec (.lgcmdStart ctx b hdr) s = .next (setLg (settled (dropTok s₁ [13])) 3)) ∧
    (∀ s₂, c.lost = false → readHdr s₁ ctx.toNat none [13] (128 * hdr.toNat) = .wait s₂ →
      exec (.lgcmdStart ctx b hdr) s = .next (setLg (s₂.setPf { s₂.pf with lgwait := some (ctx.toNat, hdr.toNat) }) 1)) ∧
    (∀ s₂ bs, c.lost = false → readHdr s₁ ctx.toNat none [13] (128 * hdr.toNat) = .ok s₂ bs none →
      let h : Hdr := BitVec.ofNat 1024 (leNat bs)
      lanternOk h = true → lanternCount s₂ c.ten < 8 → fitsEmpty s₂ c.ten (hNeeds h) 1 = true →
      exec (.lgcmdStart ctx b hdr) s =
        .next (setLg { settled s₂ with lanterns := smPut s₂.lanterns s₂.next ⟨ctx.toNat, h⟩, next := s₂.next + 1 } 1))) ∧
  (∀ (s : State) (k core : Nat) (x : LanternReq) (p : Nat × List (Nat × Nat)) (ps : List (Nat × List (Nat × Nat))),
    smFind s.lanterns k = some x → takeCores s (hNeeds x.hdr) [core] [] [] = some (p :: ps) →
    (ctxRuns s x.ctx = false → exec (.lanternPlace k core) s = .next s) ∧
    (ctxRuns s x.ctx = true → coresOk s (s.tenOf x.ctx) [core] = true → exec (.lanternPlace k core) s = .next (setLg
      (placeWg x.hdr x.ctx (s.tenOf x.ctx) none 0 k 0 true 0 p { s with lanterns := smDel s.lanterns k }) 2)))

/-- R16, R47: every gang that the placement of a launch's cluster makes starts at ENTRY with g0, g1 and g2 as the header
says, every other register and every predicate zero, %launch the launch identifier, %fpcr 0, the lanes below e0 live, and
one fragment of the slices that hold them. -/
def Obligations.PlacedGangs : Prop :=
  (∀ (s : State) (k n gid : Nat) (x : Launch) (cores : List Nat) (g : Gang),
    smFind (placeCluster s k n x cores).gangs gid = some g → smFind s.gangs gid = some g ∨
      ∃ s' wg f1 core at_ wid, g = newGang s' x.hdr x.ctx x.ten (some k) x.id wg f1 core at_ wid false) ∧
  (∀ (s : State) (h : Hdr) (ctx ten : Nat) (l : Option Nat) (id : B64) (wg f1 core : Nat) (at_ : Nat × Nat) (wid : Nat)
      (lantern : Bool), hE h 0 ≤ 32 →
    let g := newGang s h ctx ten l id wg f1 core at_ wid lantern
    let entry := BitVec.ofNat 64 (hEntry h)
    (∀ n, gReg g n = match n with
      | 0 => BitVec.ofNat 64 (hf h 256 64) | 1 => BitVec.ofNat 64 (hf h 320 64) | 2 => BitVec.ofNat 64 (hf h 384 64) | _ => 0) ∧
    (∀ lane n, laneReg g lane n = 0) ∧ (∀ n, n ≠ 7 → predMask g n = 0 ∧ qReg g n = false) ∧
    (∀ lane < 32, g.live.getLsbD lane = decide (lane < hE h 0)) ∧ g.mask = g.live ∧
    (∀ lane, smGet g.owid lane 0 = if lane < hE h 0 then BitVec.ofNat 64 (wid + lane) else 0) ∧
    (∃ f, g.frags = [(0, f)] ∧ f.st = .ready ∧ f.pc = entry ∧ f.hdr = entry ∧ f.rv = false ∧ f.smask = laneSlices g.live) ∧
    g.launchId = id ∧ g.fpcr = 0 ∧ g.fpsr = 0 ∧ g.stream = 0 ∧ g.flags = [] ∧ g.bind = none ∧ g.slots = [])

/-! Clauses. -/

/-- R71 to R77: a ready fragment fetches the clause at its header and checks it; a fault that parks parks it, another fault
or an illegal clause ends its workgroup; and a started clause issues its words one after another. R79: a clause starts only
when every flag that WAIT selects is clear; until then the fragment is not ready. The flags are the gang's, so they count
the operations of every fragment of it. The addresses that the records hold are the model's reading (log 14). -/
def Obligations.Clauses : Prop :=
  (∀ (s : State) (gid e : Nat) (g : Gang) (f : Frag), smFind s.gangs gid = some g → smFind g.frags e = some f →
    f.st = .ready → (f.clause = none ∨ ∃ c, f.clause = some c ∧ c.stale = true) → g.ending = none → g.held = false →
    let got := fetchClause s g.ctx [7, gid, e] (s.winOf g.ctx) f.hdr false
    (∀ s₁ w ws, got = .ok s₁ w ws → (f.pc - f.hdr).toNat / 4 ≤ ws.length → exec (.clauseFetch gid e) s =
      .next (s₁.adjFrag gid e fun f => { f with clause := some ⟨f.hdr, w, ws, f.pc ≠ f.hdr, false⟩ })) ∧
    (∀ s₁ w ws, got = .ok s₁ w ws → ws.length < (f.pc - f.hdr).toNat / 4 →
      exec (.clauseFetch gid e) s = .next (terminate s₁ gid .illegalClause f.hdr w 0 0)) ∧
    (∀ s₁ c va w, got = .fault s₁ c va w true → exec (.clauseFetch gid e) s =
      .next (park s₁ gid e c .fetch f.hdr w 0 (BitVec.ofNat 64 va))) ∧
    (∀ s₁ c va w, got = .fault s₁ c va w false → exec (.clauseFetch gid e) s =
      .next (terminate s₁ gid c f.hdr w 0 (BitVec.ofNat 64 va)))) ∧
  (∀ (s s₁ : State) (ctx : Nat) (tok : List Nat) (win : SMap (BitVec 192)) (hdr : B64) (run : Bool) (bs : List Byte),
    readPart s ctx none (tok ++ [0]) win .fetch hdr.toNat 4 = .ok s₁ bs none →
    let h := leNat bs
    let code := fun k : Nat => h / 2 ^ k % 16 < 12 ∨ h / 2 ^ k % 16 = 15
    (¬(h / 2 ^ 28 % 16 = 10 ∧ h / 2 ^ 24 % 16 = 0 ∧ code 20 ∧ code 16) →
      fetchClause s ctx tok win hdr run = .fault (dropTok s₁ tok) .illegalClause 0 (BitVec.ofNat 32 h) false) ∧
    (h / 2 ^ 28 % 16 = 10 → h / 2 ^ 24 % 16 = 0 → code 20 → code 16 → ∀ s₂ ws,
      readPart s₁ ctx none (tok ++ [1]) win .fetch (hdr.toNat + 4) (4 * (h % 16 + 1)) = .ok s₂ ws none →
      (wordsOk run h (wordsOf ws) = true →
        fetchClause s ctx tok win hdr run = .ok (dropTok s₂ tok) (BitVec.ofNat 32 h) (wordsOf ws)) ∧
      (wordsOk run h (wordsOf ws) = false →
        fetchClause s ctx tok win hdr run = .fault (dropTok s₂ tok) .illegalClause 0 (BitVec.ofNat 32 h) false))) ∧
  (∀ (f : Frag) (c : Clause) (k : Nat), f.clause = some c → c.words.length ≤ 16 → k < c.words.length →
    f.pc = c.hdr + BitVec.ofNat 64 (4 * (k + 1)) →
    (k + 1 < c.words.length → f.step = { f with pc := f.pc + 4 }) ∧
    (k + 1 = c.words.length → f.step = { f with pc := f.pc + 4, hdr := f.pc + 4, clause := none } ∧ f.nextHdr = f.pc + 4)) ∧
  (∀ (s : State) (gid e : Nat) (g : Gang) (f : Frag) (c : Clause), smFind s.gangs gid = some g → smFind g.frags e = some f →
   f.st = .ready → f.clause = some c → c.started = false → c.stale = false → g.ending = none → g.held = false →
   let clear := ∀ k < 12, c.word.getLsbD (4 + k) = true → smGet g.flags k 0 = 0
   (clear → exec (.clauseStart gid e) s =
     .next (withFrag s gid g e { f with pc := f.hdr + 4, clause := some { c with started := true } })) ∧
   (¬clear → exec (.clauseStart gid e) s = .next s))

/-! Privileged words. -/

/-- R85, R93, R161, R162, R250, R368: the four privileged words take ILLEGAL_INSTR in a context without the mark. FRESOLVE
acts on every parked fragment of the gang that it names, once all of them are resolvable: replay, skip, or terminate; and
writes its status. A fragment that TRAP parked goes on at its next word, whether replayed or skipped. The order of the
privilege check and the guard, and the status 1 where any parked fragment is unresolvable, are the model's reading (logs 15,
20). -/
def Obligations.PrivilegedAndResolve : Prop :=
  (∀ (i : Instr) (s : State) (u : Iss), privileged i = true → Issues i s u → ¬PrivCtx s u.g →
    exec i s = .next (terminate s u.gid .illegalInstr u.f.pc u.word 0 0)) ∧
  (∀ (s : State) (u : Iss) (gd : Guard) (x y z : BitVec 6), Issues (.fresolve gd x y z) s u → PrivCtx s u.g →
    guardQ u.g.q gd = true →
    let a := (gReg u.g x.toNat).toNat
    let act := (gReg u.g y.toNat).toNat
    let status := fun (n : Nat) (s : State) => u.adv (s.adjGang u.gid (setGReg · z.toNat (BitVec.ofNat 64 n)))
    let named := smKeys (fun _ (t : Gang) => t.ctx == a % 1024 && t.core == fld a 10 9 && t.quarter == fld a 19 2
      && t.slot == fld a 21 4 && t.ending.isNone) s.gangs
    ((2 ^ 25 ≤ a ∨ 3 ≤ act) → exec (.fresolve gd x y z) s = .next (status 3 s)) ∧
    (a < 2 ^ 25 → act < 3 →
      (∀ n, target u.g s (a % 1024) true = .error n → exec (.fresolve gd x y z) s = .next (status n s)) ∧
      (∀ c, target u.g s (a % 1024) true = .ok c →
        (named = [] → exec (.fresolve gd x y z) s = .next (status 1 s)) ∧
        (∀ gid rest t, named = gid :: rest → smFind s.gangs gid = some t →
          let ps := parkedFrags t
          ((ps = [] ∨ ∃ q ∈ ps, q.2.resolvable = false) → exec (.fresolve gd x y z) s = .next (status 1 s)) ∧
          (ps ≠ [] → (∀ q ∈ ps, q.2.resolvable = true) →
            (act = 0 → exec (.fresolve gd x y z) s = .next (status 0 (replayAll gid ps (acquireSi s t.core)))) ∧
            (act = 1 → exec (.fresolve gd x y z) s =
              .next (status 0 (ps.foldl (fun s q => skipFrag s gid q.1 q.2) (acquireSi s t.core)))) ∧
            (act = 2 → exec (.fresolve gd x y z) s = .next (status 0 (endParked s gid)))))))) ∧
  (∀ (s : State) (gid e : Nat) (g : Gang) (f : Frag) (p : Parked), smFind s.gangs gid = some g → smFind g.frags e = some f →
    p.kind = .trap →
    let c : Option Clause := f.clause.map fun (c : Clause) => { c with stale := true }
    let t := withFrag s gid g e { ({ f with clause := c } : Frag).step with st := .ready, wait := .none }
    replayFrag s gid e p = t ∧ skipFrag s gid e p = t) ∧
  (∀ (s : State) (gid e : Nat) (g : Gang) (f : Frag) (p : Parked), smFind s.gangs gid = some g → smFind g.frags e = some f →
    p.kind = .fetch →
    let c : Option Clause := f.clause.map fun (c : Clause) => { c with stale := true }
    replayFrag s gid e p = withFrag s gid g e { f with clause := c, st := .ready, wait := .none })

/-- R164, R297, R369 to R376: CTXSAVE stops its target and waits until nothing of it is resident; what it cuts is discarded
while it may run again, and drained or saved otherwise, all of it once the bound has passed; a saved cluster's image holds
its gangs, one workgroup's after another's in the save area; the runs of a context that is torn down end with its drain
bound; CTXLOAD loads the windows of a context with no resident gang and lets it run; what it makes of the queue registers is
free (log 57). A CTXSAVE that finds another one under way joins it, one of the whole kind has the rest saved at once, and a
fragment that was itself saved while it waited gets its status in its image. An image of which the host holds a half is
written once the host has given that up (R351). The image's layout and the order of the checks are the model's (logs 21, 22,
48), and so is that a CTXLOAD whose image's memory is not ready has issued, and waits with its operands (log 49). -/
def Obligations.SaveAndLoad : Prop :=
  (∀ (s : State) (u : Iss) (gd : Guard) (x y z : BitVec 6), Issues (.ctxsave gd x y z) s u → PrivCtx s u.g →
    guardQ u.g.q gd = true →
    let a := (gReg u.g x.toNat).toNat
    let whole := (gReg u.g y.toNat).getLsbD 0
    let status := fun n : Nat => moved u (setGReg u.g z.toNat (BitVec.ofNat 64 n)) s
    (1024 ≤ a → exec (.ctxsave gd x y z) s = .next (status 3)) ∧
    (a < 1024 →
      (∀ n, target u.g s a false = .error n → exec (.ctxsave gd x y z) s = .next (status n)) ∧
      (∀ c, target u.g s a false = .ok c →
        let ws := residentWgs s a
        (ws = [] → exec (.ctxsave gd x y z) s = .next (status 1)) ∧
        (ws ≠ [] → saveEnd c < saveFree s a c + (ws.map (imageSize s)).sum →
          exec (.ctxsave gd x y z) s = .next (status 3)) ∧
        (ws ≠ [] → saveFree s a c + (ws.map (imageSize s)).sum ≤ saveEnd c →
          let s₀ := withFrag s u.gid u.g u.e { u.f with st := .blocked, wait := .save a z.toNat }
          let s₁ := s₀.adjCtx a fun t =>
            { t with stopped := true, saving := some ⟨s.now, s.now + 1000 * (s.tenant t.ten).drb, whole⟩ }
          (c.saving = none → exec (.ctxsave gd x y z) s = .next (if whole then saveSettled (holdCtx s₁ a) a
            else (residentClusters s₁ a).foldl (fun s k => if inRegion s k then discard s k else s) s₁)) ∧
          (∀ v, c.saving = some v → exec (.ctxsave gd x y z) s = .next (if whole
            then saveSettled (holdCtx (s₀.adjCtx a fun t => { t with saving := some { v with whole := true } }) a) a else s₀)))))) ∧
  (∀ (s : State) (ctx : Nat) (c : Ctx) (v : Saving), smFind s.ctxs ctx = some c → c.saving = some v →
    (c.teardown = none → v.bound ≤ s.now → exec (.preemptSave ctx) s = .next (saveSettled (abortRuns (holdCtx s ctx) ctx) ctx)) ∧
    (c.teardown = none → s.now < v.bound → v.whole = false → exec (.preemptSave ctx) s = .next s) ∧
    (∀ gid e g f z, residentWgs s ctx = [] → (∀ p ∈ s.runs, p.2.ctx ≠ ctx) →
      waiters s (fun _ w => match w with | .save c _ => c == ctx | _ => false) = [(gid, e)] →
      smFind s.gangs gid = some g → smFind g.frags e = some f → f.wait = .save ctx z →
      (∀ im ∈ s.images, ∀ p ∈ im.2.gangs, ∀ q ∈ p.2.frags, ∀ z', q.2.wait ≠ .save ctx z') →
      exec (.ctxsaveDone ctx) s = .next (withFrag (s.adjCtx ctx fun c => { c with saving := none }) gid (setGReg g z 0) e
        { f.step with st := .ready, wait := .none })) ∧
    (∀ k im p e f z, residentWgs s ctx = [] → (∀ q ∈ s.runs, q.2.ctx ≠ ctx) → smFind s.images k = some im → p ∈ im.gangs →
      p.2.frags = [(e, f)] → f.wait = .save ctx z → ∃ t im', exec (.ctxsaveDone ctx) s = .next t ∧
        smFind t.images k = some im' ∧
        (p.1, { setGReg p.2 z 0 with frags := [(e, { f.step with st := .ready, wait := .none })] }) ∈ im'.gangs) ∧
    ((residentWgs s ctx ≠ [] ∨ ∃ p ∈ s.runs, p.2.ctx = ctx) → exec (.ctxsaveDone ctx) s = .next s)) ∧
  (∀ (s : State) (ctx t : Nat) (c : Ctx), smFind s.ctxs ctx = some c → c.saving = none → c.teardown = some t →
    (s.now < t → exec (.preemptSave ctx) s = .next s) ∧
    (t ≤ s.now → exec (.preemptSave ctx) s = .next ((abortRuns s ctx).adjCtx ctx fun c => { c with teardown := none }))) ∧
  (∀ (s : State) (ctx : Nat) (k : Nat × Nat) (c : Ctx), smFind s.ctxs ctx = some c →
    let t := saveCluster s ctx k
    let ws := (clusterWgs s k).map Prod.fst
    (∀ h, imageHosted s ctx c (clusterWgs s k) = some h → t = askHalf s h) ∧
    (imageHosted s ctx c (clusterWgs s k) = none → ∃ im, smFind t.images s.next = some im ∧ im.ctx = ctx ∧ im.cluster = k.2 ∧ im.wgs = clusterWgs s k ∧
      im.places.length = im.wgs.length ∧
      (∀ i pl, im.places[i]? = some pl → pl.1 = saveFree s ctx c + ((im.places.take i).map fun q => q.2.length).sum ∧
        pl.2.length % 4096 = 0 ∧ readBytes t.mem.frames pl.1 pl.2.length = pl.2) ∧
      im.gangs = s.gangs.filter (fun p => match p.2.wg with | some w => ws.contains w | none => false) ∧
      (∀ p ∈ t.gangs, ∀ w ∈ ws, p.2.wg ≠ some w) ∧ ∀ w ∈ ws, smFind t.wgs w = none)) ∧
  (∀ (s : State) (u : Iss) (gd : Guard) (x y z : BitVec 6), Issues (.ctxload gd x y z) s u → PrivCtx s u.g →
    guardQ u.g.q gd = true →
    let a := gReg u.g x.toNat
    let va := gReg u.g y.toNat
    let ctx := a.toNat % 1024
    (a &&& ~~~0x103ff#64 ≠ 0 → exec (.ctxload gd x y z) s = .next (moved u (setGReg u.g z.toNat 3) s)) ∧
    (∀ n, a &&& ~~~0x103ff#64 = 0 → target u.g s ctx false = .error n →
      exec (.ctxload gd x y z) s = .next (statusFrag s u.gid u.e z.toNat n)) ∧
    (∀ c s₁ bs, a &&& ~~~0x103ff#64 = 0 → target u.g s ctx false = .ok c →
      readBlock s u.g.ctx (clusterOf s u.g.wg) [14, u.gid, u.e] (s.winOf u.g.ctx) .load va.toNat 192 = .ok s₁ bs none →
      let ws := (List.range 8).map fun i => BitVec.ofNat 192 (leNat ((bs.drop (24 * i)).take 24))
      ((∃ w ∈ ws, winOk w = false ∨ winLost s₁ w = true) →
        exec (.ctxload gd x y z) s = .next (statusFrag s₁ u.gid u.e z.toNat 3)) ∧
      ((∀ w ∈ ws, winOk w = true ∧ winLost s₁ w = false) →
        ((∃ p ∈ s₁.gangs, p.2.ctx = ctx) → exec (.ctxload gd x y z) s = .next (statusFrag s₁ u.gid u.e z.toNat 1)) ∧
        ((∀ p ∈ s₁.gangs, p.2.ctx ≠ ctx) →
          let s₂ := loadQueue ((ws.zipIdx).foldl (fun s p => setWin s ctx p.2 p.1) s₁) ctx
          exec (.ctxload gd x y z) s = .next (statusFrag
            (if a.getLsbD 16 then s₂.adjCtx ctx fun t => { t with stopped := false } else s₂) u.gid u.e z.toNat 0)))) ∧
    (∀ c s₁, a &&& ~~~0x103ff#64 = 0 → target u.g s ctx false = .ok c →
      readBlock s u.g.ctx (clusterOf s u.g.wg) [14, u.gid, u.e] (s.winOf u.g.ctx) .load va.toNat 192 = .wait s₁ →
      exec (.ctxload gd x y z) s = .next (s₁.adjFrag u.gid u.e fun f =>
        { f with st := .blocked, wait := .redo (.ctxload gd x y z) [a, va] })))

/-! The physical function. -/

/-- R5, R39, R40, R212, R365, R366: contexts are created and destroyed by command, refused with a code where the context is
there or absent, has work or a live run, or a field is reserved, and ignored while a DESTROY is busy, which ends with the
last arrival entry of its context; a core-set word is taken unless it shares a core, breaks a strict group or removes a core
with a gang, and then sets ERR; a register write takes its fields' bits and no other, and a smaller LMAX leaves the larger
one counted for 256 us; FQCTL keeps LOG2N within 4 to 16 and clears OVF by 1. The order of two codes, and what a
region-table write does at once, are the model's reading (logs 25, 29, 44). -/
def Obligations.ContextsAndRegisters : Prop :=
  (∀ (s : State) (priv : BitVec 1) (ctx ten : BitVec 10) (rsv : BitVec 40),
    let cmd := fun op : Nat => s.setPf { s.pf with
      ctxcmd := BitVec.ofNat 64 (ten.toNat * 2 ^ 40 + ctx.toNat * 2 ^ 50 + priv.toNat * 2 ^ 60 + op * 2 ^ 61) }
    let stat := fun (s : State) (st code : Nat) =>
      s.setPf { s.pf with ctxstat := BitVec.ofNat 64 (st * 2 ^ 62 + code * 2 ^ 56 + s.now % 2 ^ 56) }
    (s.pf.destroying ≠ none →
      exec (.ctxCreate priv ctx ten rsv) s = .next s ∧ exec (.ctxDestroy priv ctx ten rsv) s = .next s) ∧
    (s.pf.destroying = none →
      ((rsv ≠ 0 ∨ 512 < ten.toNat ∨ s.plat.recovery = true ∨ (ten ≠ 0 ∧ (s.tenant ten.toNat).enabled = false)) →
        exec (.ctxCreate priv ctx ten rsv) s = .next (stat (cmd 0) 3 3)) ∧
      (rsv = 0 → ten.toNat ≤ 512 → s.plat.recovery = false → (ten = 0 ∨ (s.tenant ten.toNat).enabled = true) →
        ((smFind s.ctxs ctx.toNat).isSome = true → exec (.ctxCreate priv ctx ten rsv) s = .next (stat (cmd 0) 3 1)) ∧
        (smFind s.ctxs ctx.toNat = none → exec (.ctxCreate priv ctx ten rsv) s = .next (stat { cmd 0 with
          ctxs := (smPut s.ctxs ctx.toNat (Ctx.fresh ten.toNat (priv == 1)
            (BitVec.ofNat 32 ((s.tenant ten.toNat).ports.toNat * 2 ^ 20) &&& s.plat.live))) } 2 0))) ∧
      (rsv ≠ 0 → exec (.ctxDestroy priv ctx ten rsv) s = .next (stat (cmd 1) 3 3)) ∧
      (rsv = 0 → smFind s.ctxs ctx.toNat = none → exec (.ctxDestroy priv ctx ten rsv) s = .next (stat (cmd 1) 3 2)) ∧
      (∀ c, rsv = 0 → smFind s.ctxs ctx.toNat = some c →
        (c.lost = false → ((∃ p ∈ s.gangs, p.2.ctx = ctx.toNat) ∨ ∃ p ∈ s.runs, p.2.ctx = ctx.toNat) →
          exec (.ctxDestroy priv ctx ten rsv) s = .next (stat { cmd 1 with ctxs := smPut s.ctxs ctx.toNat { c with
            teardown := some (c.teardown.getD (s.now + 1000 * (s.tenant c.ten).drb)) } } 3 4)) ∧
        ((c.lost = true ∨ (∀ p ∈ s.gangs, p.2.ctx ≠ ctx.toNat) ∧ ∀ p ∈ s.runs, p.2.ctx ≠ ctx.toNat) →
          (∀ p ∈ s.fab.arr, p.2.owner ≠ ctx.toNat) →
          ∃ t, exec (.ctxDestroy priv ctx ten rsv) s = .next t ∧ smFind t.ctxs ctx.toNat = none ∧
            fld t.pf.ctxstat.toNat 62 2 = 2)))) ∧
  (∀ (s : State) (c key : Nat) (e : ArrE), smFind s.fab.arr key = some e → e.closing = true → s.pf.closing = none →
    s.pf.destroying = some c → (∀ p ∈ s.fab.arr, p.1 = key ∨ p.2.owner ≠ c) → (∀ q ∈ e.slots, q.2.flag = none) →
    (∀ w ∈ s.fab.writes, w.2.flagOf key = false) →
    settleEntry s key = endDestroy (s.setFab { s.fab with arr := smDel s.fab.arr key }) c ∧
    smFind (settleEntry s key).ctxs c = none ∧ (settleEntry s key).pf.destroying = none) ∧
  (∀ (s : State) (ten : Nat) (j : BitVec 3) (v : BitVec 64), ten ≤ 512 →
    let t := s.tenant ten
    let whole := fun v : B64 => ∀ i < 8, v.toNat / 2 ^ (8 * i) % 256 = 0 ∨ v.toNat / 2 ^ (8 * i) % 256 = 255
    let shared := ∃ p ∈ s.tenants, p.1 ≠ ten ∧ smGet p.2.cores j.toNat 0 &&& v ≠ 0
    let removed := ∃ p ∈ s.gangs, p.2.ten = ten ∧ p.2.core / 64 = j.toNat ∧ v.getLsbD (p.2.core % 64) = false
    ((shared ∨ (t.strict = true ∧ ¬whole v) ∨ removed) → exec (.tencoreWrite ten j v) s =
      .next { s with tenants := smPut s.tenants ten { t with err := true } }) ∧
    (¬shared → (t.strict = true → whole v) → ¬removed → exec (.tencoreWrite ten j v) s =
      .next { s with tenants := smPut s.tenants ten { t with cores := smSet t.cores j.toNat v 0, err := false } }) ∧
    ∀ w : BitVec 32,
      (w.getLsbD 0 = true → (∃ j < 8, ¬whole (smGet t.cores j 0)) → exec (.tencfgWrite ten w) s =
        .next { s with tenants := smPut s.tenants ten { t with err := true } }) ∧
      ((w.getLsbD 0 = true → ∀ j < 8, whole (smGet t.cores j 0)) → exec (.tencfgWrite ten w) s =
        .next { s with tenants := smPut s.tenants ten { t with strict := w.getLsbD 0, err := false } })) ∧
  (∀ (s : State) (v : BitVec 192),
    let n := v.toNat % 2 ^ 64
    exec (.registerWrite .peerid v) s = .next (s.setPf { s.pf with peerid := BitVec.ofNat 9 n }) ∧
    exec (.registerWrite .troot v) s = .next { s with
      pf := { s.pf with troot := BitVec.ofNat 64 (fld n 16 24 * 2 ^ 16) }, mem := { s.mem with ptes := [] } } ∧
    (∀ k, k < 256 → exec (.registerWrite (.export_ k) v) s = .next (s.setPf { s.pf with
      exports := smPut s.pf.exports k (BitVec.ofNat 128
        (fld v.toNat 0 24 + fld v.toNat 64 36 * 2 ^ 64 + fld v.toNat 106 22 * 2 ^ 106)) })) ∧
    (∀ ten, ten ≤ 512 → let t := s.tenant ten
      let put := fun t : Tenant => ({ s with tenants := smPut s.tenants ten t } : State)
      (4 ≤ n % 512 → n % 512 ≤ 256 → exec (.registerWrite (.lease ten) v) s = .next (put
        (if n % 512 < t.lmax then { t with
          lmax := n % 512, lwas := (if s.now < t.lwasEnd then max t.lmax t.lwas else t.lmax), lwasEnd := s.now + 256000 }
        else { t with lmax := n % 512 }))) ∧
      (n % 512 < 4 ∨ 256 < n % 512 → exec (.registerWrite (.lease ten) v) s = .next s) ∧
      (16 ≤ n % 2 ^ 20 → n % 2 ^ 20 ≤ 1000000 → exec (.registerWrite (.fabcfg ten) v) s =
        .next (put { t with rtmo := n % 2 ^ 20 })) ∧
      exec (.registerWrite (.sfq ten) v) s = .next (put { t with quota := min 16 (n % 32) }) ∧
      exec (.registerWrite (.drain ten) v) s = .next (put { t with drb := n % 65536 }) ∧
      ∀ j < 8, exec (.registerWrite (.peers ten j) v) s = .next (put { t with peers := smSet t.peers j (BitVec.ofNat 64 n) 0 })) ∧
    (∀ ctx c, smFind s.ctxs ctx = some c →
      exec (.registerWrite (.fqbase ctx) v) s =
        .next { s with ctxs := smPut s.ctxs ctx { c with fqbase := BitVec.ofNat 64 (fld n 12 28 * 2 ^ 12) } } ∧
      exec (.registerWrite (.csa ctx) v) s = .next { s with ctxs := smPut s.ctxs ctx { c with
        csa := BitVec.ofNat 64 (fld n 16 24 * 2 ^ 16 + fld n 48 16 * 2 ^ 48) } })) ∧
  (∀ (s : State) (ctx : Nat) (v : B32) (c : Ctx), smFind s.ctxs ctx = some c →
    exec (.fqctlWrite ctx v) s =
      .next (drainQueue { s with ctxs := smPut s.ctxs ctx { c with fqctl := fqctlNew c.fqctl v } } ctx) ∧
    exec (.fqheadWrite ctx v) s = .next (drainQueue { s with ctxs := smPut s.ctxs ctx { c with fqhead := v } } ctx)) ∧
  (∀ old v : B32,
    let w := fqctlNew old v
    (∀ k, (29 ≤ k ∧ k < 32 ∨ 20 ≤ k ∧ k < 24 ∨ k < 16) → w.getLsbD k = v.getLsbD k) ∧
    (let lg := v.toNat / 2 ^ 24 % 32
     w.toNat / 2 ^ 24 % 32 = if 4 ≤ lg ∧ lg ≤ 16 then lg else old.toNat / 2 ^ 24 % 32) ∧
    w.getLsbD 16 = (old.getLsbD 16 && !v.getLsbD 16) ∧ ∀ k, 17 ≤ k → k < 20 → w.getLsbD k = false)

/-- R202, R211 to R219: translation commands. A busy slot ignores a start; a command is refused with the code of the check
that fails; a page command first rewrites its leaf, once the host has given up what it holds of the entry (R351), then waits
for the leases, then invalidates, and then ends, scrubs or copies; a copy that is done switches the leaf; a scrub zeroes its
range; SPLIT writes the entries of the smaller pages; a COLLAPSE asks the twin, which makes its page remote, answers once
its leases are over, and is answered under a key of its port. A hash profile is committed where its masks are independent
and no region uses it. A granted translation leaves a lease, and its holder answers from it; a request that comes late is
refused: its holder drops what it held and translates again. The order of the codes and when a holder keeps a translation
are the model's reading (logs 5, 24, 44). -/
def Obligations.TranslationCommands : Prop :=
  (∀ (i : Instr) (s : State) (slot : BitVec 4) (w : BitVec 60) (op : Nat),
    (i = .unmapPage slot w ∧ op = 0 ∨ i = .updatePage slot w ∧ op = 1 ∨ i = .migratePage slot w ∧ op = 2 ∨
      i = .splitPage slot w ∧ op = 3 ∨ i = .collapsePage slot w ∧ op = 4 ∨ i = .scrubFrame slot w ∧ op = 5) →
    let k := slot.toNat
    let x₀ := cmdSlot s k
    let c := op * 2 ^ 60 + w.toNat
    let kept := BitVec.ofNat 64 (c % 2 ^ 46 + c / 2 ^ 48 % 2 ^ 8 * 2 ^ 48 + c / 2 ^ 58 % 2 ^ 5 * 2 ^ 58)
    let x : CmdSlot := { x₀ with cmd := kept, rcmd := kept, rpte := x₀.pte, rarg := x₀.arg }
    let s₁ := setSlotOf s k x
    let bad := c / 2 ^ 58 % 4 = 3 ∨ c / 2 ^ 56 % 4 ≠ 0 ∨ c / 2 ^ 46 % 4 ≠ 0 ∨ 512 < c / 2 ^ 36 % 1024
    (x₀.stat.toNat / 2 ^ 62 = 1 → exec i s = .next s) ∧
    (x₀.stat.toNat / 2 ^ 62 ≠ 1 → bad → exec i s = .next (endCmd s₁ k 3)) ∧
    (x₀.stat.toNat / 2 ^ 62 ≠ 1 → ¬bad → cmdOverlap s₁ k x = true → exec i s = .next (endCmd s₁ k 5)) ∧
    (x₀.stat.toNat / 2 ^ 62 ≠ 1 → ¬bad → cmdOverlap s₁ k x = false →
      (op = 5 → isFrame (cIa x) = true → cIa x % 2 ^ cSh x = 0 → cIa x < 2 ^ 40 →
        exec i s = .next (stageCmd s₁ k (.scrubbing (cIa x) (2 ^ cSh x)))) ∧
      (∀ e sh a, op < 5 → walk s₁ (cIa x) = .ok (e, sh, a) →
        (sh = cSh x → a = x.rpte.toNat → cIa x % 2 ^ sh = 0 → leafOk s.pf e sh = true →
          (cmdHosted s₁ x a = none → exec i s = .next (pageCmd s₁ k x e a)) ∧
          ∀ h, cmdHosted s₁ x a = some h → exec i s = .next (stageCmd (askHalf s₁ h) k .start)) ∧
        ((sh ≠ cSh x ∨ a ≠ x.rpte.toNat ∨ leafOk s.pf e sh = false) → exec i s = .next (endCmd s₁ k 1))))) ∧
  (∀ (s : State) (k : Nat) (x : CmdSlot) (e a : Nat),
    let st := e / 2 ^ 61 % 8
    let arg := x.rarg.toNat
    let waits := fun (s : State) => stageCmd s k (.leases (leaseEnd s (cIa x) (cSh x)) (BitVec.ofNat 64 e))
    let put := fun (s : State) (v : Nat) => putLeaf s a v (cIa x) (cSh x)
    (cOp x = 0 → st ≠ 2 → arg ≤ 1 → pageCmd s k x e a = waits (put s (e - 1))) ∧
    (cOp x = 1 → st ≠ 2 → arg / 2 ^ 61 % 8 ≠ 2 → arg % 4 = 3 → leafOk s.pf arg (cSh x) = true →
      pageCmd s k x e a = waits (put s arg)) ∧
    (cOp x = 2 → st = 0 → isFrame arg = true → arg % 2 ^ cSh x = 0 →
      pageCmd s k x e a = waits (put s (setFld e 61 3 2))) ∧
    (cOp x = 3 → st ≠ 2 → cSh x = 21 → isFrame arg = true → arg % 256 = 0 → pageCmd s k x e a = endCmd (put
      ((List.range 32).foldl (fun s i => putEntry s (arg + 8 * i) (splitEntry e i)) s) (arg / 256 * 256 + 1)) k 0) ∧
    (cOp x = 3 → st ≠ 2 → cSh x = 30 → isFrame arg = true → arg % 4096 = 0 → pageCmd s k x e a = endCmd (put
      ((List.range 512).foldl (fun s i => putEntry s (arg + 8 * i) (splitEntry e (32 * i))) s) (arg / 256 * 256 + 1)) k 0) ∧
    (cOp x = 3 → st ≠ 2 → cSh x = 16 → pageCmd s k x e a = endCmd s k 2) ∧
    (cOp x = 4 → st = 1 → (∀ ex off, exportOf s.pf (cIa x) = some (ex, off) → pageCmd s k x e a = stageCmd (sendFlit
      { s with next := s.next + 1 } (mkFlit s 0x08 (e / 2 ^ 40 % 512) 0 0 0 s.next 0
        (collapseBody (cIa x) (fld x.rcmd.toNat 58 2) (cHome x) ex off) false)) k
      (.twin (s.now + 1000 * (s.tenant (cTen x)).rtmo)))) ∧
    (∀ pa v ia sh, (putLeaf s pa v ia sh).mem.frames = (putEntry s pa v).mem.frames ∧
      ∀ p ∈ (putLeaf s pa v ia sh).mem.ptes, ia + 2 ^ sh ≤ p.1 * 2 ^ 16 ∨ p.1 * 2 ^ 16 + 2 ^ p.2.size ≤ ia) ∧
    (∀ pa v b, readByte (putEntry s pa v).mem.frames b =
      if pa ≤ b ∧ b < pa + 8 then (toBytes 8 v).getD (b - pa) 0
      else readByte ((linesOf pa 8).foldl purgeFrame s.mem).frames b)) ∧
  (∀ (s : State) (slot : BitVec 4),
    let k := slot.toNat
    let x := cmdSlot s k
    (∀ t old, x.stage = .leases t old →
      (s.now ≤ t → exec (.leaseWaitEnd slot) s = .next s) ∧
      (t < s.now →
        (∀ s₁, invalidate s (cIa x) (cSh x) (cHome x) (cTen x) old.toNat = .ok s₁ →
          (cOp x = 0 → x.rarg ≠ 1 → exec (.leaseWaitEnd slot) s = .next (endCmd s₁ k 0)) ∧
          (cOp x = 0 → x.rarg = 1 → old.toNat / 2 ^ 61 < 2 → exec (.leaseWaitEnd slot) s =
            .next (stageCmd s₁ k (.scrubbing (leafFrame old.toNat) (2 ^ cSh x)))) ∧
          (cOp x = 1 → updateInvalidates old.toNat x.rarg.toNat = true → exec (.leaseWaitEnd slot) s = .next (endCmd s₁ k 0)) ∧
          (cOp x = 2 → exec (.leaseWaitEnd slot) s = .next (stageCmd s₁ k (.copying old)))) ∧
        (cOp x = 4 → exec (.leaseWaitEnd slot) s = .next (endCmd s k 0)))) ∧
    (∀ old, x.stage = .copying old →
      (hostedFrame s.mem x.rpte.toNat 8 = none → exec (.migrateCopyDone slot) s = .next (replayQueue (endCmd (putLeaf
        (s.setMem (copyFrames s.mem (leafFrame old.toNat) x.rarg.toNat (2 ^ cSh x))) x.rpte.toNat
        (setFld (setFld old.toNat 61 3 0) 16 24 (fld x.rarg.toNat 16 24)) (cIa x) (cSh x)) k 0) (cIa x) (cSh x))) ∧
      ∀ h, hostedFrame s.mem x.rpte.toNat 8 = some h → exec (.migrateCopyDone slot) s = .next (askHalf s h)) ∧
    (∀ pa n, x.stage = .scrubbing pa n →
      exec (.scrubDone slot) s = .next (endCmd (s.setMem (zeroFrames s.mem pa n)) k 0)) ∧
    (∀ d, x.stage = .twin d →
      (d ≤ s.now → exec (.collapseTimeout slot) s = .next (endCmd s k 4)) ∧
      (∀ r y, HearsAt s r.via.port r.via.kg.toNat y →
        let s' := heardAt s r.via.port r.via.kg.toNat y
        let e := leNat (readBytes s.mem.frames x.rpte.toNat 8)
        let s₁ := putLeaf s' x.rpte.toNat (setFld (setFld e 61 3 0) 40 9 0) (cIa x) (cSh x)
        (r.ok = false → exec (.collapseReplyReceive slot r) s = .next (endCmd s' k 4)) ∧
        (r.ok = true → hostedFrame s.mem x.rpte.toNat 8 = none → exec (.collapseReplyReceive slot r) s =
          .next (stageCmd s₁ k (.leases (leaseEnd s (cIa x) (cSh x)) (BitVec.ofNat 64 e)))) ∧
        (∀ h, r.ok = true → hostedFrame s.mem x.rpte.toNat 8 = some h →
          exec (.collapseReplyReceive slot r) s = .next (stageCmd (askHalf s' h) k .agreed))))) ∧
  (∀ (s : State) (m : CollapseMsg),
    let sh := match m.size.toNat with | 0 => 16 | 1 => 21 | _ => 30
    (∀ y, List.find? (fun p : Nat × TwinJob => p.2.m == m) s.mem.twins = none → smFind s.mem.twins s.next = none →
      HearsAt s m.via.port m.via.kg.toNat y →
      let s' := { heardAt s m.via.port m.via.kg.toNat y with next := s.next + 1 }
      (∀ c, walk s m.ia = .error c → exec (.collapseRequestReceive m) s = .next (collapseReply s' m false)) ∧
      (∀ e sh' a, walk s m.ia = .ok (e, sh', a) → (sh' ≠ sh ∨ e / 2 ^ 61 % 8 ≠ 1 ∨ e / 2 ^ 40 % 512 ≠ m.peer.toNat ∨
        m.ia % 2 ^ sh ≠ 0) → exec (.collapseRequestReceive m) s = .next (collapseReply s' m false)) ∧
      (∀ e a, walk s m.ia = .ok (e, sh, a) → e / 2 ^ 61 % 8 = 1 → e / 2 ^ 40 % 512 = m.peer.toNat → m.ia % 2 ^ sh = 0 →
        hostedFrame s.mem a 8 = none →
        let s₁ := putLeaf s' a (3 + m.peer.toNat * 2 ^ 8 + m.exp.toNat * 2 ^ 17 + fld m.off 16 24 * 2 ^ 25 + fld e 51 3 * 2 ^ 51
          + 3 * 2 ^ 61) m.ia sh
        exec (.collapseRequestReceive m) s = .next { s₁ with
          mem := { s₁.mem with twins := (smPut s.mem.twins s.next ⟨m, leaseEnd s m.ia sh, BitVec.ofNat 64 e, true⟩) } })) ∧
    (∀ j t, List.find? (fun p : Nat × TwinJob => p.2.m == m) s.mem.twins = some (j, t) → t.begun = true →
      (s.now ≤ t.until_ → exec (.collapseRequestReceive m) s = .next s) ∧
      (∀ s₁, t.until_ < s.now → invalidate s m.ia sh m.home.toNat m.ten.toNat t.old.toNat = .ok s₁ → t.m = m →
        exec (.collapseRequestReceive m) s = .next (collapseReply
          (replayQueue (s₁.setMem { s₁.mem with twins := smDel s₁.mem.twins j }) m.ia sh) m true)))) ∧
  (∀ (m : Mem) (pa n a : Nat), readByte (zeroFrames m pa n).frames a = if pa ≤ a ∧ a < pa + n then 0 else readByte m.frames a) ∧
  (∀ (m : Mem) (src dst n a : Nat), Memory.wf m.frames = true → readByte (copyFrames m src dst n).frames a =
    if dst ≤ a ∧ a < dst + n then readByte m.frames (src + (a - dst)) else readByte m.frames a) ∧
  (∀ (s : State) (h ia ten : Nat) (kind : AccKind) (expiry : Option Nat),
    let late := ∃ e, expiry = some e ∧ e < s.now
    let go := fun t : State => exec (.translationRequest ⟨h, ten⟩ ia kind expiry) s =
      .next (match lookup t h ten ia (some kind) with | .ok r => r.1 | .error _ => t)
    (¬late → go s) ∧
    (late → ∃ held, go { s with mem := { s.mem with held := held } } ∧ (∀ sh, sh = 16 ∨ sh = 21 ∨ sh = 30 →
      smFind held (heldKey h ia sh) = none) ∧ ∀ k, (∀ sh, sh = 16 ∨ sh = 21 ∨ sh = 30 → k ≠ heldKey h ia sh) →
        smFind held k = smFind s.mem.held k) ∧
    (∀ e sh, ¬late → heldLeaf s h ia = none → cachedPte s ia = none → leafOf s ia = .ok (e, sh) → (sh = 16 ∨ sh = 21 ∨ sh = 30) →
      pageFault kind (leafPage e sh ia) = none → e / 2 ^ 61 % 8 ≠ 2 →
      let end_ := s.now + 1000 * (s.tenant ten).lmax
      ∃ t, exec (.translationRequest ⟨h, ten⟩ ia kind expiry) s = .next t ∧
        smFind t.mem.held (heldKey h ia sh) = some ⟨BitVec.ofNat 64 e, sh, end_⟩ ∧ end_ + 2 ≤ leaseEnd t ia sh) ∧
    (∀ x, heldLeaf s h ia = some x → passes (some kind) ia x = true →
      lookup s h ten ia (some kind) = .ok (s, portPage s (leafPage x.leaf.toNat x.size ia)))) ∧
  (∀ (s : State) (grp : Nat) (prof : BitVec 3), grp < 3 →
    let ms := (List.range 24).map (staged s.pf grp)
    let ok := 2 ≤ prof.toNat ∧ gfFull ms [] = true ∧ ∀ q ∈ s.pf.region, q.1 / 128 = grp → q.2.toNat % 8 ≠ prof.toNat
    (ok → exec (.profctlCommit grp prof) s = .next (s.setPf { s.pf with
      profctl := smPut s.pf.profctl grp (BitVec.ofNat 32 prof.toNat)
      masks := (ms.zipIdx).foldl (fun m q => smPut m ((grp * 8 + prof.toNat) * 24 + q.2) (BitVec.ofNat 24 q.1)) s.pf.masks })) ∧
    (¬ok → exec (.profctlCommit grp prof) s = .next (s.setPf { s.pf with
      profctl := smPut s.pf.profctl grp (BitVec.ofNat 32 (prof.toNat + 2 ^ 30)) })))

/-! The platform. -/

/-- R54 to R57, R377, R385, R389, R390: a die that is lost or taken out of service is no longer live, and every context that
has touched it is lost; it returns where no live context has touched it and none of its islands is off; a die slows by 25
MHz, not below 400 MHz, from above 95 degrees until it is below 95, and so does every island above the power cap; at 105
degrees, or where its supply fails, a die is taken out of service. What a die taken out of service leaves and when it
returns is the model's reading (logs 26, 27). -/
def Obligations.Dies : Prop :=
  (∀ (s : State) (sock : Nat), s.plat.live.getLsbD sock = false → exec (.dieLoss sock) s = .next s) ∧
  (∀ (s : State) (sock : Nat), sock < 22 → s.plat.live.getLsbD sock = true →
    ∃ t, exec (.dieLoss sock) s = .next t ∧ t.plat = { s.plat with live := s.plat.live &&& ~~~(1#32 <<< sock) } ∧
      ∀ c x, smFind s.ctxs c = some x → (x.dies.getLsbD sock = true ∨ x.doomed = some sock) →
        ∃ y, smFind t.ctxs c = some y ∧ y.lost = true) ∧
  (∀ (s : State) (k : BitVec 5),
    (22 ≤ k.toNat → exec (.dieTakeOut k) s = .next (setDiesvc s 0 k.toNat 3) ∧
      exec (.dieReturn k) s = .next (setDiesvc s 1 k.toNat 3)) ∧
    (k.toNat < 22 → exec (.dieTakeOut k) s = .next (setDiesvc (outOfService s k.toNat) 0 k.toNat 2) ∧
      (let trips := s.plat.live.getLsbD k.toNat = true ∧
          (105 ≤ smGet s.plat.temps k.toNat 0 ∨ smGet s.plat.supply k.toNat false = true)
       (trips → exec (.thermalTrip k.toNat) s = .next (outOfService s k.toNat)) ∧
       (¬trips → exec (.thermalTrip k.toNat) s = .next s)) ∧ (outOfService s k.toNat).plat.live.getLsbD k.toNat = false) ∧
    (k.toNat < 22 → ((∃ p ∈ s.ctxs, p.2.lost = false ∧ p.2.dies.getLsbD k.toNat = true) ∨
        ∃ i ∈ islandsOf k.toNat, (island s i).off = true) →
      exec (.dieReturn k) s = .next (setDiesvc s 1 k.toNat 3)) ∧
    (k.toNat < 22 → (∀ p ∈ s.ctxs, p.2.lost = true ∨ p.2.dies.getLsbD k.toNat = false) →
      (∀ i ∈ islandsOf k.toNat, (island s i).off = false) →
      ∃ t, exec (.dieReturn k) s = .next t ∧ t.plat = { s.plat with live := s.plat.live ||| (1#32 <<< k.toNat) } ∧
        fld t.pf.diesvc.toNat 29 2 = 2) ∧
    (∀ op : BitVec 1,
      let r := dieOp s op.toNat k.toNat
      exec (.dieService op k) s = .next { r.1 with
        plat := { r.1.plat with out := r.1.plat.out ++ [(5, if r.2 = 2 then 0 else 2, [])] } })) ∧
  (∀ (s : State),
    (∀ die n, let t := senseTemp s die n
      smGet t.plat.temps die 0 = n ∧ (95 < n → smGet t.plat.hot die false = true) ∧
      (n < 95 → smGet t.plat.hot die false = false) ∧ (n = 95 → t.plat.hot = s.plat.hot)) ∧
    (∀ die, smGet s.plat.hot die false = true → ∃ t, exec (.thermalThrottleStep die) s = .next t ∧
      ∀ k, (island t k).off = (island s k).off ∧
        (island t k).mhz = if k ∈ islandsOf die then max 400 ((island s k).mhz - 25) else (island s k).mhz) ∧
    (∀ die, smGet s.plat.hot die false = false → exec (.thermalThrottleStep die) s = .next s) ∧
    (s.plat.cap < s.plat.power → ∃ t, exec .powerCapEnforce s = .next t ∧
      ∀ k, (island t k).mhz = if k < 16 then max 400 ((island s k).mhz - 25) else (island s k).mhz) ∧
    (s.plat.power ≤ s.plat.cap → exec .powerCapEnforce s = .next s))

/-- R386 to R388, R390, R391, R5, R70: management and boot. Each Basermyo command appends its response and does what it
names; a cold reset returns everything to its reset value but what lies outside the package's state, and boots slot A, else
slot B, else recovery, but tries first the slot that FW_UPDATE has written (log 58); in recovery the physical function alone
is presented; a measurement request is answered on a host port. Basermyo's status numbers, what GET_CAP says of the ports,
the digests and the firmware slots are the model's (logs 3, 7, 8, 47). -/
def Obligations.Management : Prop :=
  ∀ (s : State),
    let replies := fun (p : Platform) (c st : Nat) (l : List Nat) => ({ s with plat := { p with out := p.out ++ [(c, st, l)] } } : State)
    exec .getCap s = .next (replies s.plat 1 0 ([s.plat.fwver.toNat * 2 ^ 160 + s.plat.live.toNat * 2 ^ 128 + 0x0301 * 2 ^ 112
      + 0x0100 * 2 ^ 96 + 0x0100 * 2 ^ 80 + 0x0100 * 2 ^ 64 + 2 * 2 ^ 56 + 2 * 2 ^ 48 + s.plat.form.toNat] ++
      (List.range 6).flatMap fun p => [(hport s p).cxl.toNat, (hport s p).gts, (hport s p).lanes, (hport s p).flit])) ∧
    exec .getSensors s = .next (replies s.plat 2 0 ((List.range 22).map (fun k => smGet s.plat.temps k 0)
      ++ (List.range 16).map (fun k => islandCode (islandSt s k)) ++ (List.range 16).map (fun k => (island s k).mhz)
      ++ [s.plat.power])) ∧
    (∀ w, 1500 ≤ w → w ≤ 3400 → exec (.setCap w) s = .next (replies { s.plat with cap := w } 3 0 [])) ∧
    (∀ w, w < 1500 ∨ 3400 < w → exec (.setCap w) s = .next (replies s.plat 3 1 [])) ∧
    exec .getErrors s = .next (replies s.plat 4 0 ([s.plat.corrected]
      ++ (List.range 64).map (fun p => match smFind s.fab.ports p with | some x => x.errs | none => 0)
      ++ (List.range 6).map (fun p => (hport s p).errs) ++ (List.range 2).map fun i => smGet s.fab.errors i 0)) ∧
    (∀ x, (s.plat.running = 0 → exec (.fwUpdate x) s = .next (replies { s.plat with slotB := x, first := 1 } 6 0 [])) ∧
      (s.plat.running ≠ 0 → exec (.fwUpdate x) s = .next (replies { s.plat with slotA := x, first := 0 } 6 0 []))) ∧
    (∀ fn code, fn ≠ 0 → exec (.basermyoUnknownCommand fn code) s = .next (replies s.plat code.toNat 2 [])) ∧
    (∀ code : BitVec 8, code = 0 ∨ 7 ≤ code.toNat → exec (.basermyoUnknownCommand 0 code) s =
      .next (replies s.plat code.toNat 1 [])) ∧
    (∀ port nonce, port < 2 → ∃ l, exec (.spdmRequest port nonce) s = .next (replies s.plat (256 + port) 0 l) ∧ l.length = 5) ∧
    (∃ t, exec .coldReset s = .next t ∧
      { t with inbox := [], turn := 0, free := 0, plat := Platform.reset, tenants := [] } = State.reset ∧ t.inbox = s.inbox ∧
      t.plat.slotA = s.plat.slotA ∧ t.plat.slotB = s.plat.slotB ∧ t.plat.keyHash = s.plat.keyHash ∧
      t.plat.rollback = s.plat.rollback ∧
      (let a := imageOk s.plat s.plat.slotA
       let b := imageOk s.plat s.plat.slotB
       (a = true → (s.plat.first = 0 ∨ b = false) →
         t.plat.running = 0 ∧ t.plat.fwver = s.plat.slotA.version ∧ t.plat.recovery = false) ∧
       (b = true → (s.plat.first ≠ 0 ∨ a = false) →
         t.plat.running = 1 ∧ t.plat.fwver = s.plat.slotB.version ∧ t.plat.recovery = false) ∧
       (a = false → b = false → t.plat.recovery = true)) ∧
      (t.plat.recovery = false → t.tenants = []) ∧
      (t.plat.recovery = true → t.tenant 0 = Tenant.reset ∧ ∀ n, 1 ≤ n → n ≤ 512 → (t.tenant n).enabled = false))

/-! The host and the pool. -/

/-- R347 to R357: a host access goes through an HDM window to memory, or is refused and counted by its port; one whose
memory is not ready is accepted and waits (R203); a host bit clears once the host answers a snoop, its dirty data reaching
the line or the frame; an external snoop is answered; an answer to a request fills the half it asked for, once the line has
its way in its set, or reaches the lane; a lane's write is over with its completion, and clears the marks of the flags it
has written (R312); a request that has no answer in 10 ms fails, and so do the requests of a pool port that fails. The kinds
of message and what the host's reads mark are the model's reading (logs 8, 18). -/
def Obligations.HostAndPool : Prop :=
  (∀ (s : State) (port hpa len : Nat),
    let s₀ : State := { s with next := s.next + 1, host := { s.host with pend := smPut s.host.pend s.next ⟨port, hpa, len, none⟩ } }
    let gone := fun t : State => dropTok { t with host := { t.host with pend := smDel t.host.pend s.next } } [15, s.next]
    let got := hostFetch port s.next (cutHalves (len / 64 + 2) hpa len) s₀ [] false
    let send := fun (s : State) (bs : List Byte) (psn : Bool) => ({ s with
      host := { s.host with out := s.host.out ++ [(8, hpa, bs, psn)] } } : State)
    (∀ s₁ n, got = .wait s₁ n → exec (.hostRead port hpa len) s = .next s₁) ∧
    (∀ s₁, got = .refused s₁ → let t := gone s₁
      exec (.hostRead port hpa len) s = .next (send
        { t with host := { t.host with ports := smPut t.host.ports port { hport t port with errs := (hport t port).errs + 1 } } }
        (List.replicate len 0) true)) ∧
    (∀ s₁ bs psn, got = .done s₁ bs psn → let t := gone s₁
      (((hport t port).cxl ≠ 0x0301 ∨ hpa % 64 ≠ 0 ∨ len % 64 ≠ 0) →
        exec (.hostRead port hpa len) s = .next (send t bs psn)) ∧
      ((hport t port).cxl = 0x0301 → hpa % 64 = 0 → len % 64 = 0 →
        exec (.hostRead port hpa len) s = .next (send (setHostBits t port hpa len) bs psn)))) ∧
  (∀ (s : State) (port hpa : Nat) (data : List Byte),
    let ps := cutHalves (data.length / 64 + 2) hpa data.length
    let q : HostReq := ⟨port, hpa, data.length, some data⟩
    let s₀ : State := { s with next := s.next + 1, host := { s.host with pend := smPut s.host.pend s.next q } }
    let got := hostStore port s.next ps data 0 s₀
    ((∃ q ∈ ps, hostPlace s port q.1 .store = none) → exec (.hostWrite port hpa data) s = .next { s with
      host := { s.host with ports := smPut s.host.ports port { hport s port with errs := (hport s port).errs + 1 } } }) ∧
    ((∀ q ∈ ps, (hostPlace s port q.1 .store).isSome = true) →
      (∀ t bs psn, got = .done t bs psn → exec (.hostWrite port hpa data) s =
        .next (dropTok { t with host := { t.host with pend := smDel t.host.pend s.next } } [15, s.next])) ∧
      (∀ t n, got = .wait t n → exec (.hostWrite port hpa data) s = .next { t with host := { t.host with
        pend := smPut t.host.pend s.next ⟨port, hpa + n, data.length - n, some (data.drop n)⟩ } }))) ∧
  (∀ (s : State) (half pa : Nat), smFind s.mem.snooping half = some pa →
    let m := { s.mem with snooping := smDel s.mem.snooping half, hostBits := smDel s.mem.hostBits half }
    exec (.birsp half none) s = .next (redoAll (drainAll (fillWaiting (refit (s.setMem m))))) ∧
    (∀ bs : List Byte, bs.length = 64 →
      let home := m.l2.find? fun p => keyLine p.1 == half / 2 && p.2.under == .frame (pa / 128 * 128)
      let took := fun m : Mem => redoAll (drainAll (fillWaiting (refit (s.setMem (unmark m (64 * half) 64)))))
      (home = none → exec (.birsp half (some bs)) s = .next (took (onFrame m pa 64 (.store bs)).1)) ∧
      ∀ k l, home = some (k, l) →
        exec (.birsp half (some bs)) s = .next (took (sliceAccess m l (64 * half) 64 k (.store bs)).1))) ∧
  (∀ (s : State) (half : Nat) (kind : SnoopKind), poolKey s half = none → exec (.externalSnoop half kind) s = .next
    { s with host := { s.host with out := s.host.out ++ [(4, half, [], false)] } }) ∧
  (∀ (s : State) (half key : Nat) (l : L2Line) (kind : SnoopKind), poolKey s half = some key → smFind s.mem.l2 key = some l →
    l.half (half % 2) ≠ .i → (l.half (half % 2) = .s → kind = .inv) →
    let t := surrender s key (half % 2) (kind == .data)
    exec (.externalSnoop half kind) s = .next { t with host := { t.host with out := t.host.out ++ [(4, half, [], false)] } }) ∧
  (∀ (s : State) (k : Nat) (q : CxlReq), smFind s.host.reqs k = some q → q.ans = none →
    let s₁ : State := { s with host := { s.host with reqs := smDel s.host.reqs k }, next := s.next + 1 }
    (∀ data psn t, q.direct = false →
      (fillHalf s₁ q data psn = .ok t → exec (.cxlFillResponse k data psn) s = .next (redoAll t)) ∧
      (fillHalf s₁ q data psn = .error t →
        exec (.cxlFillResponse k data psn) s = .next (t.setReq k { q with ans := some (data, psn) }))) ∧
    (∀ data o x, q.direct = true → q.op = some o → q.lane = some x → q.write = none → q.excl = false →
      smKeys (fun _ y => y.sameRead q) s.host.reqs = [k] →
      let answer := fun a => Host.Outcome.next (answerLane { s with host := { s.host with reqs := smDel s.host.reqs k } } o x a)
      let at_ := x.va.toNat % 64
      let marked := smGet s.mem.flagMarks ((q.half * 64 + at_) / 8) false = true ∧
        ∃ y m, smFind s.ops o = some y ∧ y.kind = .mem m ∧ m.acquires = true ∧ m.dir = .load
      exec (.cxlFillResponse k data true) s = answer (.error (.dataPoison, false, x.va)) ∧
      (marked → exec (.cxlFillResponse k data false) s = answer (.error (.flagPoisoned, true, x.va))) ∧
      (¬marked → exec (.cxlFillResponse k data false) s = answer (.ok ((data.drop at_).take 64)))) ∧
    (∀ data o x w, q.direct = true → q.op = some o → q.lane = some x → q.write = some w →
      exec (.cxlFillResponse k data false) s = .next (answerLane
        (s₁.setMem (unmark s₁.mem (q.half * 64 + w.1) w.2.length)) o x (.ok (q.old.getD [])))) ∧
    (q.deadline ≤ s.now → exec (.cxlRequestTimeout k) s = .next (takeCxl s k q (List.replicate 64 0) true)) ∧
    (s.now < q.deadline → exec (.cxlRequestTimeout k) s = .next s)) ∧
  (∀ (s : State) (port : Nat), ∃ t, exec (.poolPortFailure port) s = .next t ∧
    t = (smKeys (fun _ (q : CxlReq) => q.port == 2 + port) s.host.reqs).foldl failCxl
      { s with host := { s.host with ports := smPut s.host.ports (2 + port) { hport s (2 + port) with live := false } } })

/-! Faults and reset. -/

/-- R363, R364, R366 to R368: the layout of a record, field by field, and posting. A record is written at the queue's tail
while the queue is enabled, has room and holds none pending, and the host holds nothing of its place (R351): its value
stands in memory there, the tail steps, and an armed queue sends its message once; otherwise it is pending, up to eight and
as many more as an enabled queue has room for, and then dropped: OVF is set and LOST counts. No posting changes a gang, a
lane or a register but that the parked fragment that the record stands for becomes resolvable once it is written or dropped,
and not while it is pending. That those the queue has room for wait while the host holds the record's place is the model's
(log 18). -/
def Obligations.FaultPosting : Prop :=
  (∀ (r : Rec) (ctx n ph : Nat), r.tkind < 64 → r.sock < 256 → ctx < 1024 → ph < 2 →
    (∀ core quarter slot, r.gang = some (core, quarter, slot) → core < 512 ∧ quarter < 4 ∧ slot < 16) →
    let v := r.value ctx n ph
    let at_ := fun lo w : Nat => v / 2 ^ lo % 2 ^ w
    v < 2 ^ 512 ∧ at_ 0 8 = r.code.num ∧ at_ 8 2 = r.cls.num ∧ at_ 10 6 = r.tkind ∧ at_ 16 8 = r.sock ∧ at_ 24 10 = ctx ∧
    (∀ core quarter slot, r.gang = some (core, quarter, slot) →
      at_ 34 4 = slot ∧ at_ 38 2 = quarter ∧ at_ 40 9 = core ∧ at_ 49 1 = 1) ∧
    (r.gang = none → at_ 34 16 = 0) ∧ at_ 64 64 = r.pc.toNat ∧ at_ 128 32 = r.word.toNat ∧ at_ 160 32 = r.mask.toNat ∧
    at_ 192 64 = r.addr.toNat ∧ at_ 256 64 = r.tk0.toNat ∧ at_ 320 64 = r.tk1.toNat ∧ at_ 384 64 = r.time % 2 ^ 64 ∧
    at_ 448 32 = n % 2 ^ 32 ∧ at_ 511 1 = ph) ∧
  (∀ (s : State) (cid : Nat) (r₀ : Rec) (c : Ctx), smFind s.ctxs cid = some c →
    let r : Rec := { r₀ with time := s.now, sock := match r₀.code with | .dieLost n => n | _ => r₀.sock }
    let t := postRec s cid r₀
    let n := c.fqtail.toNat
    let lg := c.fqctl.toNat / 2 ^ 24 % 32
    let at_ := c.fqbase.toNat / 2 ^ 12 % 2 ^ 28 * 4096 + 64 * (n % 2 ^ lg)
    let en := c.fqctl.getLsbD 31
    let full := decide ((c.fqtail - c.fqhead).toNat = 2 ^ lg)
    let room := if en then 2 ^ lg - (c.fqtail - c.fqhead).toNat else 0
    let resolves := ∀ gid e g f, r₀.owner = some (gid, e) → smFind s.gangs gid = some g → smFind g.frags e = some f →
      t.gangs = smPut s.gangs gid { g with frags := smPut g.frags e (match f.wait with
        | .parked p => { f with wait := .parked { p with resolvable := true } } | _ => f) }
    t.wgs = s.wgs ∧ t.ops = s.ops ∧ (r₀.owner = none → t.gangs = s.gangs) ∧
    (c.pending = [] → en = true → full = false → recHosted s c = none → resolves ∧
      readBytes t.mem.frames at_ 64 = toBytes 64 (r.value cid n (1 - n / 2 ^ lg % 2)) ∧
      ∃ c', smFind t.ctxs cid = some c' ∧ c'.fqtail = c.fqtail + 1 ∧ c'.pending = [] ∧
        (let fire := c.fqctl.getLsbD 29 && (!c.fqctl.getLsbD 30 || r.lantern)
         c'.fqctl.getLsbD 29 = (c.fqctl.getLsbD 29 && !fire) ∧
         t.msix = if fire then s.msix ++ [(c.ten, c.fqctl.toNat / 2 ^ 20 % 16)] else s.msix)) ∧
    ((c.pending ≠ [] ∨ en = false ∨ full = true ∨ recHosted s c ≠ none) → c.pending.length < 8 + room →
      t.gangs = s.gangs ∧ t = { askRec s c with ctxs := smPut s.ctxs cid { c with pending := c.pending ++ [r] } } ∧
      ((en = false ∨ full = true ∨ recHosted s c = none) → askRec s c = s)) ∧
    (8 + room ≤ c.pending.length → resolves ∧ ∃ c', t = { s with gangs := t.gangs, ctxs := smPut s.ctxs cid c' } ∧ c'.fqctl.getLsbD 16 = true ∧
      c'.fqctl.toNat % 65536 = min 65535 (c.fqctl.toNat % 65536 + 1) ∧ c'.pending = c.pending ∧
      (∀ k, 17 ≤ k → c'.fqctl.getLsbD k = c.fqctl.getLsbD k)))

/-- R225, R360, R362: taking a fault. A parked fragment is BLOCKED at its word, its record names it, and nothing else of its
gang changes; a terminated one ends every gang of its workgroup, whose launch has failed; lanes, registers and predicates
stay as they were in both. -/
def Obligations.TakingAFault : Prop :=
  (∀ (s : State) (gid e : Nat) (g : Gang) (f : Frag) (code : Code) (kind : ParkKind) (pc a : B64) (word : B32) (mask : Lanes),
    smFind s.gangs gid = some g → smFind g.frags e = some f → smFind s.ctxs g.ctx = none ∨
      (∃ c, smFind s.ctxs g.ctx = some c ∧ (c.pending ≠ [] ∨ c.fqctl.getLsbD 31 = false) ∧ c.pending.length < 8) →
    ∃ p g', smFind (park s gid e code kind pc word mask a).gangs gid = some g' ∧
      g' = { g with frags := smPut g.frags e { f with st := .blocked, wait := .parked p } } ∧
      p.code = code ∧ p.kind = kind ∧ p.mask = mask ∧ p.addr = a ∧ p.pc = pc ∧ p.word = word ∧
      (∀ c, smFind s.ctxs g.ctx = some c → p.resolvable = false ∧ ∃ c' r,
        smFind (park s gid e code kind pc word mask a).ctxs g.ctx = some c' ∧ c'.pending = c.pending ++ [r] ∧
        r.code = code ∧ r.cls = .parked ∧ r.gang = some (g.core, g.quarter, g.slot) ∧ r.pc = pc ∧ r.word = word ∧
        r.mask = mask ∧ r.addr = a ∧ r.time = s.now ∧ r.owner = some (gid, e))) ∧
  (∀ (s : State) (gid w : Nat) (g : Gang) (x : Workgroup) (code : Code) (pc a : B64) (word : B32) (mask : Lanes),
    smFind s.gangs gid = some g → g.wg = some w → smFind s.wgs w = some x →
    let t := terminate s gid code pc word mask a
    (∃ y, smFind t.wgs w = some y ∧ y = { x with failed := true }) ∧
    (∀ l, smFind s.launches x.launch = some l → smFind t.launches x.launch = some { l with failed := true }) ∧
    (∀ k ∈ x.gangs, ∀ h, smFind s.gangs k = some h → ∃ h', smFind t.gangs k = some h' ∧
      h'.ending = some (h.ending.getD .fault) ∧ { h' with ending := h.ending, flags := h.flags } = h) ∧
    (∀ k, k ∉ x.gangs → smFind t.gangs k = smFind s.gangs k) ∧
    t.runs = s.runs ∧ t.fab = s.fab ∧ t.binds = s.binds) ∧
  (∀ (s : State) (gid : Nat) (g : Gang), smFind s.gangs gid = some g → g.wg = none →
    (∀ p ∈ s.ops, p.2.gid = gid → p.2.parked = false) →
    endGroup s gid = { s with gangs := smPut s.gangs gid { g with ending := some (g.ending.getD .fault) } })

/-- R5, R40, R62, R70, R212, R309, R334, R353, R365, R369: reset. Package time and the Beacon start at 0; there is no
context, no work, no stream, no binding and no run; PEERID, TROOT and every status register are 0; a tenant starts with LMAX
32, RTMO 1,000 us, QUOTA 0, DRB 100 us, no peer and no core; a context comes with its windows invalid, its queue disabled
with LOG2N 4, and launch identifier 1 next. That memory lists nothing and has the canonical form is the model's (log 4). The
values of registers without a stated reset value are the model's (log 3). -/
def Obligations.ResetState : Prop :=
  let s := State.reset
  Canonical s ∧ s.now = 0 ∧ s.beacon = 0 ∧ s.ctxs = [] ∧ s.gangs = [] ∧ s.launches = [] ∧ s.runs = [] ∧ s.binds = [] ∧
  s.fab.send = [] ∧ s.fab.arr = [] ∧ s.pf.peerid = 0 ∧ s.pf.troot = 0 ∧ s.pf.ctxstat = 0 ∧ s.pf.strstat = 0 ∧ s.pf.diesvc = 0 ∧
  (∀ t, (s.tenant t).lmax = 32 ∧ (s.tenant t).rtmo = 1000 ∧ (s.tenant t).quota = 0 ∧ (s.tenant t).drb = 100 ∧
    (s.tenant t).peers = [] ∧ (s.tenant t).cores = [] ∧ (s.tenant t).strict = false) ∧
  (∀ ten priv dies, let c := Ctx.fresh ten priv dies
    (∀ n, (smGet c.win n 0).getLsbD 179 = false) ∧ fqEn c = false ∧ fqLog c = 4 ∧ c.fqtail = 0 ∧ c.fqhead = 0 ∧
    c.nextLaunch = 1 ∧ c.lost = false ∧ c.stopped = false ∧ c.pending = []) ∧
  ∀ a, readByte s.mem.frames a = 0

/-! Floating values. -/

/-- R119 to R121, R131, R132, R180: RoundTo. In each of the seven formats a nonzero exact value is rounded as R131 says: to
the encoding that stands for it, or to the neighbour that the mode names, to nearest with ties to even, toward zero, up or
down, with IX, and UF where it is tiny after rounding; past the largest finite magnitude the table of overflow applies, with
OF and IX; and under ftz what is tiny becomes a zero with UF and IX. A zero keeps its sign. What an encoding stands for is
R120's value, which rises with the magnitude; each format's smallest normal and largest finite magnitude are R131's. Round12
is the same with twelve bits of precision, and raises OF alone. -/
def Obligations.RoundTo : Prop :=
  (∀ f, f ∈ [f64, f32, f16, bf16, e5m2, e4m3, a36] →
    (∀ (mode : Nat) (sat ftz : Bool) (x : Ex), mode < 4 → 0 < x.den →
      (x.num ≠ 0 → Rounds f (f.fw + 1) mode sat ftz x (roundTo f mode sat ftz x)) ∧
      (x.num = 0 → roundTo f mode sat ftz x = (f.sgn x.neg, 0))) ∧
    (∀ m n, m < n → n ≤ f.maxMag + 1 → fpVal f m < fpVal f n) ∧
    (∀ x, f.mag x ≤ f.maxMag → 0 < (decodeFp f x).den ∧ exVal (decodeFp f x) = fpReal f x) ∧
    fpVal f 0 = 0 ∧ fpVal f (2 ^ f.fw) = 2 ^ f.emin) ∧
  (∀ f, (f = f32 ∨ f = f64) → ∀ (ftz : Bool) (x : Ex), 0 < x.den → x.num ≠ 0 →
    ∃ fl, Rounds f 12 0 false ftz x ((round12 f ftz x).1, fl) ∧ (round12 f ftz x).2 = fl &&& fOF) ∧
  (f64.emin = -1022 ∧ f32.emin = -126 ∧ f16.emin = -14 ∧ bf16.emin = -126 ∧ e5m2.emin = -14 ∧ e4m3.emin = -6 ∧
    a36.emin = -126) ∧
  fpVal f64 f64.maxMag = (2 - 2 ^ (-52 : ℤ)) * 2 ^ 1023 ∧ fpVal f32 f32.maxMag = (2 - 2 ^ (-23 : ℤ)) * 2 ^ 127 ∧
  fpVal f16 f16.maxMag = 65504 ∧ fpVal bf16 bf16.maxMag = (2 - 2 ^ (-7 : ℤ)) * 2 ^ 127 ∧
  fpVal e5m2 e5m2.maxMag = 57344 ∧ fpVal e4m3 e4m3.maxMag = 448 ∧ fpVal a36 a36.maxMag = (2 - 2 ^ (-27 : ℤ)) * 2 ^ 127

/-- R133, R177, R178, R180: floating arithmetic. Of finite operands, after ftz has replaced the subnormal ones, a sum, a
difference, a product, a fused product and sum and a quotient are their exact rational value rounded once, whatever exact
value stands for it; an exact zero has the sign that R177 gives it; a root is rounded as the exact root is, since the value
rounded lies on the root's side of every encoding and of every midpoint between two; the approximations of R180 are 1/a and
1/√a rounded to twelve bits. A NaN operand gives the first NaN with its quiet bit set, and IV where one signals; an invalid
operation gives the default NaN with IV; an infinite operand, and a division by zero, give what R177's and R178's tables
say. -/
def Obligations.FloatingArithmetic : Prop :=
  ∀ f, f ∈ [f64, f32, f16, bf16] → ∀ (mode : Nat) (ftz : Bool), mode < 4 →
    let rounded := fun (r : Nat × Flags) (v : ℚ) => ∀ x : Ex, 0 < x.den → exVal x = v → r = roundTo f mode false ftz x
    let zero := fun neg : Bool => (f.sgn neg, (0 : Flags))
    let inf := fun neg : Bool => (f.sgn neg + f.infMag, (0 : Flags))
    let invalid := (f.infMag + 2 ^ (f.fw - 1), fIV)
    let nan := fun l : List Nat => ∀ r : Nat × Flags, r = processNaN f f l → ∀ n, l.find? (isNaN f) = some n →
      n < 2 ^ (1 + f.ew + f.fw) → r = (n ||| 2 ^ (f.fw - 1), if l.any (isSNaN f) then fIV else 0)
    (∀ l, nan l) ∧
    ∀ a₀ b₀ : Nat,
      let a := flush f ftz a₀
      let b := flush f ftz b₀
      let s := xor (f.neg a) (f.neg b)
      let va := fpReal f a
      let vb := fpReal f b
      let okA := fpFinite f a
      let okB := fpFinite f b
      let nans := isNaN f a = true ∨ isNaN f b = true
      let infA := isInf f a = true
      let infB := isInf f b = true
      (∀ sub : Bool,
        let r := fpAdd f mode ftz sub a₀ b₀
        let v := if sub then va - vb else va + vb
        let nb := xor (f.neg b) sub
        (nans → r = processNaN f f [a, b]) ∧
        (okA → okB → v ≠ 0 → rounded r v) ∧
        (okA → okB → v = 0 → r = zero (if va = 0 ∧ vb = 0 ∧ f.neg a = nb then nb else mode == 3)) ∧
        (infA → infB → r = if f.neg a = nb then inf nb else invalid) ∧
        (infA → okB → r = inf (f.neg a)) ∧ (okA → infB → r = inf nb)) ∧
      (let r := fpMul f mode ftz a₀ b₀
       (nans → r = processNaN f f [a, b]) ∧
       (okA → okB → (va * vb ≠ 0 → rounded r (va * vb)) ∧ (va * vb = 0 → r = zero s)) ∧
       (¬nans → (infA ∨ infB) → r = if isZero f a || isZero f b then invalid else inf s)) ∧
      (∀ d₀ : Nat,
        let r := fpFma f mode ftz a₀ b₀ d₀
        let d := flush f ftz d₀
        let v := va * vb + fpReal f d
        let nought := (isZero f a = true ∧ infB) ∨ (infA ∧ isZero f b = true)
        (nans → r = processNaN f f [a, b, d]) ∧
        (¬nans → nought → r = if isNaN f d then ((processNaN f f [d]).1, fIV) else invalid) ∧
        (¬nans → ¬nought → isNaN f d = true → r = processNaN f f [d]) ∧
        (okA → okB → fpFinite f d → (v ≠ 0 → rounded r v) ∧
          (v = 0 → r = zero (if va * vb = 0 ∧ fpReal f d = 0 ∧ s = f.neg d then s else mode == 3))) ∧
        (¬nans → ¬nought → isNaN f d = false → (infA ∨ infB) →
          r = if isInf f d = true ∧ f.neg d ≠ s then invalid else inf s) ∧
        (okA → okB → isInf f d = true → r = inf (f.neg d))) ∧
      (let r := fpDiv f mode ftz a₀ b₀
       (nans → r = processNaN f f [a, b]) ∧
       (okA → okB → vb ≠ 0 → (va / vb ≠ 0 → rounded r (va / vb)) ∧ (va / vb = 0 → r = zero s)) ∧
       (okA → okB → vb = 0 → r = if va = 0 then invalid else ((inf s).1, fDZ)) ∧
       (infA → infB → r = invalid) ∧ (infA → okB → r = inf s) ∧ (okA → infB → r = zero s)) ∧
      (let r := fpSqrt f mode ftz a₀
       (isNaN f a = true → r = processNaN f f [a]) ∧ (isZero f a = true → r = (a, 0)) ∧
       (isNaN f a = false → isZero f a = false → f.neg a = true → r = invalid) ∧
       (infA → f.neg a = false → r = (a, 0)) ∧
       (okA → 0 < va → ∃ x : Ex, x.neg = false ∧ 0 < x.den ∧ r = roundTo f mode false ftz x ∧
         ∀ m ≤ f.maxMag, ∀ y, (y = fpVal f m ∨ 2 * y = fpVal f m + fpVal f (m + 1)) →
           (y < exVal x ↔ y ^ 2 < va) ∧ (exVal x < y ↔ va < y ^ 2))) ∧
      ((f = f32 ∨ f = f64) →
        (isNaN f a = true → fpRcp f ftz a₀ = processNaN f f [a] ∧ fpRsq f ftz a₀ = processNaN f f [a]) ∧
        (isZero f a = true → fpRcp f ftz a₀ = ((inf (f.neg a)).1, fDZ) ∧ fpRsq f ftz a₀ = ((inf (f.neg a)).1, fDZ)) ∧
        (infA → fpRcp f ftz a₀ = zero (f.neg a) ∧ (f.neg a = false → fpRsq f ftz a₀ = zero false)) ∧
        (okA → va ≠ 0 → ∀ x : Ex, 0 < x.den → exVal x = 1 / va → fpRcp f ftz a₀ = round12 f ftz x) ∧
        (isNaN f a = false → isZero f a = false → f.neg a = true → fpRsq f ftz a₀ = invalid) ∧
        (okA → 0 < va → ∃ x : Ex, x.neg = false ∧ 0 < x.den ∧ fpRsq f ftz a₀ = round12 f ftz x ∧
          ∀ m ≤ f.maxMag, (fpVal f m < exVal x ↔ fpVal f m ^ 2 * va < 1) ∧ (exVal x < fpVal f m ↔ 1 < fpVal f m ^ 2 * va)))
end

