-- ==== Sys2Proof/Laws/Exec.lean ====
section
/-! SUPPORT. Per instruction: the meaning that the dispatch calls. -/
namespace Sys2Proof.Laws
open Sys2Proof.Machine

section
set_option Elab.async false
variable (s : State)

theorem exec_nop : exec .nop s = execNop s := rfl
theorem exec_bra : ∀ x0, exec (.bra x0) s = execBra x0 s := fun _ => rfl
theorem exec_brq : ∀ x0 x1 x2, exec (.brq x0 x1 x2) s = execBrq x0 x1 x2 s := fun _ _ _ => rfl
theorem exec_brx : ∀ x0 x1, exec (.brx x0 x1) s = execBrx x0 x1 s := fun _ _ => rfl
theorem exec_callG : ∀ x0 x1, exec (.callG x0 x1) s = execCallG x0 x1 s := fun _ _ => rfl
theorem exec_retG : ∀ x0 x1, exec (.retG x0 x1) s = execRetG x0 x1 s := fun _ _ => rfl
theorem exec_exitG : ∀ x0, exec (.exitG x0) s = execExitG x0 s := fun _ => rfl
theorem exec_trapG : ∀ x0 x1, exec (.trapG x0 x1) s = execTrapG x0 x1 s := fun _ _ => rfl
theorem exec_joinat : ∀ x0, exec (.joinat x0) s = execJoinat x0 s := fun _ => rfl
theorem exec_joinG : ∀ x0, exec (.joinG x0) s = execJoinG x0 s := fun _ => rfl
theorem exec_regang : ∀ x0, exec (.regang x0) s = execRegang x0 s := fun _ => rfl
theorem exec_gfuseRcv : ∀ x0 x1 x2 x3, exec (.gfuseRcv x0 x1 x2 x3) s = execGfuseRcv x0 x1 x2 x3 s := fun _ _ _ _ => rfl
theorem exec_gfuseDon : ∀ x0 x1 x2 x3, exec (.gfuseDon x0 x1 x2 x3) s = execGfuseDon x0 x1 x2 x3 s := fun _ _ _ _ => rfl
theorem exec_yieldG : ∀ x0 x1 x2 x3, exec (.yieldG x0 x1 x2 x3) s = execYieldG x0 x1 x2 x3 s := fun _ _ _ _ => rfl
theorem exec_pauseG : ∀ x0, exec (.pauseG x0) s = execPauseG x0 s := fun _ => rfl
theorem exec_idemend : exec .idemend s = execIdemend s := rfl
theorem exec_gadd : ∀ x0 x1 x2 x3, exec (.gadd x0 x1 x2 x3) s = execGadd x0 x1 x2 x3 s := fun _ _ _ _ => rfl
theorem exec_gsub : ∀ x0 x1 x2 x3, exec (.gsub x0 x1 x2 x3) s = execGsub x0 x1 x2 x3 s := fun _ _ _ _ => rfl
theorem exec_gmul : ∀ x0 x1 x2 x3, exec (.gmul x0 x1 x2 x3) s = execGmul x0 x1 x2 x3 s := fun _ _ _ _ => rfl
theorem exec_gmulh : ∀ x0 x1 x2 x3 x4, exec (.gmulh x0 x1 x2 x3 x4) s = execGmulh x0 x1 x2 x3 x4 s := fun _ _ _ _ _ => rfl
theorem exec_gmin : ∀ x0 x1 x2 x3 x4, exec (.gmin x0 x1 x2 x3 x4) s = execGmin x0 x1 x2 x3 x4 s := fun _ _ _ _ _ => rfl
theorem exec_gmax : ∀ x0 x1 x2 x3 x4, exec (.gmax x0 x1 x2 x3 x4) s = execGmax x0 x1 x2 x3 x4 s := fun _ _ _ _ _ => rfl
theorem exec_gmov : ∀ x0 x1 x2, exec (.gmov x0 x1 x2) s = execGmov x0 x1 x2 s := fun _ _ _ => rfl
theorem exec_gand : ∀ x0 x1 x2 x3, exec (.gand x0 x1 x2 x3) s = execGand x0 x1 x2 x3 s := fun _ _ _ _ => rfl
theorem exec_gor : ∀ x0 x1 x2 x3, exec (.gor x0 x1 x2 x3) s = execGor x0 x1 x2 x3 s := fun _ _ _ _ => rfl
theorem exec_gxor : ∀ x0 x1 x2 x3, exec (.gxor x0 x1 x2 x3) s = execGxor x0 x1 x2 x3 s := fun _ _ _ _ => rfl
theorem exec_gshl : ∀ x0 x1 x2 x3, exec (.gshl x0 x1 x2 x3) s = execGshl x0 x1 x2 x3 s := fun _ _ _ _ => rfl
theorem exec_gshr : ∀ x0 x1 x2 x3, exec (.gshr x0 x1 x2 x3) s = execGshr x0 x1 x2 x3 s := fun _ _ _ _ => rfl
theorem exec_gsar : ∀ x0 x1 x2 x3, exec (.gsar x0 x1 x2 x3) s = execGsar x0 x1 x2 x3 s := fun _ _ _ _ => rfl
theorem exec_gaddi : ∀ x0 x1 x2, exec (.gaddi x0 x1 x2) s = execGaddi x0 x1 x2 s := fun _ _ _ => rfl
theorem exec_gandi : ∀ x0 x1 x2, exec (.gandi x0 x1 x2) s = execGandi x0 x1 x2 s := fun _ _ _ => rfl
theorem exec_gori : ∀ x0 x1 x2, exec (.gori x0 x1 x2) s = execGori x0 x1 x2 s := fun _ _ _ => rfl
theorem exec_gxori : ∀ x0 x1 x2, exec (.gxori x0 x1 x2) s = execGxori x0 x1 x2 s := fun _ _ _ => rfl
theorem exec_gshli : ∀ x0 x1 x2, exec (.gshli x0 x1 x2) s = execGshli x0 x1 x2 s := fun _ _ _ => rfl
theorem exec_gshri : ∀ x0 x1 x2, exec (.gshri x0 x1 x2) s = execGshri x0 x1 x2 s := fun _ _ _ => rfl
theorem exec_gsari : ∀ x0 x1 x2, exec (.gsari x0 x1 x2) s = execGsari x0 x1 x2 s := fun _ _ _ => rfl
theorem exec_gmovi : ∀ x0 x1, exec (.gmovi x0 x1) s = execGmovi x0 x1 s := fun _ _ => rfl
theorem exec_gmovhi : ∀ x0 x1, exec (.gmovhi x0 x1) s = execGmovhi x0 x1 s := fun _ _ => rfl
theorem exec_gcmp : ∀ x0 x1 x2 x3 x4 x5, exec (.gcmp x0 x1 x2 x3 x4 x5) s = execGcmp x0 x1 x2 x3 x4 x5 s := fun _ _ _ _ _ _ => rfl
theorem exec_qlop : ∀ x0 x1 x2 x3 x4, exec (.qlop x0 x1 x2 x3 x4) s = execQlop x0 x1 x2 x3 x4 s := fun _ _ _ _ _ => rfl
theorem exec_gsr : ∀ x0 x1 x2, exec (.gsr x0 x1 x2) s = execGsr x0 x1 x2 s := fun _ _ _ => rfl
theorem exec_gsw : ∀ x0 x1 x2, exec (.gsw x0 x1 x2) s = execGsw x0 x1 x2 s := fun _ _ _ => rfl
theorem exec_gfromv : ∀ x0 x1 x2 x3 x4, exec (.gfromv x0 x1 x2 x3 x4) s = execGfromv x0 x1 x2 x3 x4 s := fun _ _ _ _ _ => rfl
theorem exec_greduce : ∀ x0 x1 x2 x3 x4, exec (.greduce x0 x1 x2 x3 x4) s = execGreduce x0 x1 x2 x3 x4 s := fun _ _ _ _ _ => rfl
theorem exec_gldk : ∀ x0 x1 x2 x3 x4, exec (.gldk x0 x1 x2 x3 x4) s = execGldk x0 x1 x2 x3 x4 s := fun _ _ _ _ _ => rfl
theorem exec_gstk : ∀ x0 x1 x2 x3 x4, exec (.gstk x0 x1 x2 x3 x4) s = execGstk x0 x1 x2 x3 x4 s := fun _ _ _ _ _ => rfl
theorem exec_tcopy : ∀ x0 x1 x2 x3, exec (.tcopy x0 x1 x2 x3) s = execTcopy x0 x1 x2 x3 s := fun _ _ _ _ => rfl
theorem exec_tcopyg : ∀ x0 x1 x2 x3, exec (.tcopyg x0 x1 x2 x3) s = execTcopyg x0 x1 x2 x3 s := fun _ _ _ _ => rfl
theorem exec_barinit : ∀ x0 x1 x2, exec (.barinit x0 x1 x2) s = execBarinit x0 x1 x2 s := fun _ _ _ => rfl
theorem exec_barexp : ∀ x0 x1 x2, exec (.barexp x0 x1 x2) s = execBarexp x0 x1 x2 s := fun _ _ _ => rfl
theorem exec_barexpArv : ∀ x0 x1 x2, exec (.barexpArv x0 x1 x2) s = execBarexpArv x0 x1 x2 s := fun _ _ _ => rfl
theorem exec_bararv : ∀ x0 x1 x2, exec (.bararv x0 x1 x2) s = execBararv x0 x1 x2 s := fun _ _ _ => rfl
theorem exec_barwait : ∀ x0 x1 x2, exec (.barwait x0 x1 x2) s = execBarwait x0 x1 x2 s := fun _ _ _ => rfl
theorem exec_bartry : ∀ x0 x1 x2 x3, exec (.bartry x0 x1 x2 x3) s = execBartry x0 x1 x2 x3 s := fun _ _ _ _ => rfl
theorem exec_mma : ∀ x0 x1 x2 x3 x4 x5, exec (.mma x0 x1 x2 x3 x4 x5) s = execMma x0 x1 x2 x3 x4 x5 s := fun _ _ _ _ _ _ => rfl
theorem exec_mmag : ∀ x0 x1 x2 x3 x4 x5, exec (.mmag x0 x1 x2 x3 x4 x5) s = execMmag x0 x1 x2 x3 x4 x5 s := fun _ _ _ _ _ _ => rfl
theorem exec_mldt : ∀ x0 x1 x2 x3 x4, exec (.mldt x0 x1 x2 x3 x4) s = execMldt x0 x1 x2 x3 x4 s := fun _ _ _ _ _ => rfl
theorem exec_mstt : ∀ x0 x1 x2 x3 x4, exec (.mstt x0 x1 x2 x3 x4) s = execMstt x0 x1 x2 x3 x4 s := fun _ _ _ _ _ => rfl
theorem exec_mza : ∀ x0 x1, exec (.mza x0 x1) s = execMza x0 x1 s := fun _ _ => rfl
theorem exec_mrdaTile : ∀ x0 x1 x2 x3 x4, exec (.mrdaTile x0 x1 x2 x3 x4) s = execMrdaTile x0 x1 x2 x3 x4 s := fun _ _ _ _ _ => rfl
theorem exec_mrdaScratch : ∀ x0 x1 x2 x3 x4, exec (.mrdaScratch x0 x1 x2 x3 x4) s = execMrdaScratch x0 x1 x2 x3 x4 s := fun _ _ _ _ _ => rfl
theorem exec_gbind : ∀ x0 x1, exec (.gbind x0 x1) s = execGbind x0 x1 s := fun _ _ => rfl
theorem exec_gbindN : ∀ x0 x1 x2, exec (.gbindN x0 x1 x2) s = execGbindN x0 x1 x2 s := fun _ _ _ => rfl
theorem exec_gbindUn : ∀ x0, exec (.gbindUn x0) s = execGbindUn x0 s := fun _ => rfl
theorem exec_gstep : ∀ x0 x1, exec (.gstep x0 x1) s = execGstep x0 x1 s := fun _ _ => rfl
theorem exec_gwait : ∀ x0 x1 x2, exec (.gwait x0 x1 x2) s = execGwait x0 x1 x2 s := fun _ _ _ => rfl
theorem exec_gwaitTry : ∀ x0 x1 x2 x3, exec (.gwaitTry x0 x1 x2 x3) s = execGwaitTry x0 x1 x2 x3 s := fun _ _ _ _ => rfl
theorem exec_bxrun : ∀ x0 x1 x2 x3 x4, exec (.bxrun x0 x1 x2 x3 x4) s = execBxrun x0 x1 x2 x3 x4 s := fun _ _ _ _ _ => rfl
theorem exec_bxwait : ∀ x0 x1 x2, exec (.bxwait x0 x1 x2) s = execBxwait x0 x1 x2 s := fun _ _ _ => rfl
theorem exec_bxwaitTry : ∀ x0 x1 x2 x3, exec (.bxwaitTry x0 x1 x2 x3) s = execBxwaitTry x0 x1 x2 x3 s := fun _ _ _ _ => rfl
theorem exec_rrel : ∀ x0 x1 x2 x3, exec (.rrel x0 x1 x2 x3) s = execRrel x0 x1 x2 x3 s := fun _ _ _ _ => rfl
theorem exec_rfence : ∀ x0, exec (.rfence x0) s = execRfence x0 s := fun _ => rfl
theorem exec_rfenceCnt : ∀ x0 x1 x2, exec (.rfenceCnt x0 x1 x2) s = execRfenceCnt x0 x1 x2 s := fun _ _ _ => rfl
theorem exec_launchG : ∀ x0 x1 x2, exec (.launchG x0 x1 x2) s = execLaunchG x0 x1 x2 s := fun _ _ _ => rfl
theorem exec_signalG : ∀ x0 x1 x2 x3, exec (.signalG x0 x1 x2 x3) s = execSignalG x0 x1 x2 x3 s := fun _ _ _ _ => rfl
theorem exec_waitge : ∀ x0 x1 x2 x3, exec (.waitge x0 x1 x2 x3) s = execWaitge x0 x1 x2 x3 s := fun _ _ _ _ => rfl
theorem exec_fenceG : ∀ x0 x1 x2, exec (.fenceG x0 x1 x2) s = execFenceG x0 x1 x2 s := fun _ _ _ => rfl
theorem exec_fresolve : ∀ x0 x1 x2 x3, exec (.fresolve x0 x1 x2 x3) s = execFresolve x0 x1 x2 x3 s := fun _ _ _ _ => rfl
theorem exec_rsreset : ∀ x0 x1 x2 x3, exec (.rsreset x0 x1 x2 x3) s = execRsreset x0 x1 x2 x3 s := fun _ _ _ _ => rfl
theorem exec_ctxsave : ∀ x0 x1 x2 x3, exec (.ctxsave x0 x1 x2 x3) s = execCtxsave x0 x1 x2 x3 s := fun _ _ _ _ => rfl
theorem exec_ctxload : ∀ x0 x1 x2 x3, exec (.ctxload x0 x1 x2 x3) s = execCtxload x0 x1 x2 x3 s := fun _ _ _ _ => rfl
theorem exec_iadd : ∀ x0 x1 x2 x3 x4, exec (.iadd x0 x1 x2 x3 x4) s = execIadd x0 x1 x2 x3 x4 s := fun _ _ _ _ _ => rfl
theorem exec_isub : ∀ x0 x1 x2 x3 x4, exec (.isub x0 x1 x2 x3 x4) s = execIsub x0 x1 x2 x3 x4 s := fun _ _ _ _ _ => rfl
theorem exec_imul : ∀ x0 x1 x2 x3, exec (.imul x0 x1 x2 x3) s = execImul x0 x1 x2 x3 s := fun _ _ _ _ => rfl
theorem exec_imulh : ∀ x0 x1 x2 x3 x4, exec (.imulh x0 x1 x2 x3 x4) s = execImulh x0 x1 x2 x3 x4 s := fun _ _ _ _ _ => rfl
theorem exec_imad : ∀ x0 x1 x2 x3 x4, exec (.imad x0 x1 x2 x3 x4) s = execImad x0 x1 x2 x3 x4 s := fun _ _ _ _ _ => rfl
theorem exec_imin : ∀ x0 x1 x2 x3 x4, exec (.imin x0 x1 x2 x3 x4) s = execImin x0 x1 x2 x3 x4 s := fun _ _ _ _ _ => rfl
theorem exec_imax : ∀ x0 x1 x2 x3 x4, exec (.imax x0 x1 x2 x3 x4) s = execImax x0 x1 x2 x3 x4 s := fun _ _ _ _ _ => rfl
theorem exec_iabs : ∀ x0 x1 x2 x3, exec (.iabs x0 x1 x2 x3) s = execIabs x0 x1 x2 x3 s := fun _ _ _ _ => rfl
theorem exec_andL : ∀ x0 x1 x2 x3 x4, exec (.andL x0 x1 x2 x3 x4) s = execAndL x0 x1 x2 x3 x4 s := fun _ _ _ _ _ => rfl
theorem exec_orL : ∀ x0 x1 x2 x3 x4, exec (.orL x0 x1 x2 x3 x4) s = execOrL x0 x1 x2 x3 x4 s := fun _ _ _ _ _ => rfl
theorem exec_xorL : ∀ x0 x1 x2 x3 x4, exec (.xorL x0 x1 x2 x3 x4) s = execXorL x0 x1 x2 x3 x4 s := fun _ _ _ _ _ => rfl
theorem exec_notL : ∀ x0 x1 x2 x3, exec (.notL x0 x1 x2 x3) s = execNotL x0 x1 x2 x3 s := fun _ _ _ _ => rfl
theorem exec_shl : ∀ x0 x1 x2 x3 x4, exec (.shl x0 x1 x2 x3 x4) s = execShl x0 x1 x2 x3 x4 s := fun _ _ _ _ _ => rfl
theorem exec_shr : ∀ x0 x1 x2 x3 x4, exec (.shr x0 x1 x2 x3 x4) s = execShr x0 x1 x2 x3 x4 s := fun _ _ _ _ _ => rfl
theorem exec_sar : ∀ x0 x1 x2 x3 x4, exec (.sar x0 x1 x2 x3 x4) s = execSar x0 x1 x2 x3 x4 s := fun _ _ _ _ _ => rfl
theorem exec_mov : ∀ x0 x1 x2 x3, exec (.mov x0 x1 x2 x3) s = execMov x0 x1 x2 x3 s := fun _ _ _ _ => rfl
theorem exec_bfe : ∀ x0 x1 x2 x3 x4, exec (.bfe x0 x1 x2 x3 x4) s = execBfe x0 x1 x2 x3 x4 s := fun _ _ _ _ _ => rfl
theorem exec_bfi : ∀ x0 x1 x2 x3, exec (.bfi x0 x1 x2 x3) s = execBfi x0 x1 x2 x3 s := fun _ _ _ _ => rfl
theorem exec_popc : ∀ x0 x1 x2 x3, exec (.popc x0 x1 x2 x3) s = execPopc x0 x1 x2 x3 s := fun _ _ _ _ => rfl
theorem exec_clz : ∀ x0 x1 x2 x3, exec (.clz x0 x1 x2 x3) s = execClz x0 x1 x2 x3 s := fun _ _ _ _ => rfl
theorem exec_brev : ∀ x0 x1 x2 x3, exec (.brev x0 x1 x2 x3) s = execBrev x0 x1 x2 x3 s := fun _ _ _ _ => rfl
theorem exec_sel : ∀ x0 x1 x2 x3 x4 x5, exec (.sel x0 x1 x2 x3 x4 x5) s = execSel x0 x1 x2 x3 x4 x5 s := fun _ _ _ _ _ _ => rfl
theorem exec_isetp : ∀ x0 x1 x2 x3 x4 x5, exec (.isetp x0 x1 x2 x3 x4 x5) s = execIsetp x0 x1 x2 x3 x4 x5 s := fun _ _ _ _ _ _ => rfl
theorem exec_iadd64 : ∀ x0 x1 x2 x3 x4, exec (.iadd64 x0 x1 x2 x3 x4) s = execIadd64 x0 x1 x2 x3 x4 s := fun _ _ _ _ _ => rfl
theorem exec_isub64 : ∀ x0 x1 x2 x3 x4, exec (.isub64 x0 x1 x2 x3 x4) s = execIsub64 x0 x1 x2 x3 x4 s := fun _ _ _ _ _ => rfl
theorem exec_iaddi : ∀ x0 x1 x2, exec (.iaddi x0 x1 x2) s = execIaddi x0 x1 x2 s := fun _ _ _ => rfl
theorem exec_imuli : ∀ x0 x1 x2, exec (.imuli x0 x1 x2) s = execImuli x0 x1 x2 s := fun _ _ _ => rfl
theorem exec_andi : ∀ x0 x1 x2, exec (.andi x0 x1 x2) s = execAndi x0 x1 x2 s := fun _ _ _ => rfl
theorem exec_ori : ∀ x0 x1 x2, exec (.ori x0 x1 x2) s = execOri x0 x1 x2 s := fun _ _ _ => rfl
theorem exec_xori : ∀ x0 x1 x2, exec (.xori x0 x1 x2) s = execXori x0 x1 x2 s := fun _ _ _ => rfl
theorem exec_shli : ∀ x0 x1 x2, exec (.shli x0 x1 x2) s = execShli x0 x1 x2 s := fun _ _ _ => rfl
theorem exec_shri : ∀ x0 x1 x2, exec (.shri x0 x1 x2) s = execShri x0 x1 x2 s := fun _ _ _ => rfl
theorem exec_sari : ∀ x0 x1 x2, exec (.sari x0 x1 x2) s = execSari x0 x1 x2 s := fun _ _ _ => rfl
theorem exec_movi : ∀ x0 x1, exec (.movi x0 x1) s = execMovi x0 x1 s := fun _ _ => rfl
theorem exec_movhi : ∀ x0 x1, exec (.movhi x0 x1) s = execMovhi x0 x1 s := fun _ _ => rfl
theorem exec_plop : ∀ x0 x1 x2 x3 x4, exec (.plop x0 x1 x2 x3 x4) s = execPlop x0 x1 x2 x3 x4 s := fun _ _ _ _ _ => rfl
theorem exec_pmovTov : ∀ x0 x1, exec (.pmovTov x0 x1) s = execPmovTov x0 x1 s := fun _ _ => rfl
theorem exec_pmovFromv : ∀ x0 x1, exec (.pmovFromv x0 x1) s = execPmovFromv x0 x1 s := fun _ _ => rfl
theorem exec_pmovFromq : ∀ x0 x1 x2, exec (.pmovFromq x0 x1 x2) s = execPmovFromq x0 x1 x2 s := fun _ _ _ => rfl
theorem exec_faddF32 : ∀ x0 x1 x2 x3 x4, exec (.faddF32 x0 x1 x2 x3 x4) s = execFaddF32 x0 x1 x2 x3 x4 s := fun _ _ _ _ _ => rfl
theorem exec_fsubF32 : ∀ x0 x1 x2 x3 x4, exec (.fsubF32 x0 x1 x2 x3 x4) s = execFsubF32 x0 x1 x2 x3 x4 s := fun _ _ _ _ _ => rfl
theorem exec_fmulF32 : ∀ x0 x1 x2 x3 x4, exec (.fmulF32 x0 x1 x2 x3 x4) s = execFmulF32 x0 x1 x2 x3 x4 s := fun _ _ _ _ _ => rfl
theorem exec_ffmaF32 : ∀ x0 x1 x2 x3 x4, exec (.ffmaF32 x0 x1 x2 x3 x4) s = execFfmaF32 x0 x1 x2 x3 x4 s := fun _ _ _ _ _ => rfl
theorem exec_fminF32 : ∀ x0 x1 x2 x3 x4, exec (.fminF32 x0 x1 x2 x3 x4) s = execFminF32 x0 x1 x2 x3 x4 s := fun _ _ _ _ _ => rfl
theorem exec_fmaxF32 : ∀ x0 x1 x2 x3 x4, exec (.fmaxF32 x0 x1 x2 x3 x4) s = execFmaxF32 x0 x1 x2 x3 x4 s := fun _ _ _ _ _ => rfl
theorem exec_fdivF32 : ∀ x0 x1 x2 x3 x4, exec (.fdivF32 x0 x1 x2 x3 x4) s = execFdivF32 x0 x1 x2 x3 x4 s := fun _ _ _ _ _ => rfl
theorem exec_fsqrtF32 : ∀ x0 x1 x2 x3 x4, exec (.fsqrtF32 x0 x1 x2 x3 x4) s = execFsqrtF32 x0 x1 x2 x3 x4 s := fun _ _ _ _ _ => rfl
theorem exec_frcpaF32 : ∀ x0 x1 x2 x3, exec (.frcpaF32 x0 x1 x2 x3) s = execFrcpaF32 x0 x1 x2 x3 s := fun _ _ _ _ => rfl
theorem exec_frsqaF32 : ∀ x0 x1 x2 x3, exec (.frsqaF32 x0 x1 x2 x3) s = execFrsqaF32 x0 x1 x2 x3 s := fun _ _ _ _ => rfl
theorem exec_fsetpF32 : ∀ x0 x1 x2 x3 x4 x5, exec (.fsetpF32 x0 x1 x2 x3 x4 x5) s = execFsetpF32 x0 x1 x2 x3 x4 x5 s := fun _ _ _ _ _ _ => rfl
theorem exec_fclassF32 : ∀ x0 x1 x2 x3, exec (.fclassF32 x0 x1 x2 x3) s = execFclassF32 x0 x1 x2 x3 s := fun _ _ _ _ => rfl
theorem exec_faddF64 : ∀ x0 x1 x2 x3 x4, exec (.faddF64 x0 x1 x2 x3 x4) s = execFaddF64 x0 x1 x2 x3 x4 s := fun _ _ _ _ _ => rfl
theorem exec_fsubF64 : ∀ x0 x1 x2 x3 x4, exec (.fsubF64 x0 x1 x2 x3 x4) s = execFsubF64 x0 x1 x2 x3 x4 s := fun _ _ _ _ _ => rfl
theorem exec_fmulF64 : ∀ x0 x1 x2 x3 x4, exec (.fmulF64 x0 x1 x2 x3 x4) s = execFmulF64 x0 x1 x2 x3 x4 s := fun _ _ _ _ _ => rfl
theorem exec_ffmaF64 : ∀ x0 x1 x2 x3 x4, exec (.ffmaF64 x0 x1 x2 x3 x4) s = execFfmaF64 x0 x1 x2 x3 x4 s := fun _ _ _ _ _ => rfl
theorem exec_fminF64 : ∀ x0 x1 x2 x3, exec (.fminF64 x0 x1 x2 x3) s = execFminF64 x0 x1 x2 x3 s := fun _ _ _ _ => rfl
theorem exec_fmaxF64 : ∀ x0 x1 x2 x3, exec (.fmaxF64 x0 x1 x2 x3) s = execFmaxF64 x0 x1 x2 x3 s := fun _ _ _ _ => rfl
theorem exec_fdivF64 : ∀ x0 x1 x2 x3 x4, exec (.fdivF64 x0 x1 x2 x3 x4) s = execFdivF64 x0 x1 x2 x3 x4 s := fun _ _ _ _ _ => rfl
theorem exec_fsqrtF64 : ∀ x0 x1 x2 x3, exec (.fsqrtF64 x0 x1 x2 x3) s = execFsqrtF64 x0 x1 x2 x3 s := fun _ _ _ _ => rfl
theorem exec_frcpaF64 : ∀ x0 x1 x2, exec (.frcpaF64 x0 x1 x2) s = execFrcpaF64 x0 x1 x2 s := fun _ _ _ => rfl
theorem exec_frsqaF64 : ∀ x0 x1 x2, exec (.frsqaF64 x0 x1 x2) s = execFrsqaF64 x0 x1 x2 s := fun _ _ _ => rfl
theorem exec_fsetpF64 : ∀ x0 x1 x2 x3 x4, exec (.fsetpF64 x0 x1 x2 x3 x4) s = execFsetpF64 x0 x1 x2 x3 x4 s := fun _ _ _ _ _ => rfl
theorem exec_fclassF64 : ∀ x0 x1 x2, exec (.fclassF64 x0 x1 x2) s = execFclassF64 x0 x1 x2 s := fun _ _ _ => rfl
theorem exec_cvt : ∀ x0 x1 x2 x3 x4, exec (.cvt x0 x1 x2 x3 x4) s = execCvt x0 x1 x2 x3 x4 s := fun _ _ _ _ _ => rfl
theorem exec_cvtblk : ∀ x0 x1 x2 x3 x4, exec (.cvtblk x0 x1 x2 x3 x4) s = execCvtblk x0 x1 x2 x3 x4 s := fun _ _ _ _ _ => rfl
theorem exec_cvtblkX : ∀ x0 x1 x2 x3 x4, exec (.cvtblkX x0 x1 x2 x3 x4) s = execCvtblkX x0 x1 x2 x3 x4 s := fun _ _ _ _ _ => rfl
theorem exec_cvtsat : ∀ x0 x1 x2 x3 x4, exec (.cvtsat x0 x1 x2 x3 x4) s = execCvtsat x0 x1 x2 x3 x4 s := fun _ _ _ _ _ => rfl
theorem exec_faddF16x2 : ∀ x0 x1 x2 x3 x4, exec (.faddF16x2 x0 x1 x2 x3 x4) s = execFaddF16x2 x0 x1 x2 x3 x4 s := fun _ _ _ _ _ => rfl
theorem exec_fmulF16x2 : ∀ x0 x1 x2 x3 x4, exec (.fmulF16x2 x0 x1 x2 x3 x4) s = execFmulF16x2 x0 x1 x2 x3 x4 s := fun _ _ _ _ _ => rfl
theorem exec_ffmaF16x2 : ∀ x0 x1 x2 x3 x4, exec (.ffmaF16x2 x0 x1 x2 x3 x4) s = execFfmaF16x2 x0 x1 x2 x3 x4 s := fun _ _ _ _ _ => rfl
theorem exec_fminF16x2 : ∀ x0 x1 x2 x3 x4, exec (.fminF16x2 x0 x1 x2 x3 x4) s = execFminF16x2 x0 x1 x2 x3 x4 s := fun _ _ _ _ _ => rfl
theorem exec_fmaxF16x2 : ∀ x0 x1 x2 x3 x4, exec (.fmaxF16x2 x0 x1 x2 x3 x4) s = execFmaxF16x2 x0 x1 x2 x3 x4 s := fun _ _ _ _ _ => rfl
theorem exec_fsetpF16x2 : ∀ x0 x1 x2 x3 x4 x5, exec (.fsetpF16x2 x0 x1 x2 x3 x4 x5) s = execFsetpF16x2 x0 x1 x2 x3 x4 x5 s := fun _ _ _ _ _ _ => rfl
theorem exec_faddBf16x2 : ∀ x0 x1 x2 x3 x4, exec (.faddBf16x2 x0 x1 x2 x3 x4) s = execFaddBf16x2 x0 x1 x2 x3 x4 s := fun _ _ _ _ _ => rfl
theorem exec_fmulBf16x2 : ∀ x0 x1 x2 x3 x4, exec (.fmulBf16x2 x0 x1 x2 x3 x4) s = execFmulBf16x2 x0 x1 x2 x3 x4 s := fun _ _ _ _ _ => rfl
theorem exec_ffmaBf16x2 : ∀ x0 x1 x2 x3 x4, exec (.ffmaBf16x2 x0 x1 x2 x3 x4) s = execFfmaBf16x2 x0 x1 x2 x3 x4 s := fun _ _ _ _ _ => rfl
theorem exec_fminBf16x2 : ∀ x0 x1 x2 x3, exec (.fminBf16x2 x0 x1 x2 x3) s = execFminBf16x2 x0 x1 x2 x3 s := fun _ _ _ _ => rfl
theorem exec_fmaxBf16x2 : ∀ x0 x1 x2 x3, exec (.fmaxBf16x2 x0 x1 x2 x3) s = execFmaxBf16x2 x0 x1 x2 x3 s := fun _ _ _ _ => rfl
theorem exec_fsetpBf16x2 : ∀ x0 x1 x2 x3 x4 x5, exec (.fsetpBf16x2 x0 x1 x2 x3 x4 x5) s = execFsetpBf16x2 x0 x1 x2 x3 x4 x5 s := fun _ _ _ _ _ _ => rfl
theorem exec_vote : ∀ x0 x1 x2 x3, exec (.vote x0 x1 x2 x3) s = execVote x0 x1 x2 x3 s := fun _ _ _ _ => rfl
theorem exec_voteBallot : ∀ x0 x1 x2, exec (.voteBallot x0 x1 x2) s = execVoteBallot x0 x1 x2 s := fun _ _ _ => rfl
theorem exec_shfl : ∀ x0 x1 x2 x3 x4, exec (.shfl x0 x1 x2 x3 x4) s = execShfl x0 x1 x2 x3 x4 s := fun _ _ _ _ _ => rfl
theorem exec_vfromg : ∀ x0 x1 x2 x3, exec (.vfromg x0 x1 x2 x3) s = execVfromg x0 x1 x2 x3 s := fun _ _ _ _ => rfl
theorem exec_lsr : ∀ x0 x1 x2, exec (.lsr x0 x1 x2) s = execLsr x0 x1 x2 s := fun _ _ _ => rfl
theorem exec_dbr : ∀ x0 x1 x2, exec (.dbr x0 x1 x2) s = execDbr x0 x1 x2 s := fun _ _ _ => rfl
theorem exec_exitl : ∀ x0, exec (.exitl x0) s = execExitl x0 s := fun _ => rfl
theorem exec_ldg : ∀ x0 x1 x2 x3 x4, exec (.ldg x0 x1 x2 x3 x4) s = execLdg x0 x1 x2 x3 x4 s := fun _ _ _ _ _ => rfl
theorem exec_ldgh : ∀ x0 x1 x2 x3 x4, exec (.ldgh x0 x1 x2 x3 x4) s = execLdgh x0 x1 x2 x3 x4 s := fun _ _ _ _ _ => rfl
theorem exec_ldgb : ∀ x0 x1 x2 x3 x4, exec (.ldgb x0 x1 x2 x3 x4) s = execLdgb x0 x1 x2 x3 x4 s := fun _ _ _ _ _ => rfl
theorem exec_stg : ∀ x0 x1 x2 x3 x4, exec (.stg x0 x1 x2 x3 x4) s = execStg x0 x1 x2 x3 x4 s := fun _ _ _ _ _ => rfl
theorem exec_stgh : ∀ x0 x1 x2 x3, exec (.stgh x0 x1 x2 x3) s = execStgh x0 x1 x2 x3 s := fun _ _ _ _ => rfl
theorem exec_stgb : ∀ x0 x1 x2 x3, exec (.stgb x0 x1 x2 x3) s = execStgb x0 x1 x2 x3 s := fun _ _ _ _ => rfl
theorem exec_lda : ∀ x0 x1 x2 x3 x4, exec (.lda x0 x1 x2 x3 x4) s = execLda x0 x1 x2 x3 x4 s := fun _ _ _ _ _ => rfl
theorem exec_stl : ∀ x0 x1 x2 x3 x4, exec (.stl x0 x1 x2 x3 x4) s = execStl x0 x1 x2 x3 x4 s := fun _ _ _ _ _ => rfl
theorem exec_lds : ∀ x0 x1 x2 x3 x4, exec (.lds x0 x1 x2 x3 x4) s = execLds x0 x1 x2 x3 x4 s := fun _ _ _ _ _ => rfl
theorem exec_ldsh : ∀ x0 x1 x2 x3 x4, exec (.ldsh x0 x1 x2 x3 x4) s = execLdsh x0 x1 x2 x3 x4 s := fun _ _ _ _ _ => rfl
theorem exec_ldsb : ∀ x0 x1 x2 x3 x4, exec (.ldsb x0 x1 x2 x3 x4) s = execLdsb x0 x1 x2 x3 x4 s := fun _ _ _ _ _ => rfl
theorem exec_sts : ∀ x0 x1 x2 x3 x4, exec (.sts x0 x1 x2 x3 x4) s = execSts x0 x1 x2 x3 x4 s := fun _ _ _ _ _ => rfl
theorem exec_stsh : ∀ x0 x1 x2 x3, exec (.stsh x0 x1 x2 x3) s = execStsh x0 x1 x2 x3 s := fun _ _ _ _ => rfl
theorem exec_stsb : ∀ x0 x1 x2 x3, exec (.stsb x0 x1 x2 x3) s = execStsb x0 x1 x2 x3 s := fun _ _ _ _ => rfl
theorem exec_gld : ∀ x0 x1 x2 x3 x4, exec (.gld x0 x1 x2 x3 x4) s = execGld x0 x1 x2 x3 x4 s := fun _ _ _ _ _ => rfl
theorem exec_cctl : ∀ x0 x1 x2, exec (.cctl x0 x1 x2) s = execCctl x0 x1 x2 s := fun _ _ _ => rfl
theorem exec_atomAdd : ∀ x0 x1 x2 x3 x4 x5 x6, exec (.atomAdd x0 x1 x2 x3 x4 x5 x6) s = execAtomAdd x0 x1 x2 x3 x4 x5 x6 s := fun _ _ _ _ _ _ _ => rfl
theorem exec_atomFadd : ∀ x0 x1 x2 x3 x4 x5 x6 x7, exec (.atomFadd x0 x1 x2 x3 x4 x5 x6 x7) s = execAtomFadd x0 x1 x2 x3 x4 x5 x6 x7 s := fun _ _ _ _ _ _ _ _ => rfl
theorem exec_atomMin : ∀ x0 x1 x2 x3 x4 x5 x6 x7, exec (.atomMin x0 x1 x2 x3 x4 x5 x6 x7) s = execAtomMin x0 x1 x2 x3 x4 x5 x6 x7 s := fun _ _ _ _ _ _ _ _ => rfl
theorem exec_atomMax : ∀ x0 x1 x2 x3 x4 x5 x6 x7, exec (.atomMax x0 x1 x2 x3 x4 x5 x6 x7) s = execAtomMax x0 x1 x2 x3 x4 x5 x6 x7 s := fun _ _ _ _ _ _ _ _ => rfl
theorem exec_atomBit : ∀ x0 x1 x2 x3 x4 x5 x6, exec (.atomBit x0 x1 x2 x3 x4 x5 x6) s = execAtomBit x0 x1 x2 x3 x4 x5 x6 s := fun _ _ _ _ _ _ _ => rfl
theorem exec_atomExch : ∀ x0 x1 x2 x3 x4 x5, exec (.atomExch x0 x1 x2 x3 x4 x5) s = execAtomExch x0 x1 x2 x3 x4 x5 s := fun _ _ _ _ _ _ => rfl
theorem exec_cas : ∀ x0 x1 x2 x3 x4 x5, exec (.cas x0 x1 x2 x3 x4 x5) s = execCas x0 x1 x2 x3 x4 x5 s := fun _ _ _ _ _ _ => rfl
theorem exec_atomsc : ∀ x0 x1 x2 x3 x4 x5, exec (.atomsc x0 x1 x2 x3 x4 x5) s = execAtomsc x0 x1 x2 x3 x4 x5 s := fun _ _ _ _ _ _ => rfl
theorem exec_rld : ∀ x0 x1 x2 x3 x4, exec (.rld x0 x1 x2 x3 x4) s = execRld x0 x1 x2 x3 x4 s := fun _ _ _ _ _ => rfl
theorem exec_rst : ∀ x0 x1 x2 x3 x4, exec (.rst x0 x1 x2 x3 x4) s = execRst x0 x1 x2 x3 x4 s := fun _ _ _ _ _ => rfl
theorem exec_ratom : ∀ x0 x1 x2 x3 x4, exec (.ratom x0 x1 x2 x3 x4) s = execRatom x0 x1 x2 x3 x4 s := fun _ _ _ _ _ => rfl
theorem exec_rldv : ∀ x0 x1 x2 x3 x4, exec (.rldv x0 x1 x2 x3 x4) s = execRldv x0 x1 x2 x3 x4 s := fun _ _ _ _ _ => rfl
theorem exec_rstv : ∀ x0 x1 x2 x3 x4, exec (.rstv x0 x1 x2 x3 x4) s = execRstv x0 x1 x2 x3 x4 s := fun _ _ _ _ _ => rfl
theorem exec_ratomv : ∀ x0 x1 x2 x3 x4, exec (.ratomv x0 x1 x2 x3 x4) s = execRatomv x0 x1 x2 x3 x4 s := fun _ _ _ _ _ => rfl
theorem exec_clauseFetch : ∀ x0 x1, exec (.clauseFetch x0 x1) s = execClauseFetch x0 x1 s := fun _ _ => rfl
theorem exec_clauseStart : ∀ x0 x1, exec (.clauseStart x0 x1) s = execClauseStart x0 x1 s := fun _ _ => rfl
theorem exec_pausePenaltyEnd : ∀ x0 x1, exec (.pausePenaltyEnd x0 x1) s = execPausePenaltyEnd x0 x1 s := fun _ _ => rfl
theorem exec_fragmentUrgent : ∀ x0 x1, exec (.fragmentUrgent x0 x1) s = execFragmentUrgent x0 x1 s := fun _ _ => rfl
theorem exec_memoryAccessComplete : ∀ x0, exec (.memoryAccessComplete x0) s = execMemoryAccessComplete x0 s := fun _ => rfl
theorem exec_fdivFsqrtComplete : ∀ x0, exec (.fdivFsqrtComplete x0) s = execFdivFsqrtComplete x0 s := fun _ => rfl
theorem exec_mmagLatchComplete : ∀ x0, exec (.mmagLatchComplete x0) s = execMmagLatchComplete x0 s := fun _ => rfl
theorem exec_matrixInstrComplete : ∀ x0, exec (.matrixInstrComplete x0) s = execMatrixInstrComplete x0 s := fun _ => rfl
theorem exec_gangEnd : ∀ x0, exec (.gangEnd x0) s = execGangEnd x0 s := fun _ => rfl
theorem exec_gfuseComplete : ∀ x0 x1, exec (.gfuseComplete x0 x1) s = execGfuseComplete x0 x1 s := fun _ _ => rfl
theorem exec_launchEligible : ∀ x0, exec (.launchEligible x0) s = execLaunchEligible x0 s := fun _ => rfl
theorem exec_launchCounterRetry : ∀ x0, exec (.launchCounterRetry x0) s = execLaunchCounterRetry x0 s := fun _ => rfl
theorem exec_workgroupPlace : ∀ x0 x1, exec (.workgroupPlace x0 x1) s = execWorkgroupPlace x0 x1 s := fun _ _ => rfl
theorem exec_lanternPlace : ∀ x0 x1, exec (.lanternPlace x0 x1) s = execLanternPlace x0 x1 s := fun _ _ => rfl
theorem exec_launchComplete : ∀ x0, exec (.launchComplete x0) s = execLaunchComplete x0 s := fun _ => rfl
theorem exec_completionSignalRetry : ∀ x0, exec (.completionSignalRetry x0) s = execCompletionSignalRetry x0 s := fun _ => rfl
theorem exec_signalAddRetry : ∀ x0, exec (.signalAddRetry x0) s = execSignalAddRetry x0 s := fun _ => rfl
theorem exec_waitgeSatisfied : ∀ x0 x1, exec (.waitgeSatisfied x0 x1) s = execWaitgeSatisfied x0 x1 s := fun _ _ => rfl
theorem exec_copyChunkPerformed : ∀ x0 x1, exec (.copyChunkPerformed x0 x1) s = execCopyChunkPerformed x0 x1 s := fun _ _ => rfl
theorem exec_copyChunkFault : ∀ x0 x1, exec (.copyChunkFault x0 x1) s = execCopyChunkFault x0 x1 s := fun _ _ => rfl
theorem exec_gldStallTimeout : ∀ x0 x1, exec (.gldStallTimeout x0 x1) s = execGldStallTimeout x0 x1 s := fun _ _ => rfl
theorem exec_gwaitStallTimeout : ∀ x0 x1, exec (.gwaitStallTimeout x0 x1) s = execGwaitStallTimeout x0 x1 s := fun _ _ => rfl
theorem exec_stepCommit : ∀ x0, exec (.stepCommit x0) s = execStepCommit x0 s := fun _ => rfl
theorem exec_faceStripRead : ∀ x0 x1, exec (.faceStripRead x0 x1) s = execFaceStripRead x0 x1 s := fun _ _ => rfl
theorem exec_faceSendDone : ∀ x0 x1, exec (.faceSendDone x0 x1) s = execFaceSendDone x0 x1 s := fun _ _ => rfl
theorem exec_ghostRegionFilled : ∀ x0 x1 x2, exec (.ghostRegionFilled x0 x1 x2) s = execGhostRegionFilled x0 x1 x2 s := fun _ _ _ => rfl
theorem exec_penumbraExchange : ∀ x0, exec (.penumbraExchange x0) s = execPenumbraExchange x0 s := fun _ => rfl
theorem exec_penumbraFaultRetry : ∀ x0 x1, exec (.penumbraFaultRetry x0 x1) s = execPenumbraFaultRetry x0 x1 s := fun _ _ => rfl
theorem exec_bindingEnded : ∀ x0, exec (.bindingEnded x0) s = execBindingEnded x0 s := fun _ => rfl
theorem exec_executorRunStart : ∀ x0, exec (.executorRunStart x0) s = execExecutorRunStart x0 s := fun _ => rfl
theorem exec_executorClauseFetch : ∀ x0, exec (.executorClauseFetch x0) s = execExecutorClauseFetch x0 s := fun _ => rfl
theorem exec_executorRefreshRetry : ∀ x0, exec (.executorRefreshRetry x0) s = execExecutorRefreshRetry x0 s := fun _ => rfl
theorem exec_executorReleaseAcked : ∀ x0, exec (.executorReleaseAcked x0) s = execExecutorReleaseAcked x0 s := fun _ => rfl
theorem exec_bankRefresh : ∀ x0 x1, exec (.bankRefresh x0 x1) s = execBankRefresh x0 x1 s := fun _ _ => rfl
theorem exec_refreshRetryReissue : ∀ x0, exec (.refreshRetryReissue x0) s = execRefreshRetryReissue x0 s := fun _ => rfl
theorem exec_translationRequest : ∀ x0 x1 x2 x3, exec (.translationRequest x0 x1 x2 x3) s = execTranslationRequest x0 x1 x2 x3 s := fun _ _ _ _ => rfl
theorem exec_ctxCreate : ∀ x0 x1 x2 x3, exec (.ctxCreate x0 x1 x2 x3) s = execCtxCreate x0 x1 x2 x3 s := fun _ _ _ _ => rfl
theorem exec_ctxDestroy : ∀ x0 x1 x2 x3, exec (.ctxDestroy x0 x1 x2 x3) s = execCtxDestroy x0 x1 x2 x3 s := fun _ _ _ _ => rfl
theorem exec_tencoreWrite : ∀ x0 x1 x2, exec (.tencoreWrite x0 x1 x2) s = execTencoreWrite x0 x1 x2 s := fun _ _ _ => rfl
theorem exec_tencfgWrite : ∀ x0 x1, exec (.tencfgWrite x0 x1) s = execTencfgWrite x0 x1 s := fun _ _ => rfl
theorem exec_registerWrite : ∀ x0 x1, exec (.registerWrite x0 x1) s = execRegisterWrite x0 x1 s := fun _ _ => rfl
theorem exec_fqctlWrite : ∀ x0 x1, exec (.fqctlWrite x0 x1) s = execFqctlWrite x0 x1 s := fun _ _ => rfl
theorem exec_fqheadWrite : ∀ x0 x1, exec (.fqheadWrite x0 x1) s = execFqheadWrite x0 x1 s := fun _ _ => rfl
theorem exec_profctlCommit : ∀ x0 x1, exec (.profctlCommit x0 x1) s = execProfctlCommit x0 x1 s := fun _ _ => rfl
theorem exec_unmapPage : ∀ x0 x1, exec (.unmapPage x0 x1) s = execUnmapPage x0 x1 s := fun _ _ => rfl
theorem exec_updatePage : ∀ x0 x1, exec (.updatePage x0 x1) s = execUpdatePage x0 x1 s := fun _ _ => rfl
theorem exec_migratePage : ∀ x0 x1, exec (.migratePage x0 x1) s = execMigratePage x0 x1 s := fun _ _ => rfl
theorem exec_splitPage : ∀ x0 x1, exec (.splitPage x0 x1) s = execSplitPage x0 x1 s := fun _ _ => rfl
theorem exec_collapsePage : ∀ x0 x1, exec (.collapsePage x0 x1) s = execCollapsePage x0 x1 s := fun _ _ => rfl
theorem exec_scrubFrame : ∀ x0 x1, exec (.scrubFrame x0 x1) s = execScrubFrame x0 x1 s := fun _ _ => rfl
theorem exec_leaseWaitEnd : ∀ x0, exec (.leaseWaitEnd x0) s = execLeaseWaitEnd x0 s := fun _ => rfl
theorem exec_migrateCopyDone : ∀ x0, exec (.migrateCopyDone x0) s = execMigrateCopyDone x0 s := fun _ => rfl
theorem exec_scrubDone : ∀ x0, exec (.scrubDone x0) s = execScrubDone x0 s := fun _ => rfl
theorem exec_collapseRequestReceive : ∀ x0, exec (.collapseRequestReceive x0) s = execCollapseRequestReceive x0 s := fun _ => rfl
theorem exec_collapseReplyReceive : ∀ x0 x1, exec (.collapseReplyReceive x0 x1) s = execCollapseReplyReceive x0 x1 s := fun _ _ => rfl
theorem exec_collapseTimeout : ∀ x0, exec (.collapseTimeout x0) s = execCollapseTimeout x0 s := fun _ => rfl
theorem exec_openSend : ∀ x0, exec (.openSend x0) s = execOpenSend x0 s := fun _ => rfl
theorem exec_openReceive : ∀ x0, exec (.openReceive x0) s = execOpenReceive x0 s := fun _ => rfl
theorem exec_closeSend : ∀ x0, exec (.closeSend x0) s = execCloseSend x0 s := fun _ => rfl
theorem exec_closeReceive : ∀ x0, exec (.closeReceive x0) s = execCloseReceive x0 s := fun _ => rfl
theorem exec_lgcmdStart : ∀ x0 x1 x2, exec (.lgcmdStart x0 x1 x2) s = execLgcmdStart x0 x1 x2 s := fun _ _ _ => rfl
theorem exec_dieTakeOut : ∀ x0, exec (.dieTakeOut x0) s = execDieTakeOut x0 s := fun _ => rfl
theorem exec_dieReturn : ∀ x0, exec (.dieReturn x0) s = execDieReturn x0 s := fun _ => rfl
theorem exec_getCap : exec .getCap s = execGetCap s := rfl
theorem exec_getSensors : exec .getSensors s = execGetSensors s := rfl
theorem exec_setCap : ∀ x0, exec (.setCap x0) s = execSetCap x0 s := fun _ => rfl
theorem exec_getErrors : exec .getErrors s = execGetErrors s := rfl
theorem exec_dieService : ∀ x0 x1, exec (.dieService x0 x1) s = execDieService x0 x1 s := fun _ _ => rfl
theorem exec_fwUpdate : ∀ x0, exec (.fwUpdate x0) s = execFwUpdate x0 s := fun _ => rfl
theorem exec_basermyoUnknownCommand : ∀ x0 x1, exec (.basermyoUnknownCommand x0 x1) s = execBasermyoUnknownCommand x0 x1 s := fun _ _ => rfl
theorem exec_coldReset : exec .coldReset s = execColdReset s := rfl
theorem exec_spdmRequest : ∀ x0 x1, exec (.spdmRequest x0 x1) s = execSpdmRequest x0 x1 s := fun _ _ => rfl
theorem exec_linkRekey : ∀ x0 x1, exec (.linkRekey x0 x1) s = execLinkRekey x0 x1 s := fun _ _ => rfl
theorem exec_oldKeyErase : ∀ x0, exec (.oldKeyErase x0) s = execOldKeyErase x0 s := fun _ => rfl
theorem exec_ibcelLinkTrain : ∀ x0 x1, exec (.ibcelLinkTrain x0 x1) s = execIbcelLinkTrain x0 x1 s := fun _ _ => rfl
theorem exec_hostLinkTrain : ∀ x0 x1, exec (.hostLinkTrain x0 x1) s = execHostLinkTrain x0 x1 s := fun _ _ => rfl
theorem exec_planeFailure : ∀ x0, exec (.planeFailure x0) s = execPlaneFailure x0 s := fun _ => rfl
theorem exec_flitCheckFailure : ∀ x0, exec (.flitCheckFailure x0) s = execFlitCheckFailure x0 s := fun _ => rfl
theorem exec_lnkFlit : ∀ x0 x1, exec (.lnkFlit x0 x1) s = execLnkFlit x0 x1 s := fun _ _ => rfl
theorem exec_flitBadType : ∀ x0 x1, exec (.flitBadType x0 x1) s = execFlitBadType x0 x1 s := fun _ _ => rfl
theorem exec_wrFlit : ∀ x0 x1, exec (.wrFlit x0 x1) s = execWrFlit x0 x1 s := fun _ _ => rfl
theorem exec_gwrFlit : ∀ x0 x1, exec (.gwrFlit x0 x1) s = execGwrFlit x0 x1 s := fun _ _ => rfl
theorem exec_writeCounted : ∀ x0, exec (.writeCounted x0) s = execWriteCounted x0 s := fun _ => rfl
theorem exec_rdFlit : ∀ x0 x1, exec (.rdFlit x0 x1) s = execRdFlit x0 x1 s := fun _ _ => rfl
theorem exec_rdrFlit : ∀ x0 x1, exec (.rdrFlit x0 x1) s = execRdrFlit x0 x1 s := fun _ _ => rfl
theorem exec_atomFlit : ∀ x0 x1, exec (.atomFlit x0 x1) s = execAtomFlit x0 x1 s := fun _ _ => rfl
theorem exec_atomrFlit : ∀ x0 x1, exec (.atomrFlit x0 x1) s = execAtomrFlit x0 x1 s := fun _ _ => rfl
theorem exec_relFlit : ∀ x0 x1, exec (.relFlit x0 x1) s = execRelFlit x0 x1 s := fun _ _ => rfl
theorem exec_grelFlit : ∀ x0 x1, exec (.grelFlit x0 x1) s = execGrelFlit x0 x1 s := fun _ _ => rfl
theorem exec_ntcFlit : ∀ x0 x1, exec (.ntcFlit x0 x1) s = execNtcFlit x0 x1 s := fun _ _ => rfl
theorem exec_rsresetRequest : ∀ x0 x1, exec (.rsresetRequest x0 x1) s = execRsresetRequest x0 x1 s := fun _ _ => rfl
theorem exec_ctlaFlit : ∀ x0 x1, exec (.ctlaFlit x0 x1) s = execCtlaFlit x0 x1 s := fun _ _ => rfl
theorem exec_flagTimeout : ∀ x0 x1, exec (.flagTimeout x0 x1) s = execFlagTimeout x0 x1 s := fun _ _ => rfl
theorem exec_remoteRequestTimeout : ∀ x0, exec (.remoteRequestTimeout x0) s = execRemoteRequestTimeout x0 s := fun _ => rfl
theorem exec_rsresetTimeout : ∀ x0 x1, exec (.rsresetTimeout x0 x1) s = execRsresetTimeout x0 x1 s := fun _ _ => rfl
theorem exec_hostRead : ∀ x0 x1 x2, exec (.hostRead x0 x1 x2) s = execHostRead x0 x1 x2 s := fun _ _ _ => rfl
theorem exec_hostWrite : ∀ x0 x1 x2, exec (.hostWrite x0 x1 x2) s = execHostWrite x0 x1 x2 s := fun _ _ _ => rfl
theorem exec_birsp : ∀ x0 x1, exec (.birsp x0 x1) s = execBirsp x0 x1 s := fun _ _ => rfl
theorem exec_externalSnoop : ∀ x0 x1, exec (.externalSnoop x0 x1) s = execExternalSnoop x0 x1 s := fun _ _ => rfl
theorem exec_cxlFillResponse : ∀ x0 x1 x2, exec (.cxlFillResponse x0 x1 x2) s = execCxlFillResponse x0 x1 x2 s := fun _ _ _ => rfl
theorem exec_cxlRequestTimeout : ∀ x0, exec (.cxlRequestTimeout x0) s = execCxlRequestTimeout x0 s := fun _ => rfl
theorem exec_poolPortFailure : ∀ x0, exec (.poolPortFailure x0) s = execPoolPortFailure x0 s := fun _ => rfl
theorem exec_thermalThrottleStep : ∀ x0, exec (.thermalThrottleStep x0) s = execThermalThrottleStep x0 s := fun _ => rfl
theorem exec_thermalTrip : ∀ x0, exec (.thermalTrip x0) s = execThermalTrip x0 s := fun _ => rfl
theorem exec_dieLoss : ∀ x0, exec (.dieLoss x0) s = execDieLoss x0 s := fun _ => rfl
theorem exec_preemptSave : ∀ x0, exec (.preemptSave x0) s = execPreemptSave x0 s := fun _ => rfl
theorem exec_ctxsaveDone : ∀ x0, exec (.ctxsaveDone x0) s = execCtxsaveDone x0 s := fun _ => rfl
theorem exec_rsresetHoldoffEnd : ∀ x0 x1, exec (.rsresetHoldoffEnd x0 x1) s = execRsresetHoldoffEnd x0 x1 s := fun _ _ => rfl
theorem exec_powerCapEnforce : exec .powerCapEnforce s = execPowerCapEnforce s := rfl

end

end Sys2Proof.Laws
end

