-- ==== Sys2Proof/Laws/Map.lean ====
section
/-! SUPPORT. Laws of sparse maps: read after write, keys kept rising, and the canonical form of memory kept by every
write (MEMORY). -/
namespace Sys2Proof.Laws
open Sys2Proof.Machine

variable {α : Type}

/-- Keys strictly rise. -/
def Rising (m : SMap α) : Prop := List.Pairwise (fun a b => a.1 < b.1) m

@[simp] theorem smFind_nil (k : Nat) : smFind ([] : SMap α) k = none := rfl

/-- Read after write of a whole entry. -/
theorem smFind_smPut (m : SMap α) (k j : Nat) (a : α) : smFind (smPut m k a) j = if k = j then some a else smFind m j := by
  induction m with
  | nil => simp [smPut, smFind]
  | cons p m ih =>
    obtain ⟨i, b⟩ := p
    by_cases h1 : k < i
    · simp only [smPut, if_pos h1, smFind]
    · by_cases h2 : i = k
      · subst h2
        simp only [smPut, lt_irrefl, if_false, if_true, smFind]
        split <;> rfl
      · simp only [smPut, if_neg h1, if_neg h2, smFind, ih]
        by_cases h3 : i = j
        · have h4 : k ≠ j := fun h => h2 (h3.trans h.symm)
          rw [if_pos h3, if_neg h4, if_pos h3]
        · rw [if_neg h3, if_neg h3]

@[simp] theorem smFind_smPut_self (m : SMap α) (k : Nat) (a : α) : smFind (smPut m k a) k = some a := by
  simp [smFind_smPut]

theorem smFind_smPut_ne (m : SMap α) {k j : Nat} (h : k ≠ j) (a : α) : smFind (smPut m k a) j = smFind m j := by
  simp [smFind_smPut, h]

/-- The later write of one key stands. -/
@[simp] theorem smPut_smPut (m : SMap α) (k : Nat) (a b : α) : smPut (smPut m k a) k b = smPut m k b := by
  induction m with
  | nil => simp [smPut]
  | cons p m ih =>
    obtain ⟨i, c⟩ := p
    by_cases h1 : k < i
    · simp [smPut, h1]
    · by_cases h2 : i = k <;> simp [smPut, h1, h2, ih]

/-- Updating an entry that is there writes it. -/
theorem smAdj_of_find {m : SMap α} {k : Nat} {a : α} (h : smFind m k = some a) (f : α → α) : smAdj m k f = smPut m k (f a) := by
  simp [smAdj, h]

theorem smAdj_of_none {m : SMap α} {k : Nat} (h : smFind m k = none) (f : α → α) : smAdj m k f = m := by
  simp [smAdj, h]

@[simp] theorem smAdj_smPut_self (m : SMap α) (k : Nat) (a : α) (f : α → α) : smAdj (smPut m k a) k f = smPut m k (f a) := by
  simp [smAdj]

theorem smFind_smAdj (m : SMap α) (k j : Nat) (f : α → α) :
    smFind (smAdj m k f) j = if k = j then (smFind m j).map f else smFind m j := by
  by_cases h : k = j
  · subst h; cases h' : smFind m k <;> simp [smAdj, h']
  · cases h' : smFind m k <;> simp [smAdj, h', smFind_smPut, h]

/-- Every key of a written map is the key written or was there. -/
theorem mem_smPut {m : SMap α} {k : Nat} {a : α} {p : Nat × α} (h : p ∈ smPut m k a) : p = (k, a) ∨ p ∈ m := by
  induction m with
  | nil => simpa [smPut] using h
  | cons q m ih =>
    obtain ⟨i, b⟩ := q
    by_cases h1 : k < i
    · simpa [smPut, h1] using h
    · by_cases h2 : i = k
      · rcases List.mem_cons.1 (by simpa [smPut, h1, h2] using h) with h | h <;> simp [h]
      · rcases List.mem_cons.1 (by simpa [smPut, h1, h2] using h) with h | h
        · simp [h]
        · rcases ih h with h | h <;> simp [h]

theorem mem_smDel {m : SMap α} {k : Nat} {p : Nat × α} (h : p ∈ smDel m k) : p ∈ m := by
  induction m with
  | nil => simp [smDel] at h
  | cons q m ih =>
    obtain ⟨i, b⟩ := q
    by_cases h1 : i = k
    · exact List.mem_cons_of_mem _ (ih (by simpa [smDel, h1] using h))
    · rcases List.mem_cons.1 (by simpa [smDel, h1] using h) with h | h
      · simp [h]
      · exact List.mem_cons_of_mem _ (ih h)

theorem Rising.smPut {m : SMap α} (h : Rising m) (k : Nat) (a : α) : Rising (smPut m k a) := by
  induction m with
  | nil => simp [Rising, Machine.smPut]
  | cons q m ih =>
    obtain ⟨i, b⟩ := q
    obtain ⟨hq, hm⟩ := List.pairwise_cons.1 h
    by_cases h1 : k < i
    · simp only [Machine.smPut, if_pos h1]
      refine List.pairwise_cons.2 ⟨fun p hp => ?_, h⟩
      rcases List.mem_cons.1 hp with rfl | hp
      · exact h1
      · exact Nat.lt_trans h1 (hq p hp)
    · by_cases h2 : i = k
      · subst h2
        simp only [Machine.smPut, lt_irrefl, if_false, if_pos]
        exact List.pairwise_cons.2 ⟨hq, hm⟩
      · simp only [Machine.smPut, if_neg h1, if_neg h2]
        refine List.pairwise_cons.2 ⟨fun p hp => ?_, ih hm⟩
        rcases mem_smPut hp with rfl | hp
        · show i < k; omega
        · exact hq p hp

theorem Rising.smDel {m : SMap α} (h : Rising m) (k : Nat) : Rising (smDel m k) := by
  induction m with
  | nil => simp [Rising, Machine.smDel]
  | cons q m ih =>
    obtain ⟨i, b⟩ := q
    obtain ⟨hq, hm⟩ := List.pairwise_cons.1 h
    by_cases h1 : i = k
    · simpa only [Machine.smDel, if_pos h1] using ih hm
    · simp only [Machine.smDel, if_neg h1]
      exact List.pairwise_cons.2 ⟨fun p hp => hq p (mem_smDel hp), ih hm⟩

theorem smFind_smDel (m : SMap α) (k j : Nat) : smFind (smDel m k) j = if k = j then none else smFind m j := by
  induction m with
  | nil => simp [smDel]
  | cons q m ih =>
    obtain ⟨i, b⟩ := q
    by_cases h1 : i = k
    · simp only [smDel, if_pos h1, ih, smFind]
      by_cases h2 : k = j
      · rw [if_pos h2, if_pos h2]
      · rw [if_neg h2, if_neg h2, if_neg (h1 ▸ h2)]
    · simp only [smDel, if_neg h1, smFind, ih]
      by_cases h2 : i = j
      · have h3 : k ≠ j := fun h' => h1 (h2.trans h'.symm)
        rw [if_pos h2, if_neg h3, if_pos h2]
      · rw [if_neg h2, if_neg h2]

/-- Read after a write that never lists the default. -/
theorem smGet_smSet [DecidableEq α] (m : SMap α) (k j : Nat) (a d : α) :
    smGet (smSet m k a d) j d = if k = j then a else smGet m j d := by
  by_cases h1 : a = d
  · by_cases h2 : k = j <;> simp [smSet, smGet, h1, h2, smFind_smDel]
  · by_cases h2 : k = j <;> simp [smSet, smGet, h1, h2, smFind_smPut]

theorem Rising.smSet [DecidableEq α] {m : SMap α} (h : Rising m) (k : Nat) (a d : α) : Rising (smSet m k a d) := by
  unfold Machine.smSet; split
  · exact h.smDel k
  · exact h.smPut k a

/-! The canonical form. -/

theorem smCanon_iff [DecidableEq α] (d : α) (m : SMap α) : smCanon d m = true ↔ Rising m ∧ ∀ p ∈ m, p.2 ≠ d := by
  simp [smCanon, Rising]

theorem smCanon_nil [DecidableEq α] (d : α) : smCanon d ([] : SMap α) = true := by simp [smCanon]

theorem smCanon_smSet [DecidableEq α] {d : α} {m : SMap α} (h : smCanon d m = true) (k : Nat) (a : α) :
    smCanon d (smSet m k a d) = true := by
  rw [smCanon_iff] at h ⊢
  refine ⟨h.1.smSet k a d, fun p hp => ?_⟩
  unfold smSet at hp; split at hp
  · exact h.2 p (mem_smDel hp)
  · rcases mem_smPut hp with rfl | hp
    · assumption
    · exact h.2 p hp

theorem smCanon_smKeep [DecidableEq α] {d : α} {m : SMap α} (h : smCanon d m = true) (f : Nat → α → Bool) :
    smCanon d (smKeep f m) = true := by
  rw [smCanon_iff] at h ⊢
  exact ⟨h.1.sublist (List.filter_sublist), fun p hp => h.2 p (List.mem_of_mem_filter hp)⟩

theorem smCanon_smPut [DecidableEq α] {d : α} {m : SMap α} (h : smCanon d m = true) (k : Nat) {a : α} (ha : a ≠ d) :
    smCanon d (smPut m k a) = true := by
  rw [smCanon_iff] at h ⊢
  refine ⟨h.1.smPut k a, fun p hp => ?_⟩
  rcases mem_smPut hp with rfl | hp
  · exact ha
  · exact h.2 p hp

/-- Equal canonical maps are those that read equal everywhere. -/
theorem smFind_of_mem {m : SMap α} (h : Rising m) {p : Nat × α} (hp : p ∈ m) : smFind m p.1 = some p.2 := by
  induction m with
  | nil => cases hp
  | cons q m ih =>
    obtain ⟨i, b⟩ := q
    obtain ⟨hq, hm⟩ := List.pairwise_cons.1 h
    rcases List.mem_cons.1 hp with rfl | hp
    · simp [smFind]
    · have : i ≠ p.1 := by have := hq p hp; simp at this; omega
      simp [smFind, this, ih hm hp]

/-! Memory. -/

/-- A byte written reads back; every other byte is as before. -/
theorem readByte_writeByte (m : Memory) (a b : Nat) (x : Byte) :
    readByte (writeByte m a x) b = if a = b then x else readByte m b :=
  smGet_smSet m a b x unwritten

/-- Writing a byte keeps the canonical form. -/
theorem Memory.wf_writeByte {m : Memory} (h : Memory.wf m = true) (a : Nat) (x : Byte) :
    Memory.wf (writeByte m a x) = true := smCanon_smSet h a x

/-- Writing bytes keeps the canonical form. -/
theorem Memory.wf_writeBytes (bs : List Byte) : ∀ {m : Memory} (_ : Memory.wf m = true) (a : Nat),
    Memory.wf (writeBytes m a bs) = true := by
  induction bs with
  | nil => intro m h a; exact h
  | cons b bs ih => intro m h a; exact ih (Memory.wf_writeByte h a b) (a + 1)

/-- Bytes written read back; every other byte is as before. -/
theorem readByte_writeBytes (bs : List Byte) : ∀ (m : Memory) (a b : Nat),
    readByte (writeBytes m a bs) b = if a ≤ b ∧ b < a + bs.length then (bs[b - a]?).getD 0 else readByte m b := by
  induction bs with
  | nil => intro m a b; rw [if_neg (by simp)]; rfl
  | cons x bs ih =>
    intro m a b
    simp only [writeBytes]
    rw [ih, readByte_writeByte]
    by_cases h1 : a = b
    · subst h1; simp
    · by_cases h2 : a + 1 ≤ b ∧ b < a + 1 + bs.length
      · have h3 : a ≤ b ∧ b < a + (x :: bs).length := by simp only [List.length_cons]; omega
        have h4 : b - a = (b - (a + 1)) + 1 := by omega
        rw [if_pos h2, if_pos h3, h4, List.getElem?_cons_succ]
      · have h3 : ¬(a ≤ b ∧ b < a + (x :: bs).length) := by simp only [List.length_cons]; omega
        rw [if_neg h2, if_neg h1, if_neg h3]

end Sys2Proof.Laws
end

