-- ==== Sys2Proof/Laws/State.lean ====
section
/-! SUPPORT. One lemma per field of the state per update: what the update does to the field. -/
namespace Sys2Proof.Machine

/-! setGang. -/

section
variable (s : State) (gid : Nat) (g : Gang)
@[simp] theorem State.setGang_now : (s.setGang gid g).now = s.now := rfl
@[simp] theorem State.setGang_cur : (s.setGang gid g).cur = s.cur := rfl
@[simp] theorem State.setGang_inbox : (s.setGang gid g).inbox = s.inbox := rfl
@[simp] theorem State.setGang_turn : (s.setGang gid g).turn = s.turn := rfl
@[simp] theorem State.setGang_free : (s.setGang gid g).free = s.free := rfl
@[simp] theorem State.setGang_next : (s.setGang gid g).next = s.next := rfl
@[simp] theorem State.setGang_beacon : (s.setGang gid g).beacon = s.beacon := rfl
@[simp] theorem State.setGang_gangs : (s.setGang gid g).gangs = smPut s.gangs gid g := rfl
@[simp] theorem State.setGang_wgs : (s.setGang gid g).wgs = s.wgs := rfl
@[simp] theorem State.setGang_launches : (s.setGang gid g).launches = s.launches := rfl
@[simp] theorem State.setGang_lanterns : (s.setGang gid g).lanterns = s.lanterns := rfl
@[simp] theorem State.setGang_images : (s.setGang gid g).images = s.images := rfl
@[simp] theorem State.setGang_ctxs : (s.setGang gid g).ctxs = s.ctxs := rfl
@[simp] theorem State.setGang_tenants : (s.setGang gid g).tenants = s.tenants := rfl
@[simp] theorem State.setGang_ops : (s.setGang gid g).ops = s.ops := rfl
@[simp] theorem State.setGang_copies : (s.setGang gid g).copies = s.copies := rfl
@[simp] theorem State.setGang_sigs : (s.setGang gid g).sigs = s.sigs := rfl
@[simp] theorem State.setGang_mem : (s.setGang gid g).mem = s.mem := rfl
@[simp] theorem State.setGang_binds : (s.setGang gid g).binds = s.binds := rfl
@[simp] theorem State.setGang_runs : (s.setGang gid g).runs = s.runs := rfl
@[simp] theorem State.setGang_fab : (s.setGang gid g).fab = s.fab := rfl
@[simp] theorem State.setGang_host : (s.setGang gid g).host = s.host := rfl
@[simp] theorem State.setGang_pf : (s.setGang gid g).pf = s.pf := rfl
@[simp] theorem State.setGang_plat : (s.setGang gid g).plat = s.plat := rfl
@[simp] theorem State.setGang_msix : (s.setGang gid g).msix = s.msix := rfl
end

/-! adjGang. -/

section
variable (s : State) (gid : Nat) (f : Gang → Gang)
@[simp] theorem State.adjGang_now : (s.adjGang gid f).now = s.now := rfl
@[simp] theorem State.adjGang_cur : (s.adjGang gid f).cur = s.cur := rfl
@[simp] theorem State.adjGang_inbox : (s.adjGang gid f).inbox = s.inbox := rfl
@[simp] theorem State.adjGang_turn : (s.adjGang gid f).turn = s.turn := rfl
@[simp] theorem State.adjGang_free : (s.adjGang gid f).free = s.free := rfl
@[simp] theorem State.adjGang_next : (s.adjGang gid f).next = s.next := rfl
@[simp] theorem State.adjGang_beacon : (s.adjGang gid f).beacon = s.beacon := rfl
@[simp] theorem State.adjGang_gangs : (s.adjGang gid f).gangs = smAdj s.gangs gid f := rfl
@[simp] theorem State.adjGang_wgs : (s.adjGang gid f).wgs = s.wgs := rfl
@[simp] theorem State.adjGang_launches : (s.adjGang gid f).launches = s.launches := rfl
@[simp] theorem State.adjGang_lanterns : (s.adjGang gid f).lanterns = s.lanterns := rfl
@[simp] theorem State.adjGang_images : (s.adjGang gid f).images = s.images := rfl
@[simp] theorem State.adjGang_ctxs : (s.adjGang gid f).ctxs = s.ctxs := rfl
@[simp] theorem State.adjGang_tenants : (s.adjGang gid f).tenants = s.tenants := rfl
@[simp] theorem State.adjGang_ops : (s.adjGang gid f).ops = s.ops := rfl
@[simp] theorem State.adjGang_copies : (s.adjGang gid f).copies = s.copies := rfl
@[simp] theorem State.adjGang_sigs : (s.adjGang gid f).sigs = s.sigs := rfl
@[simp] theorem State.adjGang_mem : (s.adjGang gid f).mem = s.mem := rfl
@[simp] theorem State.adjGang_binds : (s.adjGang gid f).binds = s.binds := rfl
@[simp] theorem State.adjGang_runs : (s.adjGang gid f).runs = s.runs := rfl
@[simp] theorem State.adjGang_fab : (s.adjGang gid f).fab = s.fab := rfl
@[simp] theorem State.adjGang_host : (s.adjGang gid f).host = s.host := rfl
@[simp] theorem State.adjGang_pf : (s.adjGang gid f).pf = s.pf := rfl
@[simp] theorem State.adjGang_plat : (s.adjGang gid f).plat = s.plat := rfl
@[simp] theorem State.adjGang_msix : (s.adjGang gid f).msix = s.msix := rfl
end

/-! adjFrag. -/

section
variable (s : State) (gid e : Nat) (f : Frag → Frag)
@[simp] theorem State.adjFrag_now : (s.adjFrag gid e f).now = s.now := rfl
@[simp] theorem State.adjFrag_cur : (s.adjFrag gid e f).cur = s.cur := rfl
@[simp] theorem State.adjFrag_inbox : (s.adjFrag gid e f).inbox = s.inbox := rfl
@[simp] theorem State.adjFrag_turn : (s.adjFrag gid e f).turn = s.turn := rfl
@[simp] theorem State.adjFrag_free : (s.adjFrag gid e f).free = s.free := rfl
@[simp] theorem State.adjFrag_next : (s.adjFrag gid e f).next = s.next := rfl
@[simp] theorem State.adjFrag_beacon : (s.adjFrag gid e f).beacon = s.beacon := rfl
@[simp] theorem State.adjFrag_gangs : (s.adjFrag gid e f).gangs = smAdj s.gangs gid fun g => { g with frags := smAdj g.frags e f } := rfl
@[simp] theorem State.adjFrag_wgs : (s.adjFrag gid e f).wgs = s.wgs := rfl
@[simp] theorem State.adjFrag_launches : (s.adjFrag gid e f).launches = s.launches := rfl
@[simp] theorem State.adjFrag_lanterns : (s.adjFrag gid e f).lanterns = s.lanterns := rfl
@[simp] theorem State.adjFrag_images : (s.adjFrag gid e f).images = s.images := rfl
@[simp] theorem State.adjFrag_ctxs : (s.adjFrag gid e f).ctxs = s.ctxs := rfl
@[simp] theorem State.adjFrag_tenants : (s.adjFrag gid e f).tenants = s.tenants := rfl
@[simp] theorem State.adjFrag_ops : (s.adjFrag gid e f).ops = s.ops := rfl
@[simp] theorem State.adjFrag_copies : (s.adjFrag gid e f).copies = s.copies := rfl
@[simp] theorem State.adjFrag_sigs : (s.adjFrag gid e f).sigs = s.sigs := rfl
@[simp] theorem State.adjFrag_mem : (s.adjFrag gid e f).mem = s.mem := rfl
@[simp] theorem State.adjFrag_binds : (s.adjFrag gid e f).binds = s.binds := rfl
@[simp] theorem State.adjFrag_runs : (s.adjFrag gid e f).runs = s.runs := rfl
@[simp] theorem State.adjFrag_fab : (s.adjFrag gid e f).fab = s.fab := rfl
@[simp] theorem State.adjFrag_host : (s.adjFrag gid e f).host = s.host := rfl
@[simp] theorem State.adjFrag_pf : (s.adjFrag gid e f).pf = s.pf := rfl
@[simp] theorem State.adjFrag_plat : (s.adjFrag gid e f).plat = s.plat := rfl
@[simp] theorem State.adjFrag_msix : (s.adjFrag gid e f).msix = s.msix := rfl
end

/-! setOp. -/

section
variable (s : State) (k : Nat) (o : Op)
@[simp] theorem State.setOp_now : (s.setOp k o).now = s.now := rfl
@[simp] theorem State.setOp_cur : (s.setOp k o).cur = s.cur := rfl
@[simp] theorem State.setOp_inbox : (s.setOp k o).inbox = s.inbox := rfl
@[simp] theorem State.setOp_turn : (s.setOp k o).turn = s.turn := rfl
@[simp] theorem State.setOp_free : (s.setOp k o).free = s.free := rfl
@[simp] theorem State.setOp_next : (s.setOp k o).next = s.next := rfl
@[simp] theorem State.setOp_beacon : (s.setOp k o).beacon = s.beacon := rfl
@[simp] theorem State.setOp_gangs : (s.setOp k o).gangs = s.gangs := rfl
@[simp] theorem State.setOp_wgs : (s.setOp k o).wgs = s.wgs := rfl
@[simp] theorem State.setOp_launches : (s.setOp k o).launches = s.launches := rfl
@[simp] theorem State.setOp_lanterns : (s.setOp k o).lanterns = s.lanterns := rfl
@[simp] theorem State.setOp_images : (s.setOp k o).images = s.images := rfl
@[simp] theorem State.setOp_ctxs : (s.setOp k o).ctxs = s.ctxs := rfl
@[simp] theorem State.setOp_tenants : (s.setOp k o).tenants = s.tenants := rfl
@[simp] theorem State.setOp_ops : (s.setOp k o).ops = smPut s.ops k o := rfl
@[simp] theorem State.setOp_copies : (s.setOp k o).copies = s.copies := rfl
@[simp] theorem State.setOp_sigs : (s.setOp k o).sigs = s.sigs := rfl
@[simp] theorem State.setOp_mem : (s.setOp k o).mem = s.mem := rfl
@[simp] theorem State.setOp_binds : (s.setOp k o).binds = s.binds := rfl
@[simp] theorem State.setOp_runs : (s.setOp k o).runs = s.runs := rfl
@[simp] theorem State.setOp_fab : (s.setOp k o).fab = s.fab := rfl
@[simp] theorem State.setOp_host : (s.setOp k o).host = s.host := rfl
@[simp] theorem State.setOp_pf : (s.setOp k o).pf = s.pf := rfl
@[simp] theorem State.setOp_plat : (s.setOp k o).plat = s.plat := rfl
@[simp] theorem State.setOp_msix : (s.setOp k o).msix = s.msix := rfl
end

/-! adjOp. -/

section
variable (s : State) (k : Nat) (f : Op → Op)
@[simp] theorem State.adjOp_now : (s.adjOp k f).now = s.now := rfl
@[simp] theorem State.adjOp_cur : (s.adjOp k f).cur = s.cur := rfl
@[simp] theorem State.adjOp_inbox : (s.adjOp k f).inbox = s.inbox := rfl
@[simp] theorem State.adjOp_turn : (s.adjOp k f).turn = s.turn := rfl
@[simp] theorem State.adjOp_free : (s.adjOp k f).free = s.free := rfl
@[simp] theorem State.adjOp_next : (s.adjOp k f).next = s.next := rfl
@[simp] theorem State.adjOp_beacon : (s.adjOp k f).beacon = s.beacon := rfl
@[simp] theorem State.adjOp_gangs : (s.adjOp k f).gangs = s.gangs := rfl
@[simp] theorem State.adjOp_wgs : (s.adjOp k f).wgs = s.wgs := rfl
@[simp] theorem State.adjOp_launches : (s.adjOp k f).launches = s.launches := rfl
@[simp] theorem State.adjOp_lanterns : (s.adjOp k f).lanterns = s.lanterns := rfl
@[simp] theorem State.adjOp_images : (s.adjOp k f).images = s.images := rfl
@[simp] theorem State.adjOp_ctxs : (s.adjOp k f).ctxs = s.ctxs := rfl
@[simp] theorem State.adjOp_tenants : (s.adjOp k f).tenants = s.tenants := rfl
@[simp] theorem State.adjOp_ops : (s.adjOp k f).ops = smAdj s.ops k f := rfl
@[simp] theorem State.adjOp_copies : (s.adjOp k f).copies = s.copies := rfl
@[simp] theorem State.adjOp_sigs : (s.adjOp k f).sigs = s.sigs := rfl
@[simp] theorem State.adjOp_mem : (s.adjOp k f).mem = s.mem := rfl
@[simp] theorem State.adjOp_binds : (s.adjOp k f).binds = s.binds := rfl
@[simp] theorem State.adjOp_runs : (s.adjOp k f).runs = s.runs := rfl
@[simp] theorem State.adjOp_fab : (s.adjOp k f).fab = s.fab := rfl
@[simp] theorem State.adjOp_host : (s.adjOp k f).host = s.host := rfl
@[simp] theorem State.adjOp_pf : (s.adjOp k f).pf = s.pf := rfl
@[simp] theorem State.adjOp_plat : (s.adjOp k f).plat = s.plat := rfl
@[simp] theorem State.adjOp_msix : (s.adjOp k f).msix = s.msix := rfl
end

/-! adjWg. -/

section
variable (s : State) (k : Nat) (f : Workgroup → Workgroup)
@[simp] theorem State.adjWg_now : (s.adjWg k f).now = s.now := rfl
@[simp] theorem State.adjWg_cur : (s.adjWg k f).cur = s.cur := rfl
@[simp] theorem State.adjWg_inbox : (s.adjWg k f).inbox = s.inbox := rfl
@[simp] theorem State.adjWg_turn : (s.adjWg k f).turn = s.turn := rfl
@[simp] theorem State.adjWg_free : (s.adjWg k f).free = s.free := rfl
@[simp] theorem State.adjWg_next : (s.adjWg k f).next = s.next := rfl
@[simp] theorem State.adjWg_beacon : (s.adjWg k f).beacon = s.beacon := rfl
@[simp] theorem State.adjWg_gangs : (s.adjWg k f).gangs = s.gangs := rfl
@[simp] theorem State.adjWg_wgs : (s.adjWg k f).wgs = smAdj s.wgs k f := rfl
@[simp] theorem State.adjWg_launches : (s.adjWg k f).launches = s.launches := rfl
@[simp] theorem State.adjWg_lanterns : (s.adjWg k f).lanterns = s.lanterns := rfl
@[simp] theorem State.adjWg_images : (s.adjWg k f).images = s.images := rfl
@[simp] theorem State.adjWg_ctxs : (s.adjWg k f).ctxs = s.ctxs := rfl
@[simp] theorem State.adjWg_tenants : (s.adjWg k f).tenants = s.tenants := rfl
@[simp] theorem State.adjWg_ops : (s.adjWg k f).ops = s.ops := rfl
@[simp] theorem State.adjWg_copies : (s.adjWg k f).copies = s.copies := rfl
@[simp] theorem State.adjWg_sigs : (s.adjWg k f).sigs = s.sigs := rfl
@[simp] theorem State.adjWg_mem : (s.adjWg k f).mem = s.mem := rfl
@[simp] theorem State.adjWg_binds : (s.adjWg k f).binds = s.binds := rfl
@[simp] theorem State.adjWg_runs : (s.adjWg k f).runs = s.runs := rfl
@[simp] theorem State.adjWg_fab : (s.adjWg k f).fab = s.fab := rfl
@[simp] theorem State.adjWg_host : (s.adjWg k f).host = s.host := rfl
@[simp] theorem State.adjWg_pf : (s.adjWg k f).pf = s.pf := rfl
@[simp] theorem State.adjWg_plat : (s.adjWg k f).plat = s.plat := rfl
@[simp] theorem State.adjWg_msix : (s.adjWg k f).msix = s.msix := rfl
end

/-! adjLaunch. -/

section
variable (s : State) (k : Nat) (f : Launch → Launch)
@[simp] theorem State.adjLaunch_now : (s.adjLaunch k f).now = s.now := rfl
@[simp] theorem State.adjLaunch_cur : (s.adjLaunch k f).cur = s.cur := rfl
@[simp] theorem State.adjLaunch_inbox : (s.adjLaunch k f).inbox = s.inbox := rfl
@[simp] theorem State.adjLaunch_turn : (s.adjLaunch k f).turn = s.turn := rfl
@[simp] theorem State.adjLaunch_free : (s.adjLaunch k f).free = s.free := rfl
@[simp] theorem State.adjLaunch_next : (s.adjLaunch k f).next = s.next := rfl
@[simp] theorem State.adjLaunch_beacon : (s.adjLaunch k f).beacon = s.beacon := rfl
@[simp] theorem State.adjLaunch_gangs : (s.adjLaunch k f).gangs = s.gangs := rfl
@[simp] theorem State.adjLaunch_wgs : (s.adjLaunch k f).wgs = s.wgs := rfl
@[simp] theorem State.adjLaunch_launches : (s.adjLaunch k f).launches = smAdj s.launches k f := rfl
@[simp] theorem State.adjLaunch_lanterns : (s.adjLaunch k f).lanterns = s.lanterns := rfl
@[simp] theorem State.adjLaunch_images : (s.adjLaunch k f).images = s.images := rfl
@[simp] theorem State.adjLaunch_ctxs : (s.adjLaunch k f).ctxs = s.ctxs := rfl
@[simp] theorem State.adjLaunch_tenants : (s.adjLaunch k f).tenants = s.tenants := rfl
@[simp] theorem State.adjLaunch_ops : (s.adjLaunch k f).ops = s.ops := rfl
@[simp] theorem State.adjLaunch_copies : (s.adjLaunch k f).copies = s.copies := rfl
@[simp] theorem State.adjLaunch_sigs : (s.adjLaunch k f).sigs = s.sigs := rfl
@[simp] theorem State.adjLaunch_mem : (s.adjLaunch k f).mem = s.mem := rfl
@[simp] theorem State.adjLaunch_binds : (s.adjLaunch k f).binds = s.binds := rfl
@[simp] theorem State.adjLaunch_runs : (s.adjLaunch k f).runs = s.runs := rfl
@[simp] theorem State.adjLaunch_fab : (s.adjLaunch k f).fab = s.fab := rfl
@[simp] theorem State.adjLaunch_host : (s.adjLaunch k f).host = s.host := rfl
@[simp] theorem State.adjLaunch_pf : (s.adjLaunch k f).pf = s.pf := rfl
@[simp] theorem State.adjLaunch_plat : (s.adjLaunch k f).plat = s.plat := rfl
@[simp] theorem State.adjLaunch_msix : (s.adjLaunch k f).msix = s.msix := rfl
end

/-! adjCtx. -/

section
variable (s : State) (c : Nat) (f : Ctx → Ctx)
@[simp] theorem State.adjCtx_now : (s.adjCtx c f).now = s.now := rfl
@[simp] theorem State.adjCtx_cur : (s.adjCtx c f).cur = s.cur := rfl
@[simp] theorem State.adjCtx_inbox : (s.adjCtx c f).inbox = s.inbox := rfl
@[simp] theorem State.adjCtx_turn : (s.adjCtx c f).turn = s.turn := rfl
@[simp] theorem State.adjCtx_free : (s.adjCtx c f).free = s.free := rfl
@[simp] theorem State.adjCtx_next : (s.adjCtx c f).next = s.next := rfl
@[simp] theorem State.adjCtx_beacon : (s.adjCtx c f).beacon = s.beacon := rfl
@[simp] theorem State.adjCtx_gangs : (s.adjCtx c f).gangs = s.gangs := rfl
@[simp] theorem State.adjCtx_wgs : (s.adjCtx c f).wgs = s.wgs := rfl
@[simp] theorem State.adjCtx_launches : (s.adjCtx c f).launches = s.launches := rfl
@[simp] theorem State.adjCtx_lanterns : (s.adjCtx c f).lanterns = s.lanterns := rfl
@[simp] theorem State.adjCtx_images : (s.adjCtx c f).images = s.images := rfl
@[simp] theorem State.adjCtx_ctxs : (s.adjCtx c f).ctxs = smAdj s.ctxs c f := rfl
@[simp] theorem State.adjCtx_tenants : (s.adjCtx c f).tenants = s.tenants := rfl
@[simp] theorem State.adjCtx_ops : (s.adjCtx c f).ops = s.ops := rfl
@[simp] theorem State.adjCtx_copies : (s.adjCtx c f).copies = s.copies := rfl
@[simp] theorem State.adjCtx_sigs : (s.adjCtx c f).sigs = s.sigs := rfl
@[simp] theorem State.adjCtx_mem : (s.adjCtx c f).mem = s.mem := rfl
@[simp] theorem State.adjCtx_binds : (s.adjCtx c f).binds = s.binds := rfl
@[simp] theorem State.adjCtx_runs : (s.adjCtx c f).runs = s.runs := rfl
@[simp] theorem State.adjCtx_fab : (s.adjCtx c f).fab = s.fab := rfl
@[simp] theorem State.adjCtx_host : (s.adjCtx c f).host = s.host := rfl
@[simp] theorem State.adjCtx_pf : (s.adjCtx c f).pf = s.pf := rfl
@[simp] theorem State.adjCtx_plat : (s.adjCtx c f).plat = s.plat := rfl
@[simp] theorem State.adjCtx_msix : (s.adjCtx c f).msix = s.msix := rfl
end

/-! adjRun. -/

section
variable (s : State) (r : Nat) (f : Run → Run)
@[simp] theorem State.adjRun_now : (s.adjRun r f).now = s.now := rfl
@[simp] theorem State.adjRun_cur : (s.adjRun r f).cur = s.cur := rfl
@[simp] theorem State.adjRun_inbox : (s.adjRun r f).inbox = s.inbox := rfl
@[simp] theorem State.adjRun_turn : (s.adjRun r f).turn = s.turn := rfl
@[simp] theorem State.adjRun_free : (s.adjRun r f).free = s.free := rfl
@[simp] theorem State.adjRun_next : (s.adjRun r f).next = s.next := rfl
@[simp] theorem State.adjRun_beacon : (s.adjRun r f).beacon = s.beacon := rfl
@[simp] theorem State.adjRun_gangs : (s.adjRun r f).gangs = s.gangs := rfl
@[simp] theorem State.adjRun_wgs : (s.adjRun r f).wgs = s.wgs := rfl
@[simp] theorem State.adjRun_launches : (s.adjRun r f).launches = s.launches := rfl
@[simp] theorem State.adjRun_lanterns : (s.adjRun r f).lanterns = s.lanterns := rfl
@[simp] theorem State.adjRun_images : (s.adjRun r f).images = s.images := rfl
@[simp] theorem State.adjRun_ctxs : (s.adjRun r f).ctxs = s.ctxs := rfl
@[simp] theorem State.adjRun_tenants : (s.adjRun r f).tenants = s.tenants := rfl
@[simp] theorem State.adjRun_ops : (s.adjRun r f).ops = s.ops := rfl
@[simp] theorem State.adjRun_copies : (s.adjRun r f).copies = s.copies := rfl
@[simp] theorem State.adjRun_sigs : (s.adjRun r f).sigs = s.sigs := rfl
@[simp] theorem State.adjRun_mem : (s.adjRun r f).mem = s.mem := rfl
@[simp] theorem State.adjRun_binds : (s.adjRun r f).binds = s.binds := rfl
@[simp] theorem State.adjRun_runs : (s.adjRun r f).runs = smAdj s.runs r f := rfl
@[simp] theorem State.adjRun_fab : (s.adjRun r f).fab = s.fab := rfl
@[simp] theorem State.adjRun_host : (s.adjRun r f).host = s.host := rfl
@[simp] theorem State.adjRun_pf : (s.adjRun r f).pf = s.pf := rfl
@[simp] theorem State.adjRun_plat : (s.adjRun r f).plat = s.plat := rfl
@[simp] theorem State.adjRun_msix : (s.adjRun r f).msix = s.msix := rfl
end

/-! adjCopy. -/

section
variable (s : State) (k : Nat) (f : Copy → Copy)
@[simp] theorem State.adjCopy_now : (s.adjCopy k f).now = s.now := rfl
@[simp] theorem State.adjCopy_cur : (s.adjCopy k f).cur = s.cur := rfl
@[simp] theorem State.adjCopy_inbox : (s.adjCopy k f).inbox = s.inbox := rfl
@[simp] theorem State.adjCopy_turn : (s.adjCopy k f).turn = s.turn := rfl
@[simp] theorem State.adjCopy_free : (s.adjCopy k f).free = s.free := rfl
@[simp] theorem State.adjCopy_next : (s.adjCopy k f).next = s.next := rfl
@[simp] theorem State.adjCopy_beacon : (s.adjCopy k f).beacon = s.beacon := rfl
@[simp] theorem State.adjCopy_gangs : (s.adjCopy k f).gangs = s.gangs := rfl
@[simp] theorem State.adjCopy_wgs : (s.adjCopy k f).wgs = s.wgs := rfl
@[simp] theorem State.adjCopy_launches : (s.adjCopy k f).launches = s.launches := rfl
@[simp] theorem State.adjCopy_lanterns : (s.adjCopy k f).lanterns = s.lanterns := rfl
@[simp] theorem State.adjCopy_images : (s.adjCopy k f).images = s.images := rfl
@[simp] theorem State.adjCopy_ctxs : (s.adjCopy k f).ctxs = s.ctxs := rfl
@[simp] theorem State.adjCopy_tenants : (s.adjCopy k f).tenants = s.tenants := rfl
@[simp] theorem State.adjCopy_ops : (s.adjCopy k f).ops = s.ops := rfl
@[simp] theorem State.adjCopy_copies : (s.adjCopy k f).copies = smAdj s.copies k f := rfl
@[simp] theorem State.adjCopy_sigs : (s.adjCopy k f).sigs = s.sigs := rfl
@[simp] theorem State.adjCopy_mem : (s.adjCopy k f).mem = s.mem := rfl
@[simp] theorem State.adjCopy_binds : (s.adjCopy k f).binds = s.binds := rfl
@[simp] theorem State.adjCopy_runs : (s.adjCopy k f).runs = s.runs := rfl
@[simp] theorem State.adjCopy_fab : (s.adjCopy k f).fab = s.fab := rfl
@[simp] theorem State.adjCopy_host : (s.adjCopy k f).host = s.host := rfl
@[simp] theorem State.adjCopy_pf : (s.adjCopy k f).pf = s.pf := rfl
@[simp] theorem State.adjCopy_plat : (s.adjCopy k f).plat = s.plat := rfl
@[simp] theorem State.adjCopy_msix : (s.adjCopy k f).msix = s.msix := rfl
end

/-! adjBind. -/

section
variable (s : State) (k : Nat) (f : Binding → Binding)
@[simp] theorem State.adjBind_now : (s.adjBind k f).now = s.now := rfl
@[simp] theorem State.adjBind_cur : (s.adjBind k f).cur = s.cur := rfl
@[simp] theorem State.adjBind_inbox : (s.adjBind k f).inbox = s.inbox := rfl
@[simp] theorem State.adjBind_turn : (s.adjBind k f).turn = s.turn := rfl
@[simp] theorem State.adjBind_free : (s.adjBind k f).free = s.free := rfl
@[simp] theorem State.adjBind_next : (s.adjBind k f).next = s.next := rfl
@[simp] theorem State.adjBind_beacon : (s.adjBind k f).beacon = s.beacon := rfl
@[simp] theorem State.adjBind_gangs : (s.adjBind k f).gangs = s.gangs := rfl
@[simp] theorem State.adjBind_wgs : (s.adjBind k f).wgs = s.wgs := rfl
@[simp] theorem State.adjBind_launches : (s.adjBind k f).launches = s.launches := rfl
@[simp] theorem State.adjBind_lanterns : (s.adjBind k f).lanterns = s.lanterns := rfl
@[simp] theorem State.adjBind_images : (s.adjBind k f).images = s.images := rfl
@[simp] theorem State.adjBind_ctxs : (s.adjBind k f).ctxs = s.ctxs := rfl
@[simp] theorem State.adjBind_tenants : (s.adjBind k f).tenants = s.tenants := rfl
@[simp] theorem State.adjBind_ops : (s.adjBind k f).ops = s.ops := rfl
@[simp] theorem State.adjBind_copies : (s.adjBind k f).copies = s.copies := rfl
@[simp] theorem State.adjBind_sigs : (s.adjBind k f).sigs = s.sigs := rfl
@[simp] theorem State.adjBind_mem : (s.adjBind k f).mem = s.mem := rfl
@[simp] theorem State.adjBind_binds : (s.adjBind k f).binds = smAdj s.binds k f := rfl
@[simp] theorem State.adjBind_runs : (s.adjBind k f).runs = s.runs := rfl
@[simp] theorem State.adjBind_fab : (s.adjBind k f).fab = s.fab := rfl
@[simp] theorem State.adjBind_host : (s.adjBind k f).host = s.host := rfl
@[simp] theorem State.adjBind_pf : (s.adjBind k f).pf = s.pf := rfl
@[simp] theorem State.adjBind_plat : (s.adjBind k f).plat = s.plat := rfl
@[simp] theorem State.adjBind_msix : (s.adjBind k f).msix = s.msix := rfl
end

/-! adjTenant. -/

section
variable (s : State) (t : Nat) (f : Tenant → Tenant)
@[simp] theorem State.adjTenant_now : (s.adjTenant t f).now = s.now := rfl
@[simp] theorem State.adjTenant_cur : (s.adjTenant t f).cur = s.cur := rfl
@[simp] theorem State.adjTenant_inbox : (s.adjTenant t f).inbox = s.inbox := rfl
@[simp] theorem State.adjTenant_turn : (s.adjTenant t f).turn = s.turn := rfl
@[simp] theorem State.adjTenant_free : (s.adjTenant t f).free = s.free := rfl
@[simp] theorem State.adjTenant_next : (s.adjTenant t f).next = s.next := rfl
@[simp] theorem State.adjTenant_beacon : (s.adjTenant t f).beacon = s.beacon := rfl
@[simp] theorem State.adjTenant_gangs : (s.adjTenant t f).gangs = s.gangs := rfl
@[simp] theorem State.adjTenant_wgs : (s.adjTenant t f).wgs = s.wgs := rfl
@[simp] theorem State.adjTenant_launches : (s.adjTenant t f).launches = s.launches := rfl
@[simp] theorem State.adjTenant_lanterns : (s.adjTenant t f).lanterns = s.lanterns := rfl
@[simp] theorem State.adjTenant_images : (s.adjTenant t f).images = s.images := rfl
@[simp] theorem State.adjTenant_ctxs : (s.adjTenant t f).ctxs = s.ctxs := rfl
@[simp] theorem State.adjTenant_tenants : (s.adjTenant t f).tenants = smPut s.tenants t (f (s.tenant t)) := rfl
@[simp] theorem State.adjTenant_ops : (s.adjTenant t f).ops = s.ops := rfl
@[simp] theorem State.adjTenant_copies : (s.adjTenant t f).copies = s.copies := rfl
@[simp] theorem State.adjTenant_sigs : (s.adjTenant t f).sigs = s.sigs := rfl
@[simp] theorem State.adjTenant_mem : (s.adjTenant t f).mem = s.mem := rfl
@[simp] theorem State.adjTenant_binds : (s.adjTenant t f).binds = s.binds := rfl
@[simp] theorem State.adjTenant_runs : (s.adjTenant t f).runs = s.runs := rfl
@[simp] theorem State.adjTenant_fab : (s.adjTenant t f).fab = s.fab := rfl
@[simp] theorem State.adjTenant_host : (s.adjTenant t f).host = s.host := rfl
@[simp] theorem State.adjTenant_pf : (s.adjTenant t f).pf = s.pf := rfl
@[simp] theorem State.adjTenant_plat : (s.adjTenant t f).plat = s.plat := rfl
@[simp] theorem State.adjTenant_msix : (s.adjTenant t f).msix = s.msix := rfl
end

/-! setMem. -/

section
variable (s : State) (m : Mem)
@[simp] theorem State.setMem_now : (s.setMem m).now = s.now := rfl
@[simp] theorem State.setMem_cur : (s.setMem m).cur = s.cur := rfl
@[simp] theorem State.setMem_inbox : (s.setMem m).inbox = s.inbox := rfl
@[simp] theorem State.setMem_turn : (s.setMem m).turn = s.turn := rfl
@[simp] theorem State.setMem_free : (s.setMem m).free = s.free := rfl
@[simp] theorem State.setMem_next : (s.setMem m).next = s.next := rfl
@[simp] theorem State.setMem_beacon : (s.setMem m).beacon = s.beacon := rfl
@[simp] theorem State.setMem_gangs : (s.setMem m).gangs = s.gangs := rfl
@[simp] theorem State.setMem_wgs : (s.setMem m).wgs = s.wgs := rfl
@[simp] theorem State.setMem_launches : (s.setMem m).launches = s.launches := rfl
@[simp] theorem State.setMem_lanterns : (s.setMem m).lanterns = s.lanterns := rfl
@[simp] theorem State.setMem_images : (s.setMem m).images = s.images := rfl
@[simp] theorem State.setMem_ctxs : (s.setMem m).ctxs = s.ctxs := rfl
@[simp] theorem State.setMem_tenants : (s.setMem m).tenants = s.tenants := rfl
@[simp] theorem State.setMem_ops : (s.setMem m).ops = s.ops := rfl
@[simp] theorem State.setMem_copies : (s.setMem m).copies = s.copies := rfl
@[simp] theorem State.setMem_sigs : (s.setMem m).sigs = s.sigs := rfl
@[simp] theorem State.setMem_mem : (s.setMem m).mem = m := rfl
@[simp] theorem State.setMem_binds : (s.setMem m).binds = s.binds := rfl
@[simp] theorem State.setMem_runs : (s.setMem m).runs = s.runs := rfl
@[simp] theorem State.setMem_fab : (s.setMem m).fab = s.fab := rfl
@[simp] theorem State.setMem_host : (s.setMem m).host = s.host := rfl
@[simp] theorem State.setMem_pf : (s.setMem m).pf = s.pf := rfl
@[simp] theorem State.setMem_plat : (s.setMem m).plat = s.plat := rfl
@[simp] theorem State.setMem_msix : (s.setMem m).msix = s.msix := rfl
end

/-! setFab. -/

section
variable (s : State) (f : Fabric)
@[simp] theorem State.setFab_now : (s.setFab f).now = s.now := rfl
@[simp] theorem State.setFab_cur : (s.setFab f).cur = s.cur := rfl
@[simp] theorem State.setFab_inbox : (s.setFab f).inbox = s.inbox := rfl
@[simp] theorem State.setFab_turn : (s.setFab f).turn = s.turn := rfl
@[simp] theorem State.setFab_free : (s.setFab f).free = s.free := rfl
@[simp] theorem State.setFab_next : (s.setFab f).next = s.next := rfl
@[simp] theorem State.setFab_beacon : (s.setFab f).beacon = s.beacon := rfl
@[simp] theorem State.setFab_gangs : (s.setFab f).gangs = s.gangs := rfl
@[simp] theorem State.setFab_wgs : (s.setFab f).wgs = s.wgs := rfl
@[simp] theorem State.setFab_launches : (s.setFab f).launches = s.launches := rfl
@[simp] theorem State.setFab_lanterns : (s.setFab f).lanterns = s.lanterns := rfl
@[simp] theorem State.setFab_images : (s.setFab f).images = s.images := rfl
@[simp] theorem State.setFab_ctxs : (s.setFab f).ctxs = s.ctxs := rfl
@[simp] theorem State.setFab_tenants : (s.setFab f).tenants = s.tenants := rfl
@[simp] theorem State.setFab_ops : (s.setFab f).ops = s.ops := rfl
@[simp] theorem State.setFab_copies : (s.setFab f).copies = s.copies := rfl
@[simp] theorem State.setFab_sigs : (s.setFab f).sigs = s.sigs := rfl
@[simp] theorem State.setFab_mem : (s.setFab f).mem = s.mem := rfl
@[simp] theorem State.setFab_binds : (s.setFab f).binds = s.binds := rfl
@[simp] theorem State.setFab_runs : (s.setFab f).runs = s.runs := rfl
@[simp] theorem State.setFab_fab : (s.setFab f).fab = f := rfl
@[simp] theorem State.setFab_host : (s.setFab f).host = s.host := rfl
@[simp] theorem State.setFab_pf : (s.setFab f).pf = s.pf := rfl
@[simp] theorem State.setFab_plat : (s.setFab f).plat = s.plat := rfl
@[simp] theorem State.setFab_msix : (s.setFab f).msix = s.msix := rfl
end

/-! setPf. -/

section
variable (s : State) (p : Pf)
@[simp] theorem State.setPf_now : (s.setPf p).now = s.now := rfl
@[simp] theorem State.setPf_cur : (s.setPf p).cur = s.cur := rfl
@[simp] theorem State.setPf_inbox : (s.setPf p).inbox = s.inbox := rfl
@[simp] theorem State.setPf_turn : (s.setPf p).turn = s.turn := rfl
@[simp] theorem State.setPf_free : (s.setPf p).free = s.free := rfl
@[simp] theorem State.setPf_next : (s.setPf p).next = s.next := rfl
@[simp] theorem State.setPf_beacon : (s.setPf p).beacon = s.beacon := rfl
@[simp] theorem State.setPf_gangs : (s.setPf p).gangs = s.gangs := rfl
@[simp] theorem State.setPf_wgs : (s.setPf p).wgs = s.wgs := rfl
@[simp] theorem State.setPf_launches : (s.setPf p).launches = s.launches := rfl
@[simp] theorem State.setPf_lanterns : (s.setPf p).lanterns = s.lanterns := rfl
@[simp] theorem State.setPf_images : (s.setPf p).images = s.images := rfl
@[simp] theorem State.setPf_ctxs : (s.setPf p).ctxs = s.ctxs := rfl
@[simp] theorem State.setPf_tenants : (s.setPf p).tenants = s.tenants := rfl
@[simp] theorem State.setPf_ops : (s.setPf p).ops = s.ops := rfl
@[simp] theorem State.setPf_copies : (s.setPf p).copies = s.copies := rfl
@[simp] theorem State.setPf_sigs : (s.setPf p).sigs = s.sigs := rfl
@[simp] theorem State.setPf_mem : (s.setPf p).mem = s.mem := rfl
@[simp] theorem State.setPf_binds : (s.setPf p).binds = s.binds := rfl
@[simp] theorem State.setPf_runs : (s.setPf p).runs = s.runs := rfl
@[simp] theorem State.setPf_fab : (s.setPf p).fab = s.fab := rfl
@[simp] theorem State.setPf_host : (s.setPf p).host = s.host := rfl
@[simp] theorem State.setPf_pf : (s.setPf p).pf = p := rfl
@[simp] theorem State.setPf_plat : (s.setPf p).plat = s.plat := rfl
@[simp] theorem State.setPf_msix : (s.setPf p).msix = s.msix := rfl
end

/-! setPlat. -/

section
variable (s : State) (p : Platform)
@[simp] theorem State.setPlat_now : (s.setPlat p).now = s.now := rfl
@[simp] theorem State.setPlat_cur : (s.setPlat p).cur = s.cur := rfl
@[simp] theorem State.setPlat_inbox : (s.setPlat p).inbox = s.inbox := rfl
@[simp] theorem State.setPlat_turn : (s.setPlat p).turn = s.turn := rfl
@[simp] theorem State.setPlat_free : (s.setPlat p).free = s.free := rfl
@[simp] theorem State.setPlat_next : (s.setPlat p).next = s.next := rfl
@[simp] theorem State.setPlat_beacon : (s.setPlat p).beacon = s.beacon := rfl
@[simp] theorem State.setPlat_gangs : (s.setPlat p).gangs = s.gangs := rfl
@[simp] theorem State.setPlat_wgs : (s.setPlat p).wgs = s.wgs := rfl
@[simp] theorem State.setPlat_launches : (s.setPlat p).launches = s.launches := rfl
@[simp] theorem State.setPlat_lanterns : (s.setPlat p).lanterns = s.lanterns := rfl
@[simp] theorem State.setPlat_images : (s.setPlat p).images = s.images := rfl
@[simp] theorem State.setPlat_ctxs : (s.setPlat p).ctxs = s.ctxs := rfl
@[simp] theorem State.setPlat_tenants : (s.setPlat p).tenants = s.tenants := rfl
@[simp] theorem State.setPlat_ops : (s.setPlat p).ops = s.ops := rfl
@[simp] theorem State.setPlat_copies : (s.setPlat p).copies = s.copies := rfl
@[simp] theorem State.setPlat_sigs : (s.setPlat p).sigs = s.sigs := rfl
@[simp] theorem State.setPlat_mem : (s.setPlat p).mem = s.mem := rfl
@[simp] theorem State.setPlat_binds : (s.setPlat p).binds = s.binds := rfl
@[simp] theorem State.setPlat_runs : (s.setPlat p).runs = s.runs := rfl
@[simp] theorem State.setPlat_fab : (s.setPlat p).fab = s.fab := rfl
@[simp] theorem State.setPlat_host : (s.setPlat p).host = s.host := rfl
@[simp] theorem State.setPlat_pf : (s.setPlat p).pf = s.pf := rfl
@[simp] theorem State.setPlat_plat : (s.setPlat p).plat = p := rfl
@[simp] theorem State.setPlat_msix : (s.setPlat p).msix = s.msix := rfl
end

end Sys2Proof.Machine
end

