-- ==== Sys2Proof/Laws/Memory.lean ====
section
/-! SUPPORT. Which memory operations write frames, and that each of those keeps the canonical form. -/
namespace Sys2Proof.Laws
open Sys2Proof.Machine

/-- A fold whose every step keeps a property keeps it. -/
theorem foldl_keeps {α β : Type} (P : β → Prop) (f : β → α → β) (l : List α) (b : β) (hb : P b)
    (h : ∀ b, P b → ∀ a ∈ l, P (f b a)) : P (l.foldl f b) := by
  induction l generalizing b with
  | nil => exact hb
  | cons a l ih =>
    exact ih _ (h b hb a (List.mem_cons_self)) fun b hb c hc => h b hb c (List.mem_cons_of_mem _ hc)

/-! Operations on lines leave the frames alone. -/

@[simp] theorem recallL1_frames (m : Mem) (la : Nat) (l : L2Line) (w : Nat → L1Line → Bool) :
    (recallL1 m la l w).1.frames = m.frames := rfl
@[simp] theorem takeOwn_frames (m : Mem) (la : Nat) (l : L2Line) (me : Nat) : (takeOwn m la l me).1.frames = m.frames := rfl
@[simp] theorem shareFrom_frames (m : Mem) (la : Nat) (l : L2Line) (me : Option Nat) :
    (shareFrom m la l me).1.frames = m.frames := rfl
@[simp] theorem unmark_frames (m : Mem) (ia n : Nat) : (unmark m ia n).frames = m.frames := rfl
@[simp] theorem coreAccess_frames (m : Mem) (l : L2Line) (cls core ia n key : Nat) (d : Do) :
    (coreAccess m l cls core ia n key d).1.frames = m.frames := by
  unfold coreAccess
  dsimp only
  split_ifs
  · rfl
  · split <;> rfl
  · rfl
  · rfl
@[simp] theorem sliceAccess_frames (m : Mem) (l : L2Line) (ia n key : Nat) (d : Do) :
    (sliceAccess m l ia n key d).1.frames = m.frames := by
  unfold sliceAccess
  dsimp only
  split_ifs <;> rfl
@[simp] theorem cleanL1_frames (m : Mem) (k : Nat) : (cleanL1 m k).frames = m.frames := by
  unfold cleanL1
  split
  · rfl
  · split_ifs
    · rfl
    · split <;> rfl
@[simp] theorem cleanL1s_frames (ks : List Nat) (m : Mem) : (ks.foldl cleanL1 m).frames = m.frames :=
  foldl_keeps (fun x => x.frames = m.frames) _ _ _ rfl fun b hb k _ => (cleanL1_frames b k).trans hb

/-! Operations that write frames keep the canonical form. -/

theorem wf_writeDirty {m : Memory} (h : Memory.wf m = true) (l : L2Line) : Memory.wf (writeDirty m l) = true := by
  unfold writeDirty
  split
  · exact foldl_keeps (fun m => Memory.wf m = true) _ _ _ h fun b hb i _ => Memory.wf_writeByte hb _ _
  · exact h
theorem wf_cleanLine {m : Mem} (h : Memory.wf m.frames = true) (k : Nat) (l : L2Line) :
    Memory.wf (cleanLine m k l).frames = true := by
  unfold cleanLine
  split
  · exact wf_writeDirty h l
  · exact h
theorem wf_dropLine (all : Bool) {m : Mem} (h : Memory.wf m.frames = true) (k : Nat) :
    Memory.wf (dropLine all m k).frames = true := by
  unfold dropLine
  split
  · split_ifs <;> exact h
  · exact wf_cleanLine (m := (recallL1 m _ _ _).1) h k _
theorem wf_purgeFrame {m : Mem} (h : Memory.wf m.frames = true) (pa : Nat) : Memory.wf (purgeFrame m pa).frames = true :=
  foldl_keeps (fun m : Mem => Memory.wf m.frames = true) _ _ _ h fun _ hb k _ => wf_dropLine true hb k
theorem wf_physWrite {m : Mem} (h : Memory.wf m.frames = true) (pa : Nat) (bs : List Byte) :
    Memory.wf (physWrite m pa bs).frames = true :=
  Memory.wf_writeBytes bs (m := (List.foldl _ m _).frames)
    (foldl_keeps (fun m : Mem => Memory.wf m.frames = true) _ _ _ h fun _ hb _ _ => wf_purgeFrame hb _) pa
theorem wf_onFrame {m : Mem} (h : Memory.wf m.frames = true) (pa n : Nat) (d : Do) :
    Memory.wf (onFrame m pa n d).1.frames = true := by
  unfold onFrame
  dsimp only
  split
  · exact h
  · exact Memory.wf_writeBytes _ h pa
theorem wf_zeroFrames {m : Mem} (h : Memory.wf m.frames = true) (pa n : Nat) : Memory.wf (zeroFrames m pa n).frames = true :=
  smCanon_smKeep (d := unwritten) (m := m.frames) h (fun a _ => !(decide (pa ≤ a) && decide (a < pa + n)))
theorem wf_copyFrames {m : Mem} (h : Memory.wf m.frames = true) (src dst n : Nat) :
    Memory.wf (copyFrames m src dst n).frames = true := by
  refine foldl_keeps (fun f : Memory => Memory.wf f = true) _ m.frames _ (wf_zeroFrames h dst n) fun f hf p hp => ?_
  split_ifs
  · exact smCanon_smPut hf _ (((smCanon_iff unwritten m.frames).1 h).2 p hp)
  · exact hf

/-! The same of the state's memory. -/

@[simp] theorem askHost_frames (s : State) (half pa : Nat) : (askHost s half pa).mem.frames = s.mem.frames := by
  unfold askHost; split_ifs <;> rfl
/-- Asking the host for a half changes the memory's marks and the messages to the host alone. -/
theorem askHost_eq (s : State) (half pa : Nat) :
    ∃ k h, askHost s half pa = { s with mem := { s.mem with snooping := k }, host := h } := by
  unfold askHost; split_ifs <;> exact ⟨_, _, rfl⟩
theorem askHalf_eq (s : State) (half : Nat) :
    ∃ k h, askHalf s half = { s with mem := { s.mem with snooping := k }, host := h } := by
  unfold askHalf
  split
  · exact askHost_eq s half _
  · exact ⟨_, _, rfl⟩
@[simp] theorem surrender_frames (s : State) (key j : Nat) (keep : Bool) :
    (surrender s key j keep).mem.frames = s.mem.frames := by
  unfold surrender
  dsimp only
  split
  · rfl
  · split_ifs <;> rfl
theorem wf_dropHome {s : State} (h : Memory.wf s.mem.frames = true) (all : Bool) (key : Nat) :
    Memory.wf (dropHome s all key).mem.frames = true := by
  unfold dropHome
  split
  · split
    · simpa using h
    · exact wf_dropLine all h key
  · exact wf_dropLine all h key
/-- Evicting a line answers a state with the frames in canonical form, whether the line goes or the host is asked. -/
theorem wf_evict {s : State} (h : Memory.wf s.mem.frames = true) (k : Nat) {t : State}
    (e : evict s k = .ok t ∨ evict s k = .error t) : Memory.wf t.mem.frames = true := by
  unfold evict at e
  split at e
  · rcases e with e | e <;> cases e
    simpa using h
  · split_ifs at e <;> rcases e with e | e <;> cases e
    · exact h
    · exact wf_dropHome h false k
theorem wf_evictAll : ∀ (ks : List Nat) {s t : State}, Memory.wf s.mem.frames = true →
    (evictAll ks s = .ok t ∨ evictAll ks s = .error t) → Memory.wf t.mem.frames = true
  | [], _, _, h, e => by rcases e with e | e <;> cases e; exact h
  | k :: ks, s, t, h, e => by
    unfold evictAll at e
    cases he : evict s k with
    | ok u => rw [he] at e; exact wf_evictAll ks (wf_evict h k (.inl he)) e
    | error u => rw [he] at e; rcases e with e | e <;> cases e; exact wf_evict h k (.inr he)
theorem wf_room_ok {s t : State} {key : Nat} {l l' : L2Line} (h : Memory.wf s.mem.frames = true)
    (e : room s key l = .ok (t, l')) : Memory.wf t.mem.frames = true := by
  unfold room at e
  cases he : evictAll (wayFor s.mem key l).2 s with
  | ok u => simp only [he, Except.map] at e; cases e; exact wf_evictAll _ h (.inl he)
  | error u => simp only [he, Except.map] at e; cases e
theorem wf_room_error {s t : State} {key : Nat} {l : L2Line} (h : Memory.wf s.mem.frames = true)
    (e : room s key l = .error t) : Memory.wf t.mem.frames = true := by
  unfold room at e
  cases he : evictAll (wayFor s.mem key l).2 s with
  | ok u => simp only [he, Except.map] at e; cases e
  | error u => simp only [he, Except.map] at e; cases e; exact wf_evictAll _ h (.inr he)
theorem wf_refit {s : State} (h : Memory.wf s.mem.frames = true) : Memory.wf (refit s).mem.frames = true := by
  refine foldl_keeps (fun s : State => Memory.wf s.mem.frames = true) _ _ _ h fun s hs k _ => ?_
  split
  · exact hs
  · split
    · rename_i t _ e; exact wf_room_ok (t := t) hs e
    · rename_i e; exact wf_room_error hs e
/-- Lines of a list written back to their frames. -/
theorem wf_cleanLines (ks : List Nat) {m : Mem} (h : Memory.wf m.frames = true) :
    Memory.wf (ks.foldl (fun m k => match smFind m.l2 k with | some l => cleanLine m k l | none => m) m).frames = true := by
  refine foldl_keeps (fun m : Mem => Memory.wf m.frames = true) _ _ _ h fun m hm k _ => ?_
  split
  · exact wf_cleanLine hm _ _
  · exact hm
theorem wf_releasePart {s : State} (h : Memory.wf s.mem.frames = true) (core : Option Nat) (dies : Nat)
    (part : Option (Nat × Nat)) : Memory.wf (releasePart s core dies part).mem.frames = true :=
  wf_refit (wf_cleanLines _ (by simpa using h))
theorem wf_syncSys {s : State} (h : Memory.wf s.mem.frames = true) : Memory.wf (syncSys s).mem.frames = true :=
  wf_refit (wf_cleanLines _ (by simpa using h))
theorem wf_acquirePart {s : State} (h : Memory.wf s.mem.frames = true) (core : Nat) (part : Option (Nat × Nat)) :
    Memory.wf (acquirePart s core part).mem.frames = true := wf_refit (by simpa using h)
theorem wf_acquireAt {s : State} (h : Memory.wf s.mem.frames = true) (core scope : Nat) :
    Memory.wf (acquireAt s core scope).mem.frames = true := by
  unfold acquireAt
  split_ifs
  · exact h
  · exact h
theorem wf_pushLine {s : State} (h : Memory.wf s.mem.frames = true) (core ia hset : Nat) :
    Memory.wf (pushLine s core ia hset).mem.frames = true := by
  unfold pushLine
  refine wf_refit ?_
  dsimp only [State.setMem]
  split
  · exact wf_cleanLine (by simpa using h) _ _
  · simpa using h
theorem wf_putEntry {s : State} (h : Memory.wf s.mem.frames = true) (pa e : Nat) :
    Memory.wf (putEntry s pa e).mem.frames = true := wf_physWrite h pa _
theorem wf_putLeaf {s : State} (h : Memory.wf s.mem.frames = true) (pa e ia sh : Nat) :
    Memory.wf (putLeaf s pa e ia sh).mem.frames = true := wf_putEntry h pa e
/-- A performed access keeps the canonical form if the frames it wrote have it. -/
theorem finish_done (s : State) (ia n : Nat) (d : Do) (r : Mem × Found) :
    ∃ t, finish s ia n d r = .done t r.2 ∧ t.mem.frames = r.1.frames := by
  refine ⟨_, rfl, ?_⟩
  dsimp only [State.setMem]
  split_ifs <;> rfl

end Sys2Proof.Laws
end

