-- ==== Sys2Proof/Laws/Faults.lean ====
section
/-! SUPPORT. What posting a record, parking, ending and terminating can change, and that each keeps memory's canonical
form. -/
namespace Sys2Proof.Laws
open Sys2Proof.Machine

/-! Posting. -/

/-- A record without an owner resolves nothing. -/
@[simp] theorem resolveOwner_none {s : State} {r : Rec} (h : r.owner = none) : resolveOwner s r = s := by
  simp [resolveOwner, h]
/-- Resolving changes the gangs alone. -/
theorem resolveOwner_eq (s : State) (r : Rec) : ∃ g, resolveOwner s r = { s with gangs := g } := by
  unfold resolveOwner; split <;> exact ⟨_, rfl⟩
@[simp] theorem resolveOwner_mem (s : State) (r : Rec) : (resolveOwner s r).mem = s.mem := by
  obtain ⟨g, h⟩ := resolveOwner_eq s r; rw [h]
/-- Asking the host for what lies in a record's way changes the memory's marks and the messages to the host alone. -/
theorem askRec_eq (s : State) (c : Ctx) : ∃ k h, askRec s c = { s with mem := { s.mem with snooping := k }, host := h } := by
  unfold askRec
  split
  · exact askHalf_eq s _
  · exact ⟨_, _, rfl⟩
/-- Writing a record stores its value at the queue's tail, and changes contexts, messages, and gangs by the owner's
resolvable mark. -/
theorem writeRec_eq (s : State) (cid : Nat) (c : Ctx) (r : Rec) :
    ∃ g cs x, (r.owner = none → g = s.gangs) ∧ writeRec s cid c r = { s with
      gangs := g, ctxs := cs, msix := x
      mem := physWrite s.mem (fqAddr c c.fqtail.toNat)
        (toBytes 64 (r.value cid c.fqtail.toNat (1 - c.fqtail.toNat / 2 ^ fqLog c % 2))) } := by
  unfold writeRec
  extract_lets n v s₁ fire s₂ s₃
  have hg : ∃ g, (r.owner = none → g = s₃.gangs) ∧ resolveOwner s₃ r = { s₃ with gangs := g } := by
    cases h : r.owner with
    | none => exact ⟨_, fun _ => rfl, by rw [resolveOwner_none h]⟩
    | some p =>
      obtain ⟨g, e⟩ := resolveOwner_eq s₃ r
      exact ⟨g, fun h' => (Option.some_ne_none p h').elim, e⟩
  obtain ⟨g, hn, h⟩ := hg
  rw [h]
  have h3 : s₃.gangs = s.gangs := by
    cases hf : fire <;>
      simp only [s₃, s₂, s₁, hf, if_true, Bool.false_eq_true, if_false, State.setMem, State.adjCtx, sendMsix]
  rw [h3] at hn
  clear h h3
  cases hf : fire <;>
    simp only [s₃, s₂, s₁, hf, if_true, Bool.false_eq_true, if_false, State.setMem, State.adjCtx, sendMsix] <;>
    exact ⟨g, _, _, hn, rfl⟩
theorem dropRec_eq (s : State) (cid : Nat) (r : Rec) : ∃ g cs, dropRec s cid r = { s with gangs := g, ctxs := cs } := by
  unfold dropRec
  extract_lets s₁
  obtain ⟨g, h⟩ := resolveOwner_eq s₁ r
  exact ⟨_, _, h⟩
/-- Posting does one of four things, with the record's time and socket filled in: it resolves the record's owner (no
context), writes the record, holds it pending and asks the host for what lies in its way, or drops it. -/
theorem postRec_cases (s : State) (cid : Nat) (r : Rec) (P : State → Prop)
    (hn : ∀ t k, P (resolveOwner s { r with time := t, sock := k }))
    (hw : ∀ c t k, P (writeRec s cid c { r with time := t, sock := k })) (ha : ∀ c f, P ((askRec s c).adjCtx cid f))
    (hd : ∀ t k, P (dropRec s cid { r with time := t, sock := k })) : P (postRec s cid r) := by
  unfold postRec
  cases smFind s.ctxs cid with
  | none => exact hn _ _
  | some c =>
    show P (if _ then _ else if _ then _ else _)
    by_cases h1 : (c.pending.isEmpty && fqTakes s c) = true
    · rw [if_pos h1]; exact hw _ _ _
    · rw [if_neg h1]
      by_cases h2 : c.pending.length < 8 + fqRoom c
      · rw [if_pos h2]; exact ha _ _
      · rw [if_neg h2]; exact hd _ _
/-- Posting changes contexts, memory, messages to the host and of interrupts, and gangs by a resolvable mark, and nothing
else. -/
theorem postRec_eq (s : State) (cid : Nat) (r : Rec) :
    ∃ g cs m h x, postRec s cid r = { s with gangs := g, ctxs := cs, mem := m, host := h, msix := x } := by
  refine postRec_cases s cid r (fun t => ∃ g cs m h x, t = { s with gangs := g, ctxs := cs, mem := m, host := h, msix := x })
    (fun _ _ => ?_) (fun c _ _ => ?_) (fun c f => ?_) fun _ _ => ?_
  · obtain ⟨g, h⟩ := resolveOwner_eq s _
    exact ⟨_, _, _, _, _, h⟩
  · obtain ⟨g, cs, x, _, h⟩ := writeRec_eq s cid c _
    exact ⟨_, _, _, _, _, h⟩
  · obtain ⟨k, x, h⟩ := askRec_eq s c
    rw [h]
    exact ⟨_, _, _, _, _, rfl⟩
  · obtain ⟨g, cs, h⟩ := dropRec_eq s cid _
    exact ⟨_, _, _, _, _, h⟩
theorem writeRec_gangs {s : State} {r : Rec} (h : r.owner = none) (cid : Nat) (c : Ctx) :
    (writeRec s cid c r).gangs = s.gangs := by
  obtain ⟨g, cs, x, hn, e⟩ := writeRec_eq s cid c r
  rw [e]; exact hn h
theorem dropRec_gangs {s : State} {r : Rec} (h : r.owner = none) (cid : Nat) : (dropRec s cid r).gangs = s.gangs := by
  unfold dropRec
  extract_lets s₁
  rw [resolveOwner_none h]
  simp [s₁]
/-- Posting a record without an owner leaves the gangs. -/
theorem postRec_gangs {s : State} {r : Rec} (h : r.owner = none) (cid : Nat) : (postRec s cid r).gangs = s.gangs :=
  postRec_cases s cid r (fun t => t.gangs = s.gangs) (fun t k => by rw [resolveOwner_none (r := { r with time := t, sock := k }) h])
    (fun c t k => writeRec_gangs (r := { r with time := t, sock := k }) h _ _)
    (fun c f => by obtain ⟨k, x, e⟩ := askRec_eq s c; rw [e]; rfl)
    fun t k => dropRec_gangs (r := { r with time := t, sock := k }) h _
theorem wf_writeRec {s : State} (h : Memory.wf s.mem.frames = true) (cid : Nat) (c : Ctx) (r : Rec) :
    Memory.wf (writeRec s cid c r).mem.frames = true := by
  obtain ⟨g, cs, x, _, e⟩ := writeRec_eq s cid c r
  rw [e]; exact wf_physWrite h _ _
theorem wf_postRec {s : State} (h : Memory.wf s.mem.frames = true) (cid : Nat) (r : Rec) :
    Memory.wf (postRec s cid r).mem.frames = true := by
  refine postRec_cases s cid r (fun t => Memory.wf t.mem.frames = true) (fun _ _ => by rw [resolveOwner_mem]; exact h)
    (fun c _ _ => wf_writeRec h _ _ _) (fun c f => by obtain ⟨k, x, e⟩ := askRec_eq s c; rw [e]; exact h) fun _ _ => ?_
  obtain ⟨g, cs, e⟩ := dropRec_eq s cid _
  rw [e]
  exact h
theorem wf_drainRecs : ∀ (n : Nat) {s : State} (_ : Memory.wf s.mem.frames = true) (cid : Nat),
    Memory.wf (drainRecs n s cid).mem.frames = true
  | 0, _, h, _ => h
  | n + 1, s, h, cid => by
    unfold drainRecs
    split
    · exact h
    · split
      · exact h
      · split_ifs
        · exact wf_drainRecs n (wf_writeRec (s := s.adjCtx cid _) h _ _ _) cid
        · obtain ⟨k, x, e⟩ := askRec_eq s _
          rw [e]; exact h

/-! Ending. -/

/-- Closing an operation changes its gang's flags and the operations alone. -/
theorem closeOp_eq (s : State) (k : Nat) : ∃ g o, closeOp s k = { s with gangs := g, ops := o } := by
  unfold closeOp; split <;> exact ⟨_, _, rfl⟩
theorem abandonParked_eq (s : State) (gid : Nat) : ∃ g o, abandonParked s gid = { s with gangs := g, ops := o } :=
  foldl_keeps (fun t : State => ∃ g o, t = { s with gangs := g, ops := o }) _ _ _ ⟨_, _, rfl⟩ fun t ⟨g, o, ht⟩ k _ => by
    split
    · split_ifs
      · obtain ⟨g', o', h⟩ := closeOp_eq t k
        exact ⟨g', o', by rw [h, ht]⟩
      · exact ⟨g, o, ht⟩
    · exact ⟨g, o, ht⟩
theorem endGang_eq (s : State) (gid : Nat) (why : Ending) : ∃ g o, endGang s gid why = { s with gangs := g, ops := o } := by
  unfold endGang
  obtain ⟨g, o, h⟩ := abandonParked_eq (s.adjGang gid fun g => { g with ending := some (g.ending.getD why) }) gid
  exact ⟨g, o, h⟩
/-- Ending a workgroup changes gangs, operations, workgroups and launches alone. -/
theorem endGroup_eq (s : State) (gid : Nat) :
    ∃ g o w l, endGroup s gid = { s with gangs := g, ops := o, wgs := w, launches := l } := by
  unfold endGroup
  split
  · exact ⟨_, _, _, _, rfl⟩
  · split
    · obtain ⟨g, o, h⟩ := endGang_eq s gid .fault
      exact ⟨_, _, _, _, h⟩
    · refine foldl_keeps (fun t : State => ∃ g o w l, t = { s with gangs := g, ops := o, wgs := w, launches := l })
        _ _ _ ⟨_, _, _, _, rfl⟩ fun t ⟨g, o, w, l, ht⟩ k _ => ?_
      obtain ⟨g', o', h⟩ := endGang_eq t k .fault
      exact ⟨g', o', w, l, by rw [h, ht]⟩
@[simp] theorem endGroup_mem (s : State) (gid : Nat) : (endGroup s gid).mem = s.mem := by
  obtain ⟨_, _, _, _, h⟩ := endGroup_eq s gid
  rw [h]

/-! Taking a fault. -/

/-- A precise-terminated fault changes gangs, operations, workgroups, launches, contexts, memory (its record) and
messages, to the host too, and nothing else. -/
theorem terminate_eq (s : State) (gid : Nat) (code : Code) (pc : B64) (word : B32) (mask : Lanes) (a : B64) :
    ∃ g o w l c m h x, terminate s gid code pc word mask a =
      { s with gangs := g, ops := o, wgs := w, launches := l, ctxs := c, mem := m, host := h, msix := x } := by
  unfold terminate
  split
  · exact ⟨_, _, _, _, _, _, _, _, rfl⟩
  · rename_i g _
    extract_lets s₁
    obtain ⟨a₁, a₂, a₃, a₄, ha⟩ := endGroup_eq (postRec s₁ g.ctx (gangRec g code .terminated pc word mask a)) gid
    obtain ⟨b₁, b₂, b₃, b₄, b₅, hb⟩ := postRec_eq s₁ g.ctx (gangRec g code .terminated pc word mask a)
    have hs : ∃ c, s₁ = { s with ctxs := c } := by
      simp only [s₁]; split <;> exact ⟨_, rfl⟩
    obtain ⟨c, hs⟩ := hs
    exact ⟨a₁, a₂, a₃, a₄, b₂, b₃, b₄, b₅, by rw [ha, hb, hs]⟩
theorem wf_terminate {s : State} (h : Memory.wf s.mem.frames = true) (gid : Nat) (code : Code) (pc : B64) (word : B32)
    (mask : Lanes) (a : B64) : Memory.wf (terminate s gid code pc word mask a).mem.frames = true := by
  unfold terminate
  split
  · exact h
  · rw [endGroup_mem]
    apply wf_postRec
    split <;> exact h
/-- Parking changes gangs, contexts, memory (its record) and messages, to the host too, and nothing else. -/
theorem park_eq (s : State) (gid e : Nat) (code : Code) (kind : ParkKind) (pc : B64) (word : B32) (mask : Lanes) (a : B64) :
    ∃ g c m h x, park s gid e code kind pc word mask a = { s with gangs := g, ctxs := c, mem := m, host := h, msix := x } := by
  unfold park
  split
  · exact ⟨_, _, _, _, _, rfl⟩
  · obtain ⟨g, c, m, h, x, e⟩ := postRec_eq (s.adjFrag gid e _) _ _
    exact ⟨g, c, m, h, x, e⟩
theorem wf_park {s : State} (h : Memory.wf s.mem.frames = true) (gid e : Nat) (code : Code) (kind : ParkKind) (pc : B64)
    (word : B32) (mask : Lanes) (a : B64) : Memory.wf (park s gid e code kind pc word mask a).mem.frames = true := by
  unfold park
  split
  · exact h
  · exact wf_postRec (s := s.adjFrag gid e _) h _ _
/-- A run's fault changes contexts, memory (its record), messages, gangs by no owner, and the run. -/
theorem wf_runFault {s : State} (h : Memory.wf s.mem.frames = true) (r cause : Nat) (pc : B64) (word : B32) (a : B64) :
    Memory.wf (runFault s r cause pc word a).mem.frames = true := by
  unfold runFault
  split
  · exact h
  · exact wf_postRec h _ _

end Sys2Proof.Laws
end

