-- ==== Sys2Proof/Laws/Gang.lean ====
section
/-! SUPPORT. What the register operations of a gang and of a run can change. -/
namespace Sys2Proof.Laws
open Sys2Proof.Machine

theorem gReg_setGReg (g : Gang) (n k : Nat) (x : B64) : gReg (setGReg g n x) k = if n = k then x else gReg g k :=
  smGet_smSet g.g n k x 0
theorem laneReg_setLaneReg (g : Gang) (lane n l k : Nat) (x : B32) (hl : lane < 32) (h : l < 32) :
    laneReg (setLaneReg g lane n x) l k = if n = k ∧ lane = l then x else laneReg g l k := by
  have e : (n * 32 + lane = k * 32 + l) ↔ n = k ∧ lane = l := by omega
  simp only [laneReg, setLaneReg, smGet_smSet, e]
theorem runReg_setRunReg (x : Run) (n k : Nat) (b : B32) : runReg (setRunReg x n b) k = if n = k then b else runReg x k :=
  smGet_smSet x.v n k b 0
/-- Lane predicate 7 is never written. -/
@[simp] theorem setPredLane_seven (g : Gang) (l : Nat) (b : Bool) : setPredLane g l 7 b = g := rfl
/-- Group predicate 7 is never written. -/
@[simp] theorem setQReg_seven (g : Gang) (b : Bool) : setQReg g 7 b = g := rfl
@[simp] theorem qReg_seven (g : Gang) : qReg g 7 = true := rfl
@[simp] theorem predMask_seven (g : Gang) : predMask g 7 = BitVec.allOnes 32 := rfl

@[simp] theorem setGReg_frags (g : Gang) (n : Nat) (x : B64) : (setGReg g n x).frags = g.frags := rfl
@[simp] theorem setQReg_frags (g : Gang) (n : Nat) (b : Bool) : (setQReg g n b).frags = g.frags := by
  unfold setQReg; split_ifs <;> rfl
@[simp] theorem orFpsr_frags (g : Gang) (f : Flags5) : (orFpsr g f).frags = g.frags := rfl

/-- A group predicate write changes the predicates alone. -/
theorem setQReg_eq (g : Gang) (n : Nat) (b : Bool) : setQReg g n b = { g with q := (setQReg g n b).q } := by
  unfold setQReg; split_ifs <;> rfl
/-- A lane predicate write changes the predicates alone. -/
theorem setPredLane_eq (g : Gang) (l n : Nat) (b : Bool) : setPredLane g l n b = { g with p := (setPredLane g l n b).p } := by
  unfold setPredLane; split_ifs <;> rfl

theorem foldl_setLaneReg_eq (l : Nat) (ws : List (Nat × B32)) : ∀ g : Gang,
    ws.foldl (fun g w => setLaneReg g l w.1 w.2) g = { g with v := (ws.foldl (fun g w => setLaneReg g l w.1 w.2) g).v } := by
  induction ws with
  | nil => intro g; rfl
  | cons w ws ih => intro g; simp only [List.foldl_cons]; rw [ih]; rfl
theorem foldl_setPredLane_eq (l : Nat) (ws : List (Nat × Bool)) : ∀ g : Gang,
    ws.foldl (fun g p => setPredLane g l p.1 p.2) g = { g with p := (ws.foldl (fun g p => setPredLane g l p.1 p.2) g).p } := by
  induction ws with
  | nil => intro g; rfl
  | cons w ws ih => intro g; simp only [List.foldl_cons]; rw [ih, setPredLane_eq g]
/-- One lane's results change lane registers and lane predicates alone. -/
theorem applyLane_eq (g : Gang) (l : Nat) (o : LaneOut) :
    applyLane g l o = { g with v := (applyLane g l o).v, p := (applyLane g l o).p } := by
  unfold applyLane; rw [foldl_setPredLane_eq, foldl_setLaneReg_eq]
/-- Every lane's results change lane registers and lane predicates alone. -/
theorem applyLanes_eq (outs : List (Nat × LaneOut)) : ∀ g : Gang,
    outs.foldl (fun g p => applyLane g p.1 p.2) g =
      { g with v := (outs.foldl (fun g p => applyLane g p.1 p.2) g).v
               p := (outs.foldl (fun g p => applyLane g p.1 p.2) g).p } := by
  induction outs with
  | nil => intro g; rfl
  | cons o outs ih => intro g; simp only [List.foldl_cons]; rw [ih, applyLane_eq g]
@[simp] theorem applyLanes_frags (outs : List (Nat × LaneOut)) (g : Gang) :
    (outs.foldl (fun g p => applyLane g p.1 p.2) g).frags = g.frags := by rw [applyLanes_eq]
@[simp] theorem applyLane_frags (g : Gang) (l : Nat) (o : LaneOut) : (applyLane g l o).frags = g.frags := by
  rw [applyLane_eq]

end Sys2Proof.Laws
end

