-- ==== Sys2Proof/Laws/Issue.lean ====
section
/-! SUPPORT. What a word does once its issuer is known: one lemma per shared form of a word. -/
namespace Sys2Proof.Laws
open Sys2Proof.Machine

variable {i : Instr} {s : State} {u : Iss} {r : Nat} {x : Run}

/-- A word that passes the encoding checks does what its fragment's part says. -/
theorem issue_frag (h : Issues i s u) (k : Iss → State → State) (f : Option (Nat → Run → State → State)) :
    issue i s k f = .next (k u s) := by
  have hu : (⟨u.gid, u.e, u.g, u.f, BitVec.ofNat 32 (encode i)⟩ : Iss) = u := by rw [← h.word]
  simp only [issue, h.issuer, h.gang, h.frag, h.legal, h.fits, Bool.and_self, if_true, hu]
/-- A word that passes the encoding checks does what its run's part says. -/
theorem issue_run (h : RunIssues i s r x) (k : Iss → State → State) (f : Nat → Run → State → State) :
    issue i s k (some f) = .next (f r x s) := by
  simp [issue, h.issuer, h.run, h.legal, h.fits]
/-- A word outside the executors' subset faults in a run. -/
theorem issue_run_none (hc : s.cur = .run r) (hr : smFind s.runs r = some x) (k : Iss → State → State) :
    issue i s k none =
      .next (runFault s r (if legal (runForm i) then 0x60 else 1) x.pc (BitVec.ofNat 32 (encode i)) x.anchor) := by
  by_cases h : legal (runForm i) = true <;> simp [issue, hc, hr, h]
/-- A word that fails the encoding checks takes ILLEGAL_INSTR. -/
theorem issue_illegal {gid e : Nat} {g : Gang} {f : Frag} (hc : s.cur = .frag gid e) (hg : smFind s.gangs gid = some g)
    (hf : smFind g.frags e = some f) (hl : legal i = false ∨ fits g.regs g.tilesN g.accsN i = false)
    (k : Iss → State → State) (q : Option (Nat → Run → State → State)) :
    issue i s k q = .next (terminate s gid .illegalInstr f.pc (BitVec.ofNat 32 (encode i)) 0 0) := by
  rcases hl with hl | hl <;> simp [issue, hc, hg, hf, hl]
/-- Every outcome of a word is a next state, or the refusal of a state in which nothing issues. -/
theorem issue_next (k : Iss → State → State) (q : Option (Nat → Run → State → State)) :
    (∃ t, issue i s k q = .next t) ∨ issue i s k q = .refused .noIssuer := by
  unfold issue
  dsimp only
  repeat' split
  all_goals first | exact Or.inl ⟨_, rfl⟩ | exact Or.inr rfl

/-- Moving past a word. -/
theorem adv_eq (h : Issues i s u) : u.adv s = moved u u.g s := by
  simp only [Iss.adv, State.adjFrag, State.adjGang, moved, State.setGang, smAdj_of_find h.gang, smAdj_of_find h.frag]
/-- A change of the gang that keeps its fragments, and moving past the word. -/
theorem adv_adjGang (h : Issues i s u) (F : Gang → Gang) (hF : (F u.g).frags = u.g.frags) :
    u.adv (s.adjGang u.gid F) = moved u (F u.g) s := by
  simp only [Iss.adv, State.adjFrag, State.adjGang, moved, State.setGang, smAdj_of_find h.gang, smAdj_smPut_self, hF,
    smAdj_of_find h.frag]
/-- A group register's write, and moving past the word. -/
theorem setG_eq (h : Issues i s u) (d : Nat) (v : B64) : u.setG d v s = moved u (setGReg u.g d v) s :=
  adv_adjGang h _ rfl
/-- A group predicate's write, and moving past the word. -/
theorem setQ_eq (h : Issues i s u) (d : Nat) (b : Bool) : u.setQ d b s = moved u (setQReg u.g d b) s :=
  adv_adjGang h _ (setQReg_frags _ _ _)

/-- A group word: a false guard only moves on. -/
theorem group_frag (h : Issues i s u) (gd : Guard) (k : Iss → State → State) :
    group i gd s k = .next (if guardQ u.g.q gd then k u s else moved u u.g s) := by
  rw [group, issue_frag h, adv_eq h]
/-- A privileged word in a privileged context. -/
theorem privWord_frag (h : Issues i s u) (hp : PrivCtx s u.g) (gd : Guard) (k : Iss → State → State) :
    privWord i gd s k = .next (if guardQ u.g.q gd then k u s else moved u u.g s) := by
  obtain ⟨c, hc, hv⟩ := hp
  rw [privWord, issue_frag h]
  simp [hc, hv, adv_eq h]
/-- A privileged word in any other context takes ILLEGAL_INSTR, whatever the guard. -/
theorem privWord_illegal (h : Issues i s u) (hp : ¬PrivCtx s u.g) (gd : Guard) (k : Iss → State → State) :
    privWord i gd s k = .next (terminate s u.gid .illegalInstr u.f.pc u.word 0 0) := by
  rw [privWord, issue_frag h]
  rcases hc : smFind s.ctxs u.g.ctx with _ | c
  · simp [Iss.term]
  · have : c.priv = false := by
      by_contra hv
      exact hp ⟨c, hc, by simpa using hv⟩
    simp [this, Iss.term]
/-- A lane word whose lanes do not trap writes every lane's results, ORs the flags in and moves on. -/
theorem laneWord_frag (h : Issues i s u) (gd : Guard) (sub : Bool) (f : LaneIn → LaneOut) :
    laneWord i gd sub s f = .next (finishLanes u (laneOuts u gd f) s) := issue_frag h _ _
theorem finishLanes_ok (h : Issues i s u) (outs : List (Nat × LaneOut))
    (ht : trapLanes u.g.fpcr (outs.map fun p => (p.1, p.2.fl)) = 0) :
    finishLanes u outs s = moved u (orFpsr (outs.foldl (fun g p => applyLane g p.1 p.2) u.g) (orFlags (outs.map fun p => p.2.fl))) s := by
  unfold finishLanes
  simp only [ht, ne_eq, not_true_eq_false, if_false]
  exact adv_adjGang h _ (by simp)
/-- A lane word in an executor's single lane. -/
theorem laneWord_run (h : RunIssues i s r x) (gd : Guard) (f : LaneIn → LaneOut) :
    laneWord i gd true s f =
      .next (movedRun r (if guardQ (runPred x) gd then applyRun x (f (runIn x)) else x) s) := by
  rw [laneWord]
  simp only [if_true]
  rw [issue_run h]
  simp only [State.adjRun, movedRun, smAdj_of_find h.run]
  rfl

end Sys2Proof.Laws
end

