-- ==== Sys2Proof/Laws/PerInstr.lean ====
section
/-! SUPPORT. Per instruction: the word that the encoder gives it fits in 32 bits (an event has no word, and code 0). -/
namespace Sys2Proof.Laws.Coded

section
set_option Elab.async false

/-- The code that the encoder gives is below 2^32. -/
def Statement (i : Instr) : Prop := encode i < 2 ^ 32

theorem nop : Statement .nop := by
  show 0x80e00000 < 4294967296
  decide
theorem bra : ∀ f, Statement (.bra f) := by
  intro f
  show 0x81e00000 + f.toNat < 4294967296
  omega
theorem brq : ∀ p n f, Statement (.brq p n f) := by
  intro p n f
  show 0x82000000 + p.toNat * 2097152 + n.toNat * 1048576 + f.toNat < 4294967296
  omega
theorem brx : ∀ g a, Statement (.brx g a) := by
  intro g a
  show 0x83000000 + encGuard g + a.toNat * 64 < 4294967296
  unfold encGuard; omega
theorem callG : ∀ l f, Statement (.callG l f) := by
  intro l f
  show 0x84000000 + l.toNat * 2097152 + f.toNat < 4294967296
  omega
theorem retG : ∀ g a, Statement (.retG g a) := by
  intro g a
  show 0x85000000 + encGuard g + a.toNat * 64 < 4294967296
  unfold encGuard; omega
theorem exitG : ∀ g, Statement (.exitG g) := by
  intro g
  show 0x86000000 + encGuard g < 4294967296
  unfold encGuard; omega
theorem trapG : ∀ g i, Statement (.trapG g i) := by
  intro g i
  show 0x87000000 + encGuard g + i.toNat < 4294967296
  unfold encGuard; omega
theorem joinat : ∀ f, Statement (.joinat f) := by
  intro f
  show 0x88e00000 + f.toNat < 4294967296
  omega
theorem joinG : ∀ g, Statement (.joinG g) := by
  intro g
  show 0x89000000 + encGuard g < 4294967296
  unfold encGuard; omega
theorem regang : ∀ g, Statement (.regang g) := by
  intro g
  show 0x8a000000 + encGuard g < 4294967296
  unfold encGuard; omega
theorem gfuseRcv : ∀ g d a b, Statement (.gfuseRcv g d a b) := by
  intro g d a b
  show 0x8b000000 + encGuard g + d.toNat * 4096 + a.toNat * 64 + b.toNat < 4294967296
  unfold encGuard; omega
theorem gfuseDon : ∀ g d a b, Statement (.gfuseDon g d a b) := by
  intro g d a b
  show 0x8b040000 + encGuard g + d.toNat * 4096 + a.toNat * 64 + b.toNat < 4294967296
  unfold encGuard; omega
theorem yieldG : ∀ g x y z, Statement (.yieldG g x y z) := by
  intro g x y z
  show 0x8c000000 + encGuard g + x.toNat * 4096 + y.toNat * 64 + z.toNat < 4294967296
  unfold encGuard; omega
theorem pauseG : ∀ n, Statement (.pauseG n) := by
  intro n
  show 0x8d000000 + n.toNat < 4294967296
  omega
theorem idemend : Statement .idemend := by
  show 0x8ee00000 < 4294967296
  decide
theorem gadd : ∀ g d a b, Statement (.gadd g d a b) := by
  intro g d a b
  show 0x90000000 + encGuard g + d.toNat * 4096 + a.toNat * 64 + b.toNat < 4294967296
  unfold encGuard; omega
theorem gsub : ∀ g d a b, Statement (.gsub g d a b) := by
  intro g d a b
  show 0x91000000 + encGuard g + d.toNat * 4096 + a.toNat * 64 + b.toNat < 4294967296
  unfold encGuard; omega
theorem gmul : ∀ g d a b, Statement (.gmul g d a b) := by
  intro g d a b
  show 0x92000000 + encGuard g + d.toNat * 4096 + a.toNat * 64 + b.toNat < 4294967296
  unfold encGuard; omega
theorem gmulh : ∀ g s d a b, Statement (.gmulh g s d a b) := by
  intro g s d a b
  show 0x93000000 + encGuard g + s.toNat * 262144 + d.toNat * 4096 + a.toNat * 64 + b.toNat < 4294967296
  unfold encGuard; omega
theorem gmin : ∀ g s d a b, Statement (.gmin g s d a b) := by
  intro g s d a b
  show 0x94000000 + encGuard g + s.toNat * 262144 + d.toNat * 4096 + a.toNat * 64 + b.toNat < 4294967296
  unfold encGuard; omega
theorem gmax : ∀ g s d a b, Statement (.gmax g s d a b) := by
  intro g s d a b
  show 0x95000000 + encGuard g + s.toNat * 262144 + d.toNat * 4096 + a.toNat * 64 + b.toNat < 4294967296
  unfold encGuard; omega
theorem gmov : ∀ g d a, Statement (.gmov g d a) := by
  intro g d a
  show 0x96000000 + encGuard g + d.toNat * 4096 + a.toNat * 64 < 4294967296
  unfold encGuard; omega
theorem gand : ∀ g d a b, Statement (.gand g d a b) := by
  intro g d a b
  show 0x98000000 + encGuard g + d.toNat * 4096 + a.toNat * 64 + b.toNat < 4294967296
  unfold encGuard; omega
theorem gor : ∀ g d a b, Statement (.gor g d a b) := by
  intro g d a b
  show 0x99000000 + encGuard g + d.toNat * 4096 + a.toNat * 64 + b.toNat < 4294967296
  unfold encGuard; omega
theorem gxor : ∀ g d a b, Statement (.gxor g d a b) := by
  intro g d a b
  show 0x9a000000 + encGuard g + d.toNat * 4096 + a.toNat * 64 + b.toNat < 4294967296
  unfold encGuard; omega
theorem gshl : ∀ g d a b, Statement (.gshl g d a b) := by
  intro g d a b
  show 0x9b000000 + encGuard g + d.toNat * 4096 + a.toNat * 64 + b.toNat < 4294967296
  unfold encGuard; omega
theorem gshr : ∀ g d a b, Statement (.gshr g d a b) := by
  intro g d a b
  show 0x9c000000 + encGuard g + d.toNat * 4096 + a.toNat * 64 + b.toNat < 4294967296
  unfold encGuard; omega
theorem gsar : ∀ g d a b, Statement (.gsar g d a b) := by
  intro g d a b
  show 0x9d000000 + encGuard g + d.toNat * 4096 + a.toNat * 64 + b.toNat < 4294967296
  unfold encGuard; omega
theorem gaddi : ∀ g d i, Statement (.gaddi g d i) := by
  intro g d i
  show 0xa1000000 + encGuard g + d.toNat * 4096 + i.toNat < 4294967296
  unfold encGuard; omega
theorem gandi : ∀ g d i, Statement (.gandi g d i) := by
  intro g d i
  show 0xa2000000 + encGuard g + d.toNat * 4096 + i.toNat < 4294967296
  unfold encGuard; omega
theorem gori : ∀ g d i, Statement (.gori g d i) := by
  intro g d i
  show 0xa3000000 + encGuard g + d.toNat * 4096 + i.toNat < 4294967296
  unfold encGuard; omega
theorem gxori : ∀ g d i, Statement (.gxori g d i) := by
  intro g d i
  show 0xa4000000 + encGuard g + d.toNat * 4096 + i.toNat < 4294967296
  unfold encGuard; omega
theorem gshli : ∀ g d i, Statement (.gshli g d i) := by
  intro g d i
  show 0xa5000000 + encGuard g + d.toNat * 4096 + i.toNat < 4294967296
  unfold encGuard; omega
theorem gshri : ∀ g d i, Statement (.gshri g d i) := by
  intro g d i
  show 0xa6000000 + encGuard g + d.toNat * 4096 + i.toNat < 4294967296
  unfold encGuard; omega
theorem gsari : ∀ g d i, Statement (.gsari g d i) := by
  intro g d i
  show 0xa7000000 + encGuard g + d.toNat * 4096 + i.toNat < 4294967296
  unfold encGuard; omega
theorem gmovi : ∀ d i, Statement (.gmovi d i) := by
  intro d i
  show 0xa8000000 + d.toNat * 262144 + i.toNat < 4294967296
  omega
theorem gmovhi : ∀ d i, Statement (.gmovhi d i) := by
  intro d i
  show 0xa9000000 + d.toNat * 262144 + i.toNat < 4294967296
  omega
theorem gcmp : ∀ g t c q a b, Statement (.gcmp g t c q a b) := by
  intro g t c q a b
  show 0xb0000000 + encGuard g + t.toNat * 262144 + c.toNat * 32768 + q.toNat * 4096 + a.toNat * 64 + b.toNat < 4294967296
  unfold encGuard; omega
theorem qlop : ∀ g m d a b, Statement (.qlop g m d a b) := by
  intro g m d a b
  show 0xb1000000 + encGuard g + m.toNat * 262144 + d.toNat * 4096 + a.toNat * 64 + b.toNat < 4294967296
  unfold encGuard; omega
theorem gsr : ∀ g d s, Statement (.gsr g d s) := by
  intro g d s
  show 0xb2000000 + encGuard g + d.toNat * 4096 + s.toNat * 64 < 4294967296
  unfold encGuard; omega
theorem gsw : ∀ g s a, Statement (.gsw g s a) := by
  intro g s a
  show 0xb3000000 + encGuard g + s.toNat * 4096 + a.toNat * 64 < 4294967296
  unfold encGuard; omega
theorem gfromv : ∀ g t d a b, Statement (.gfromv g t d a b) := by
  intro g t d a b
  show 0xb4000000 + encGuard g + t.toNat * 262144 + d.toNat * 4096 + a.toNat * 64 + b.toNat < 4294967296
  unfold encGuard; omega
theorem greduce : ∀ g o d a t, Statement (.greduce g o d a t) := by
  intro g o d a t
  show 0xb5000000 + encGuard g + o.toNat * 262144 + d.toNat * 4096 + a.toNat * 64 + t.toNat < 4294967296
  unfold encGuard; omega
theorem gldk : ∀ g m d a c, Statement (.gldk g m d a c) := by
  intro g m d a c
  show 0xb6000000 + encGuard g + m.toNat * 262144 + d.toNat * 4096 + a.toNat * 64 + c.toNat < 4294967296
  unfold encGuard; omega
theorem gstk : ∀ g m d a c, Statement (.gstk g m d a c) := by
  intro g m d a c
  show 0xb7000000 + encGuard g + m.toNat * 262144 + d.toNat * 4096 + a.toNat * 64 + c.toNat < 4294967296
  unfold encGuard; omega
theorem tcopy : ∀ g x y z, Statement (.tcopy g x y z) := by
  intro g x y z
  show 0xb8000000 + encGuard g + x.toNat * 4096 + y.toNat * 64 + z.toNat < 4294967296
  unfold encGuard; omega
theorem tcopyg : ∀ g x y z, Statement (.tcopyg g x y z) := by
  intro g x y z
  show 0xb9000000 + encGuard g + x.toNat * 4096 + y.toNat * 64 + z.toNat < 4294967296
  unfold encGuard; omega
theorem barinit : ∀ g x y, Statement (.barinit g x y) := by
  intro g x y
  show 0xba000000 + encGuard g + x.toNat * 4096 + y.toNat * 64 < 4294967296
  unfold encGuard; omega
theorem barexp : ∀ g x y, Statement (.barexp g x y) := by
  intro g x y
  show 0xbb000000 + encGuard g + x.toNat * 4096 + y.toNat * 64 < 4294967296
  unfold encGuard; omega
theorem barexpArv : ∀ g x y, Statement (.barexpArv g x y) := by
  intro g x y
  show 0xbb040000 + encGuard g + x.toNat * 4096 + y.toNat * 64 < 4294967296
  unfold encGuard; omega
theorem bararv : ∀ g x z, Statement (.bararv g x z) := by
  intro g x z
  show 0xbc000000 + encGuard g + x.toNat * 4096 + z.toNat < 4294967296
  unfold encGuard; omega
theorem barwait : ∀ g x y, Statement (.barwait g x y) := by
  intro g x y
  show 0xbd000000 + encGuard g + x.toNat * 4096 + y.toNat * 64 < 4294967296
  unfold encGuard; omega
theorem bartry : ∀ g x y z, Statement (.bartry g x y z) := by
  intro g x y z
  show 0xbe000000 + encGuard g + x.toNat * 4096 + y.toNat * 64 + z.toNat < 4294967296
  unfold encGuard; omega
theorem mma : ∀ g m x k a b, Statement (.mma g m x k a b) := by
  intro g m x k a b
  show 0xc0000000 + encGuard g + m.toNat * 262144 + x.toNat * 4096 + k.toNat * 1024 + a.toNat * 64 + b.toNat < 4294967296
  unfold encGuard; omega
theorem mmag : ∀ g m x k b z, Statement (.mmag g m x k b z) := by
  intro g m x k b z
  show 0xc1000000 + encGuard g + m.toNat * 262144 + x.toNat * 4096 + k.toNat * 1024 + b.toNat * 64 + z.toNat * 2 < 4294967296
  unfold encGuard; omega
theorem mldt : ∀ g m x t z, Statement (.mldt g m x t z) := by
  intro g m x t z
  show 0xc2000000 + encGuard g + m.toNat * 262144 + x.toNat * 4096 + t.toNat * 64 + z.toNat < 4294967296
  unfold encGuard; omega
theorem mstt : ∀ g m x t z, Statement (.mstt g m x t z) := by
  intro g m x t z
  show 0xc3000000 + encGuard g + m.toNat * 262144 + x.toNat * 4096 + t.toNat * 64 + z.toNat < 4294967296
  unfold encGuard; omega
theorem mza : ∀ g k, Statement (.mza g k) := by
  intro g k
  show 0xc4000000 + encGuard g + k.toNat * 1024 < 4294967296
  unfold encGuard; omega
theorem mrdaTile : ∀ g m x k t, Statement (.mrdaTile g m x k t) := by
  intro g m x k t
  show 0xc5000000 + encGuard g + m.toNat * 262144 + x.toNat * 4096 + k.toNat * 1024 + t.toNat * 64 < 4294967296
  unfold encGuard; omega
theorem mrdaScratch : ∀ g m x k z, Statement (.mrdaScratch g m x k z) := by
  intro g m x k z
  show 0xc5000000 + encGuard g + m.toNat * 262144 + x.toNat * 4096 + k.toNat * 1024 + z.toNat < 4294967296
  unfold encGuard; omega
theorem gbind : ∀ g x, Statement (.gbind g x) := by
  intro g x
  show 0xc8000000 + encGuard g + x.toNat * 4096 < 4294967296
  unfold encGuard; omega
theorem gbindN : ∀ g x y, Statement (.gbindN g x y) := by
  intro g x y
  show 0xc8040000 + encGuard g + x.toNat * 4096 + y.toNat * 64 < 4294967296
  unfold encGuard; omega
theorem gbindUn : ∀ g, Statement (.gbindUn g) := by
  intro g
  show 0xc8080000 + encGuard g < 4294967296
  unfold encGuard; omega
theorem gstep : ∀ g x, Statement (.gstep g x) := by
  intro g x
  show 0xc9000000 + encGuard g + x.toNat * 4096 < 4294967296
  unfold encGuard; omega
theorem gwait : ∀ g x y, Statement (.gwait g x y) := by
  intro g x y
  show 0xca000000 + encGuard g + x.toNat * 4096 + y.toNat * 64 < 4294967296
  unfold encGuard; omega
theorem gwaitTry : ∀ g x y z, Statement (.gwaitTry g x y z) := by
  intro g x y z
  show 0xca040000 + encGuard g + x.toNat * 4096 + y.toNat * 64 + z.toNat < 4294967296
  unfold encGuard; omega
theorem bxrun : ∀ g s x y z, Statement (.bxrun g s x y z) := by
  intro g s x y z
  show 0xcc000000 + encGuard g + s.toNat * 262144 + x.toNat * 4096 + y.toNat * 64 + z.toNat * 2 < 4294967296
  unfold encGuard; omega
theorem bxwait : ∀ g x y, Statement (.bxwait g x y) := by
  intro g x y
  show 0xcd000000 + encGuard g + x.toNat * 4096 + y.toNat * 64 < 4294967296
  unfold encGuard; omega
theorem bxwaitTry : ∀ g x y z, Statement (.bxwaitTry g x y z) := by
  intro g x y z
  show 0xcd040000 + encGuard g + x.toNat * 4096 + y.toNat * 64 + z.toNat < 4294967296
  unfold encGuard; omega
theorem rrel : ∀ g x y z, Statement (.rrel g x y z) := by
  intro g x y z
  show 0xd0000000 + encGuard g + x.toNat * 4096 + y.toNat * 64 + z.toNat < 4294967296
  unfold encGuard; omega
theorem rfence : ∀ g, Statement (.rfence g) := by
  intro g
  show 0xd1000000 + encGuard g < 4294967296
  unfold encGuard; omega
theorem rfenceCnt : ∀ g d a, Statement (.rfenceCnt g d a) := by
  intro g d a
  show 0xd1040000 + encGuard g + d.toNat * 4096 + a.toNat * 64 < 4294967296
  unfold encGuard; omega
theorem launchG : ∀ g x y, Statement (.launchG g x y) := by
  intro g x y
  show 0xd4000000 + encGuard g + x.toNat * 4096 + y.toNat * 64 < 4294967296
  unfold encGuard; omega
theorem signalG : ∀ g s x y, Statement (.signalG g s x y) := by
  intro g s x y
  show 0xd5000000 + encGuard g + s.toNat * 262144 + x.toNat * 4096 + y.toNat * 64 < 4294967296
  unfold encGuard; omega
theorem waitge : ∀ g s x y, Statement (.waitge g s x y) := by
  intro g s x y
  show 0xd6000000 + encGuard g + s.toNat * 262144 + x.toNat * 4096 + y.toNat * 64 < 4294967296
  unfold encGuard; omega
theorem fenceG : ∀ g k s, Statement (.fenceG g k s) := by
  intro g k s
  show 0xd7000000 + encGuard g + k.toNat * 262144 + s.toNat < 4294967296
  unfold encGuard; omega
theorem fresolve : ∀ g x y z, Statement (.fresolve g x y z) := by
  intro g x y z
  show 0xf8000000 + encGuard g + x.toNat * 4096 + y.toNat * 64 + z.toNat < 4294967296
  unfold encGuard; omega
theorem rsreset : ∀ g x y z, Statement (.rsreset g x y z) := by
  intro g x y z
  show 0xf9000000 + encGuard g + x.toNat * 4096 + y.toNat * 64 + z.toNat < 4294967296
  unfold encGuard; omega
theorem ctxsave : ∀ g x y z, Statement (.ctxsave g x y z) := by
  intro g x y z
  show 0xfa000000 + encGuard g + x.toNat * 4096 + y.toNat * 64 + z.toNat < 4294967296
  unfold encGuard; omega
theorem ctxload : ∀ g x y z, Statement (.ctxload g x y z) := by
  intro g x y z
  show 0xfb000000 + encGuard g + x.toNat * 4096 + y.toNat * 64 + z.toNat < 4294967296
  unfold encGuard; omega
theorem iadd : ∀ g m d a b, Statement (.iadd g m d a b) := by
  intro g m d a b
  show 0x00000000 + encGuard g + m.toNat * 262144 + d.toNat * 4096 + a.toNat * 64 + b.toNat < 4294967296
  unfold encGuard; omega
theorem isub : ∀ g m d a b, Statement (.isub g m d a b) := by
  intro g m d a b
  show 0x01000000 + encGuard g + m.toNat * 262144 + d.toNat * 4096 + a.toNat * 64 + b.toNat < 4294967296
  unfold encGuard; omega
theorem imul : ∀ g d a b, Statement (.imul g d a b) := by
  intro g d a b
  show 0x02000000 + encGuard g + d.toNat * 4096 + a.toNat * 64 + b.toNat < 4294967296
  unfold encGuard; omega
theorem imulh : ∀ g s d a b, Statement (.imulh g s d a b) := by
  intro g s d a b
  show 0x03000000 + encGuard g + s.toNat * 262144 + d.toNat * 4096 + a.toNat * 64 + b.toNat < 4294967296
  unfold encGuard; omega
theorem imad : ∀ g m d a b, Statement (.imad g m d a b) := by
  intro g m d a b
  show 0x04000000 + encGuard g + m.toNat * 262144 + d.toNat * 4096 + a.toNat * 64 + b.toNat < 4294967296
  unfold encGuard; omega
theorem imin : ∀ g m d a b, Statement (.imin g m d a b) := by
  intro g m d a b
  show 0x05000000 + encGuard g + m.toNat * 262144 + d.toNat * 4096 + a.toNat * 64 + b.toNat < 4294967296
  unfold encGuard; omega
theorem imax : ∀ g m d a b, Statement (.imax g m d a b) := by
  intro g m d a b
  show 0x06000000 + encGuard g + m.toNat * 262144 + d.toNat * 4096 + a.toNat * 64 + b.toNat < 4294967296
  unfold encGuard; omega
theorem iabs : ∀ g m d a, Statement (.iabs g m d a) := by
  intro g m d a
  show 0x07000000 + encGuard g + m.toNat * 262144 + d.toNat * 4096 + a.toNat * 64 < 4294967296
  unfold encGuard; omega
theorem andL : ∀ g w d a b, Statement (.andL g w d a b) := by
  intro g w d a b
  show 0x08000000 + encGuard g + w.toNat * 262144 + d.toNat * 4096 + a.toNat * 64 + b.toNat < 4294967296
  unfold encGuard; omega
theorem orL : ∀ g w d a b, Statement (.orL g w d a b) := by
  intro g w d a b
  show 0x09000000 + encGuard g + w.toNat * 262144 + d.toNat * 4096 + a.toNat * 64 + b.toNat < 4294967296
  unfold encGuard; omega
theorem xorL : ∀ g w d a b, Statement (.xorL g w d a b) := by
  intro g w d a b
  show 0x0a000000 + encGuard g + w.toNat * 262144 + d.toNat * 4096 + a.toNat * 64 + b.toNat < 4294967296
  unfold encGuard; omega
theorem notL : ∀ g w d a, Statement (.notL g w d a) := by
  intro g w d a
  show 0x0b000000 + encGuard g + w.toNat * 262144 + d.toNat * 4096 + a.toNat * 64 < 4294967296
  unfold encGuard; omega
theorem shl : ∀ g w d a b, Statement (.shl g w d a b) := by
  intro g w d a b
  show 0x0c000000 + encGuard g + w.toNat * 262144 + d.toNat * 4096 + a.toNat * 64 + b.toNat < 4294967296
  unfold encGuard; omega
theorem shr : ∀ g w d a b, Statement (.shr g w d a b) := by
  intro g w d a b
  show 0x0d000000 + encGuard g + w.toNat * 262144 + d.toNat * 4096 + a.toNat * 64 + b.toNat < 4294967296
  unfold encGuard; omega
theorem sar : ∀ g w d a b, Statement (.sar g w d a b) := by
  intro g w d a b
  show 0x0e000000 + encGuard g + w.toNat * 262144 + d.toNat * 4096 + a.toNat * 64 + b.toNat < 4294967296
  unfold encGuard; omega
theorem mov : ∀ g w d a, Statement (.mov g w d a) := by
  intro g w d a
  show 0x0f000000 + encGuard g + w.toNat * 262144 + d.toNat * 4096 + a.toNat * 64 < 4294967296
  unfold encGuard; omega
theorem bfe : ∀ g s d a b, Statement (.bfe g s d a b) := by
  intro g s d a b
  show 0x10000000 + encGuard g + s.toNat * 262144 + d.toNat * 4096 + a.toNat * 64 + b.toNat < 4294967296
  unfold encGuard; omega
theorem bfi : ∀ g d a b, Statement (.bfi g d a b) := by
  intro g d a b
  show 0x11000000 + encGuard g + d.toNat * 4096 + a.toNat * 64 + b.toNat < 4294967296
  unfold encGuard; omega
theorem popc : ∀ g w d a, Statement (.popc g w d a) := by
  intro g w d a
  show 0x12000000 + encGuard g + w.toNat * 262144 + d.toNat * 4096 + a.toNat * 64 < 4294967296
  unfold encGuard; omega
theorem clz : ∀ g w d a, Statement (.clz g w d a) := by
  intro g w d a
  show 0x13000000 + encGuard g + w.toNat * 262144 + d.toNat * 4096 + a.toNat * 64 < 4294967296
  unfold encGuard; omega
theorem brev : ∀ g w d a, Statement (.brev g w d a) := by
  intro g w d a
  show 0x14000000 + encGuard g + w.toNat * 262144 + d.toNat * 4096 + a.toNat * 64 < 4294967296
  unfold encGuard; omega
theorem sel : ∀ p n w d a b, Statement (.sel p n w d a b) := by
  intro p n w d a b
  show 0x15000000 + p.toNat * 2097152 + n.toNat * 1048576 + w.toNat * 262144 + d.toNat * 4096 + a.toNat * 64 + b.toNat < 4294967296
  omega
theorem isetp : ∀ g t c q a b, Statement (.isetp g t c q a b) := by
  intro g t c q a b
  show 0x16000000 + encGuard g + t.toNat * 262144 + c.toNat * 32768 + q.toNat * 4096 + a.toNat * 64 + b.toNat < 4294967296
  unfold encGuard; omega
theorem iadd64 : ∀ g m d a b, Statement (.iadd64 g m d a b) := by
  intro g m d a b
  show 0x17000000 + encGuard g + m.toNat * 262144 + d.toNat * 4096 + a.toNat * 64 + b.toNat < 4294967296
  unfold encGuard; omega
theorem isub64 : ∀ g m d a b, Statement (.isub64 g m d a b) := by
  intro g m d a b
  show 0x18000000 + encGuard g + m.toNat * 262144 + d.toNat * 4096 + a.toNat * 64 + b.toNat < 4294967296
  unfold encGuard; omega
theorem iaddi : ∀ g d i, Statement (.iaddi g d i) := by
  intro g d i
  show 0x19000000 + encGuard g + d.toNat * 4096 + i.toNat < 4294967296
  unfold encGuard; omega
theorem imuli : ∀ g d i, Statement (.imuli g d i) := by
  intro g d i
  show 0x1a000000 + encGuard g + d.toNat * 4096 + i.toNat < 4294967296
  unfold encGuard; omega
theorem andi : ∀ g d i, Statement (.andi g d i) := by
  intro g d i
  show 0x1b000000 + encGuard g + d.toNat * 4096 + i.toNat < 4294967296
  unfold encGuard; omega
theorem ori : ∀ g d i, Statement (.ori g d i) := by
  intro g d i
  show 0x1c000000 + encGuard g + d.toNat * 4096 + i.toNat < 4294967296
  unfold encGuard; omega
theorem xori : ∀ g d i, Statement (.xori g d i) := by
  intro g d i
  show 0x1d000000 + encGuard g + d.toNat * 4096 + i.toNat < 4294967296
  unfold encGuard; omega
theorem shli : ∀ g d i, Statement (.shli g d i) := by
  intro g d i
  show 0x1e000000 + encGuard g + d.toNat * 4096 + i.toNat < 4294967296
  unfold encGuard; omega
theorem shri : ∀ g d i, Statement (.shri g d i) := by
  intro g d i
  show 0x1f000000 + encGuard g + d.toNat * 4096 + i.toNat < 4294967296
  unfold encGuard; omega
theorem sari : ∀ g d i, Statement (.sari g d i) := by
  intro g d i
  show 0x20000000 + encGuard g + d.toNat * 4096 + i.toNat < 4294967296
  unfold encGuard; omega
theorem movi : ∀ d i, Statement (.movi d i) := by
  intro d i
  show 0x21000000 + d.toNat * 262144 + i.toNat < 4294967296
  omega
theorem movhi : ∀ d i, Statement (.movhi d i) := by
  intro d i
  show 0x22000000 + d.toNat * 262144 + i.toNat < 4294967296
  omega
theorem plop : ∀ g m d a b, Statement (.plop g m d a b) := by
  intro g m d a b
  show 0x24000000 + encGuard g + m.toNat * 262144 + d.toNat * 4096 + a.toNat * 64 + b.toNat < 4294967296
  unfold encGuard; omega
theorem pmovTov : ∀ g d, Statement (.pmovTov g d) := by
  intro g d
  show 0x25000000 + encGuard g + d.toNat * 4096 < 4294967296
  unfold encGuard; omega
theorem pmovFromv : ∀ g a, Statement (.pmovFromv g a) := by
  intro g a
  show 0x25040000 + encGuard g + a.toNat * 64 < 4294967296
  unfold encGuard; omega
theorem pmovFromq : ∀ g d a, Statement (.pmovFromq g d a) := by
  intro g d a
  show 0x25080000 + encGuard g + d.toNat * 4096 + a.toNat * 64 < 4294967296
  unfold encGuard; omega
theorem faddF32 : ∀ g m d a b, Statement (.faddF32 g m d a b) := by
  intro g m d a b
  show 0x28000000 + encGuard g + m.toNat * 262144 + d.toNat * 4096 + a.toNat * 64 + b.toNat < 4294967296
  unfold encGuard; omega
theorem fsubF32 : ∀ g m d a b, Statement (.fsubF32 g m d a b) := by
  intro g m d a b
  show 0x29000000 + encGuard g + m.toNat * 262144 + d.toNat * 4096 + a.toNat * 64 + b.toNat < 4294967296
  unfold encGuard; omega
theorem fmulF32 : ∀ g m d a b, Statement (.fmulF32 g m d a b) := by
  intro g m d a b
  show 0x2a000000 + encGuard g + m.toNat * 262144 + d.toNat * 4096 + a.toNat * 64 + b.toNat < 4294967296
  unfold encGuard; omega
theorem ffmaF32 : ∀ g m d a b, Statement (.ffmaF32 g m d a b) := by
  intro g m d a b
  show 0x2b000000 + encGuard g + m.toNat * 262144 + d.toNat * 4096 + a.toNat * 64 + b.toNat < 4294967296
  unfold encGuard; omega
theorem fminF32 : ∀ g f d a b, Statement (.fminF32 g f d a b) := by
  intro g f d a b
  show 0x2c000000 + encGuard g + f.toNat * 262144 + d.toNat * 4096 + a.toNat * 64 + b.toNat < 4294967296
  unfold encGuard; omega
theorem fmaxF32 : ∀ g f d a b, Statement (.fmaxF32 g f d a b) := by
  intro g f d a b
  show 0x2d000000 + encGuard g + f.toNat * 262144 + d.toNat * 4096 + a.toNat * 64 + b.toNat < 4294967296
  unfold encGuard; omega
theorem fdivF32 : ∀ g m d a b, Statement (.fdivF32 g m d a b) := by
  intro g m d a b
  show 0x2e000000 + encGuard g + m.toNat * 262144 + d.toNat * 4096 + a.toNat * 64 + b.toNat < 4294967296
  unfold encGuard; omega
theorem fsqrtF32 : ∀ g m d a f, Statement (.fsqrtF32 g m d a f) := by
  intro g m d a f
  show 0x2f000000 + encGuard g + m.toNat * 262144 + d.toNat * 4096 + a.toNat * 64 + f.toNat < 4294967296
  unfold encGuard; omega
theorem frcpaF32 : ∀ g f d a, Statement (.frcpaF32 g f d a) := by
  intro g f d a
  show 0x30000000 + encGuard g + f.toNat * 262144 + d.toNat * 4096 + a.toNat * 64 < 4294967296
  unfold encGuard; omega
theorem frsqaF32 : ∀ g f d a, Statement (.frsqaF32 g f d a) := by
  intro g f d a
  show 0x31000000 + encGuard g + f.toNat * 262144 + d.toNat * 4096 + a.toNat * 64 < 4294967296
  unfold encGuard; omega
theorem fsetpF32 : ∀ g f c q a b, Statement (.fsetpF32 g f c q a b) := by
  intro g f c q a b
  show 0x32000000 + encGuard g + f.toNat * 262144 + c.toNat * 32768 + q.toNat * 4096 + a.toNat * 64 + b.toNat < 4294967296
  unfold encGuard; omega
theorem fclassF32 : ∀ g f d a, Statement (.fclassF32 g f d a) := by
  intro g f d a
  show 0x33000000 + encGuard g + f.toNat * 262144 + d.toNat * 4096 + a.toNat * 64 < 4294967296
  unfold encGuard; omega
theorem faddF64 : ∀ g m d a b, Statement (.faddF64 g m d a b) := by
  intro g m d a b
  show 0x38000000 + encGuard g + m.toNat * 262144 + d.toNat * 4096 + a.toNat * 64 + b.toNat < 4294967296
  unfold encGuard; omega
theorem fsubF64 : ∀ g m d a b, Statement (.fsubF64 g m d a b) := by
  intro g m d a b
  show 0x39000000 + encGuard g + m.toNat * 262144 + d.toNat * 4096 + a.toNat * 64 + b.toNat < 4294967296
  unfold encGuard; omega
theorem fmulF64 : ∀ g m d a b, Statement (.fmulF64 g m d a b) := by
  intro g m d a b
  show 0x3a000000 + encGuard g + m.toNat * 262144 + d.toNat * 4096 + a.toNat * 64 + b.toNat < 4294967296
  unfold encGuard; omega
theorem ffmaF64 : ∀ g m d a b, Statement (.ffmaF64 g m d a b) := by
  intro g m d a b
  show 0x3b000000 + encGuard g + m.toNat * 262144 + d.toNat * 4096 + a.toNat * 64 + b.toNat < 4294967296
  unfold encGuard; omega
theorem fminF64 : ∀ g d a b, Statement (.fminF64 g d a b) := by
  intro g d a b
  show 0x3c000000 + encGuard g + d.toNat * 4096 + a.toNat * 64 + b.toNat < 4294967296
  unfold encGuard; omega
theorem fmaxF64 : ∀ g d a b, Statement (.fmaxF64 g d a b) := by
  intro g d a b
  show 0x3d000000 + encGuard g + d.toNat * 4096 + a.toNat * 64 + b.toNat < 4294967296
  unfold encGuard; omega
theorem fdivF64 : ∀ g m d a b, Statement (.fdivF64 g m d a b) := by
  intro g m d a b
  show 0x3e000000 + encGuard g + m.toNat * 262144 + d.toNat * 4096 + a.toNat * 64 + b.toNat < 4294967296
  unfold encGuard; omega
theorem fsqrtF64 : ∀ g m d a, Statement (.fsqrtF64 g m d a) := by
  intro g m d a
  show 0x3f000000 + encGuard g + m.toNat * 262144 + d.toNat * 4096 + a.toNat * 64 < 4294967296
  unfold encGuard; omega
theorem frcpaF64 : ∀ g d a, Statement (.frcpaF64 g d a) := by
  intro g d a
  show 0x40000000 + encGuard g + d.toNat * 4096 + a.toNat * 64 < 4294967296
  unfold encGuard; omega
theorem frsqaF64 : ∀ g d a, Statement (.frsqaF64 g d a) := by
  intro g d a
  show 0x41000000 + encGuard g + d.toNat * 4096 + a.toNat * 64 < 4294967296
  unfold encGuard; omega
theorem fsetpF64 : ∀ g c q a b, Statement (.fsetpF64 g c q a b) := by
  intro g c q a b
  show 0x42000000 + encGuard g + c.toNat * 32768 + q.toNat * 4096 + a.toNat * 64 + b.toNat < 4294967296
  unfold encGuard; omega
theorem fclassF64 : ∀ g d a, Statement (.fclassF64 g d a) := by
  intro g d a
  show 0x43000000 + encGuard g + d.toNat * 4096 + a.toNat * 64 < 4294967296
  unfold encGuard; omega
theorem cvt : ∀ g m d a b, Statement (.cvt g m d a b) := by
  intro g m d a b
  show 0x44000000 + encGuard g + m.toNat * 262144 + d.toNat * 4096 + a.toNat * 64 + b.toNat < 4294967296
  unfold encGuard; omega
theorem cvtblk : ∀ g l d a s, Statement (.cvtblk g l d a s) := by
  intro g l d a s
  show 0x45000000 + encGuard g + l.toNat * 262144 + d.toNat * 4096 + a.toNat * 64 + s.toNat < 4294967296
  unfold encGuard; omega
theorem cvtblkX : ∀ g l d a b, Statement (.cvtblkX g l d a b) := by
  intro g l d a b
  show 0x45080000 + encGuard g + l.toNat * 262144 + d.toNat * 4096 + a.toNat * 64 + b.toNat < 4294967296
  unfold encGuard; omega
theorem cvtsat : ∀ g m d a b, Statement (.cvtsat g m d a b) := by
  intro g m d a b
  show 0x46000000 + encGuard g + m.toNat * 262144 + d.toNat * 4096 + a.toNat * 64 + b.toNat < 4294967296
  unfold encGuard; omega
theorem faddF16x2 : ∀ g m d a b, Statement (.faddF16x2 g m d a b) := by
  intro g m d a b
  show 0x48000000 + encGuard g + m.toNat * 262144 + d.toNat * 4096 + a.toNat * 64 + b.toNat < 4294967296
  unfold encGuard; omega
theorem fmulF16x2 : ∀ g m d a b, Statement (.fmulF16x2 g m d a b) := by
  intro g m d a b
  show 0x49000000 + encGuard g + m.toNat * 262144 + d.toNat * 4096 + a.toNat * 64 + b.toNat < 4294967296
  unfold encGuard; omega
theorem ffmaF16x2 : ∀ g m d a b, Statement (.ffmaF16x2 g m d a b) := by
  intro g m d a b
  show 0x4a000000 + encGuard g + m.toNat * 262144 + d.toNat * 4096 + a.toNat * 64 + b.toNat < 4294967296
  unfold encGuard; omega
theorem fminF16x2 : ∀ g f d a b, Statement (.fminF16x2 g f d a b) := by
  intro g f d a b
  show 0x4b000000 + encGuard g + f.toNat * 262144 + d.toNat * 4096 + a.toNat * 64 + b.toNat < 4294967296
  unfold encGuard; omega
theorem fmaxF16x2 : ∀ g f d a b, Statement (.fmaxF16x2 g f d a b) := by
  intro g f d a b
  show 0x4c000000 + encGuard g + f.toNat * 262144 + d.toNat * 4096 + a.toNat * 64 + b.toNat < 4294967296
  unfold encGuard; omega
theorem fsetpF16x2 : ∀ g m c q a b, Statement (.fsetpF16x2 g m c q a b) := by
  intro g m c q a b
  show 0x4d000000 + encGuard g + m.toNat * 262144 + c.toNat * 32768 + q.toNat * 4096 + a.toNat * 64 + b.toNat < 4294967296
  unfold encGuard; omega
theorem faddBf16x2 : ∀ g m d a b, Statement (.faddBf16x2 g m d a b) := by
  intro g m d a b
  show 0x50000000 + encGuard g + m.toNat * 262144 + d.toNat * 4096 + a.toNat * 64 + b.toNat < 4294967296
  unfold encGuard; omega
theorem fmulBf16x2 : ∀ g m d a b, Statement (.fmulBf16x2 g m d a b) := by
  intro g m d a b
  show 0x51000000 + encGuard g + m.toNat * 262144 + d.toNat * 4096 + a.toNat * 64 + b.toNat < 4294967296
  unfold encGuard; omega
theorem ffmaBf16x2 : ∀ g m d a b, Statement (.ffmaBf16x2 g m d a b) := by
  intro g m d a b
  show 0x52000000 + encGuard g + m.toNat * 262144 + d.toNat * 4096 + a.toNat * 64 + b.toNat < 4294967296
  unfold encGuard; omega
theorem fminBf16x2 : ∀ g d a b, Statement (.fminBf16x2 g d a b) := by
  intro g d a b
  show 0x53000000 + encGuard g + d.toNat * 4096 + a.toNat * 64 + b.toNat < 4294967296
  unfold encGuard; omega
theorem fmaxBf16x2 : ∀ g d a b, Statement (.fmaxBf16x2 g d a b) := by
  intro g d a b
  show 0x54000000 + encGuard g + d.toNat * 4096 + a.toNat * 64 + b.toNat < 4294967296
  unfold encGuard; omega
theorem fsetpBf16x2 : ∀ g m c q a b, Statement (.fsetpBf16x2 g m c q a b) := by
  intro g m c q a b
  show 0x55000000 + encGuard g + m.toNat * 262144 + c.toNat * 32768 + q.toNat * 4096 + a.toNat * 64 + b.toNat < 4294967296
  unfold encGuard; omega
theorem vote : ∀ g m d a, Statement (.vote g m d a) := by
  intro g m d a
  show 0x58000000 + encGuard g + m.toNat * 262144 + d.toNat * 4096 + a.toNat * 64 < 4294967296
  unfold encGuard; omega
theorem voteBallot : ∀ g d a, Statement (.voteBallot g d a) := by
  intro g d a
  show 0x58080000 + encGuard g + d.toNat * 4096 + a.toNat * 64 < 4294967296
  unfold encGuard; omega
theorem shfl : ∀ g m d a b, Statement (.shfl g m d a b) := by
  intro g m d a b
  show 0x59000000 + encGuard g + m.toNat * 262144 + d.toNat * 4096 + a.toNat * 64 + b.toNat < 4294967296
  unfold encGuard; omega
theorem vfromg : ∀ g m d a, Statement (.vfromg g m d a) := by
  intro g m d a
  show 0x5a000000 + encGuard g + m.toNat * 262144 + d.toNat * 4096 + a.toNat * 64 < 4294967296
  unfold encGuard; omega
theorem lsr : ∀ g d s, Statement (.lsr g d s) := by
  intro g d s
  show 0x5b000000 + encGuard g + d.toNat * 4096 + s.toNat * 64 < 4294967296
  unfold encGuard; omega
theorem dbr : ∀ p n f, Statement (.dbr p n f) := by
  intro p n f
  show 0x5c000000 + p.toNat * 2097152 + n.toNat * 1048576 + f.toNat < 4294967296
  omega
theorem exitl : ∀ g, Statement (.exitl g) := by
  intro g
  show 0x5d000000 + encGuard g < 4294967296
  unfold encGuard; omega
theorem ldg : ∀ g m d a c, Statement (.ldg g m d a c) := by
  intro g m d a c
  show 0x60000000 + encGuard g + m.toNat * 262144 + d.toNat * 4096 + a.toNat * 64 + c.toNat < 4294967296
  unfold encGuard; omega
theorem ldgh : ∀ g s d a c, Statement (.ldgh g s d a c) := by
  intro g s d a c
  show 0x61000000 + encGuard g + s.toNat * 262144 + d.toNat * 4096 + a.toNat * 64 + c.toNat < 4294967296
  unfold encGuard; omega
theorem ldgb : ∀ g s d a c, Statement (.ldgb g s d a c) := by
  intro g s d a c
  show 0x62000000 + encGuard g + s.toNat * 262144 + d.toNat * 4096 + a.toNat * 64 + c.toNat < 4294967296
  unfold encGuard; omega
theorem stg : ∀ g m d a c, Statement (.stg g m d a c) := by
  intro g m d a c
  show 0x63000000 + encGuard g + m.toNat * 262144 + d.toNat * 4096 + a.toNat * 64 + c.toNat < 4294967296
  unfold encGuard; omega
theorem stgh : ∀ g d a c, Statement (.stgh g d a c) := by
  intro g d a c
  show 0x64000000 + encGuard g + d.toNat * 4096 + a.toNat * 64 + c.toNat < 4294967296
  unfold encGuard; omega
theorem stgb : ∀ g d a c, Statement (.stgb g d a c) := by
  intro g d a c
  show 0x65000000 + encGuard g + d.toNat * 4096 + a.toNat * 64 + c.toNat < 4294967296
  unfold encGuard; omega
theorem lda : ∀ g w d a s, Statement (.lda g w d a s) := by
  intro g w d a s
  show 0x66000000 + encGuard g + w.toNat * 262144 + d.toNat * 4096 + a.toNat * 64 + s.toNat < 4294967296
  unfold encGuard; omega
theorem stl : ∀ g w d a s, Statement (.stl g w d a s) := by
  intro g w d a s
  show 0x67000000 + encGuard g + w.toNat * 262144 + d.toNat * 4096 + a.toNat * 64 + s.toNat < 4294967296
  unfold encGuard; omega
theorem lds : ∀ g m d a c, Statement (.lds g m d a c) := by
  intro g m d a c
  show 0x68000000 + encGuard g + m.toNat * 262144 + d.toNat * 4096 + a.toNat * 64 + c.toNat < 4294967296
  unfold encGuard; omega
theorem ldsh : ∀ g s d a c, Statement (.ldsh g s d a c) := by
  intro g s d a c
  show 0x69000000 + encGuard g + s.toNat * 262144 + d.toNat * 4096 + a.toNat * 64 + c.toNat < 4294967296
  unfold encGuard; omega
theorem ldsb : ∀ g s d a c, Statement (.ldsb g s d a c) := by
  intro g s d a c
  show 0x6a000000 + encGuard g + s.toNat * 262144 + d.toNat * 4096 + a.toNat * 64 + c.toNat < 4294967296
  unfold encGuard; omega
theorem sts : ∀ g m d a c, Statement (.sts g m d a c) := by
  intro g m d a c
  show 0x6b000000 + encGuard g + m.toNat * 262144 + d.toNat * 4096 + a.toNat * 64 + c.toNat < 4294967296
  unfold encGuard; omega
theorem stsh : ∀ g d a c, Statement (.stsh g d a c) := by
  intro g d a c
  show 0x6c000000 + encGuard g + d.toNat * 4096 + a.toNat * 64 + c.toNat < 4294967296
  unfold encGuard; omega
theorem stsb : ∀ g d a c, Statement (.stsb g d a c) := by
  intro g d a c
  show 0x6d000000 + encGuard g + d.toNat * 4096 + a.toNat * 64 + c.toNat < 4294967296
  unfold encGuard; omega
theorem gld : ∀ g m d a c, Statement (.gld g m d a c) := by
  intro g m d a c
  show 0x6e000000 + encGuard g + m.toNat * 262144 + d.toNat * 4096 + a.toNat * 64 + c.toNat < 4294967296
  unfold encGuard; omega
theorem cctl : ∀ g a c, Statement (.cctl g a c) := by
  intro g a c
  show 0x6f000000 + encGuard g + a.toNat * 64 + c.toNat < 4294967296
  unfold encGuard; omega
theorem atomAdd : ∀ g r d a w f s, Statement (.atomAdd g r d a w f s) := by
  intro g r d a w f s
  show 0x70000000 + encGuard g + r.toNat * 262144 + d.toNat * 4096 + a.toNat * 64 + w.toNat * 32 + f.toNat * 16 + s.toNat < 4294967296
  unfold encGuard; omega
theorem atomFadd : ∀ g x r d a w f s, Statement (.atomFadd g x r d a w f s) := by
  intro g x r d a w f s
  show 0x71000000 + encGuard g + x.toNat * 524288 + r.toNat * 262144 + d.toNat * 4096 + a.toNat * 64 + w.toNat * 32 + f.toNat * 16 + s.toNat < 4294967296
  unfold encGuard; omega
theorem atomMin : ∀ g u r d a w f s, Statement (.atomMin g u r d a w f s) := by
  intro g u r d a w f s
  show 0x72000000 + encGuard g + u.toNat * 524288 + r.toNat * 262144 + d.toNat * 4096 + a.toNat * 64 + w.toNat * 32 + f.toNat * 16 + s.toNat < 4294967296
  unfold encGuard; omega
theorem atomMax : ∀ g u r d a w f s, Statement (.atomMax g u r d a w f s) := by
  intro g u r d a w f s
  show 0x73000000 + encGuard g + u.toNat * 524288 + r.toNat * 262144 + d.toNat * 4096 + a.toNat * 64 + w.toNat * 32 + f.toNat * 16 + s.toNat < 4294967296
  unfold encGuard; omega
theorem atomBit : ∀ g m d a w f s, Statement (.atomBit g m d a w f s) := by
  intro g m d a w f s
  show 0x74000000 + encGuard g + m.toNat * 262144 + d.toNat * 4096 + a.toNat * 64 + w.toNat * 32 + f.toNat * 16 + s.toNat < 4294967296
  unfold encGuard; omega
theorem atomExch : ∀ g d a w f s, Statement (.atomExch g d a w f s) := by
  intro g d a w f s
  show 0x75000000 + encGuard g + d.toNat * 4096 + a.toNat * 64 + w.toNat * 32 + f.toNat * 16 + s.toNat < 4294967296
  unfold encGuard; omega
theorem cas : ∀ g d a w f s, Statement (.cas g d a w f s) := by
  intro g d a w f s
  show 0x76000000 + encGuard g + d.toNat * 4096 + a.toNat * 64 + w.toNat * 32 + f.toNat * 16 + s.toNat < 4294967296
  unfold encGuard; omega
theorem atomsc : ∀ g m d a w s, Statement (.atomsc g m d a w s) := by
  intro g m d a w s
  show 0x77000000 + encGuard g + m.toNat * 262144 + d.toNat * 4096 + a.toNat * 64 + w.toNat * 32 + s.toNat < 4294967296
  unfold encGuard; omega
theorem rld : ∀ g m d a c, Statement (.rld g m d a c) := by
  intro g m d a c
  show 0x78000000 + encGuard g + m.toNat * 262144 + d.toNat * 4096 + a.toNat * 64 + c.toNat < 4294967296
  unfold encGuard; omega
theorem rst : ∀ g m d a c, Statement (.rst g m d a c) := by
  intro g m d a c
  show 0x79000000 + encGuard g + m.toNat * 262144 + d.toNat * 4096 + a.toNat * 64 + c.toNat < 4294967296
  unfold encGuard; omega
theorem ratom : ∀ g m d a c, Statement (.ratom g m d a c) := by
  intro g m d a c
  show 0x7a000000 + encGuard g + m.toNat * 262144 + d.toNat * 4096 + a.toNat * 64 + c.toNat < 4294967296
  unfold encGuard; omega
theorem rldv : ∀ g m d a c, Statement (.rldv g m d a c) := by
  intro g m d a c
  show 0x7b000000 + encGuard g + m.toNat * 262144 + d.toNat * 4096 + a.toNat * 64 + c.toNat < 4294967296
  unfold encGuard; omega
theorem rstv : ∀ g m d a c, Statement (.rstv g m d a c) := by
  intro g m d a c
  show 0x7c000000 + encGuard g + m.toNat * 262144 + d.toNat * 4096 + a.toNat * 64 + c.toNat < 4294967296
  unfold encGuard; omega
theorem ratomv : ∀ g m d a c, Statement (.ratomv g m d a c) := by
  intro g m d a c
  show 0x7d000000 + encGuard g + m.toNat * 262144 + d.toNat * 4096 + a.toNat * 64 + c.toNat < 4294967296
  unfold encGuard; omega
theorem clauseFetch : ∀ a0 a1, Statement (.clauseFetch a0 a1) := by
  intro a0 a1
  show 0 < 4294967296
  decide
theorem clauseStart : ∀ a0 a1, Statement (.clauseStart a0 a1) := by
  intro a0 a1
  show 0 < 4294967296
  decide
theorem pausePenaltyEnd : ∀ a0 a1, Statement (.pausePenaltyEnd a0 a1) := by
  intro a0 a1
  show 0 < 4294967296
  decide
theorem fragmentUrgent : ∀ a0 a1, Statement (.fragmentUrgent a0 a1) := by
  intro a0 a1
  show 0 < 4294967296
  decide
theorem memoryAccessComplete : ∀ a0, Statement (.memoryAccessComplete a0) := by
  intro a0
  show 0 < 4294967296
  decide
theorem fdivFsqrtComplete : ∀ a0, Statement (.fdivFsqrtComplete a0) := by
  intro a0
  show 0 < 4294967296
  decide
theorem mmagLatchComplete : ∀ a0, Statement (.mmagLatchComplete a0) := by
  intro a0
  show 0 < 4294967296
  decide
theorem matrixInstrComplete : ∀ a0, Statement (.matrixInstrComplete a0) := by
  intro a0
  show 0 < 4294967296
  decide
theorem gangEnd : ∀ a0, Statement (.gangEnd a0) := by
  intro a0
  show 0 < 4294967296
  decide
theorem gfuseComplete : ∀ a0 a1, Statement (.gfuseComplete a0 a1) := by
  intro a0 a1
  show 0 < 4294967296
  decide
theorem launchEligible : ∀ a0, Statement (.launchEligible a0) := by
  intro a0
  show 0 < 4294967296
  decide
theorem launchCounterRetry : ∀ a0, Statement (.launchCounterRetry a0) := by
  intro a0
  show 0 < 4294967296
  decide
theorem workgroupPlace : ∀ a0 a1, Statement (.workgroupPlace a0 a1) := by
  intro a0 a1
  show 0 < 4294967296
  decide
theorem lanternPlace : ∀ a0 a1, Statement (.lanternPlace a0 a1) := by
  intro a0 a1
  show 0 < 4294967296
  decide
theorem launchComplete : ∀ a0, Statement (.launchComplete a0) := by
  intro a0
  show 0 < 4294967296
  decide
theorem completionSignalRetry : ∀ a0, Statement (.completionSignalRetry a0) := by
  intro a0
  show 0 < 4294967296
  decide
theorem signalAddRetry : ∀ a0, Statement (.signalAddRetry a0) := by
  intro a0
  show 0 < 4294967296
  decide
theorem waitgeSatisfied : ∀ a0 a1, Statement (.waitgeSatisfied a0 a1) := by
  intro a0 a1
  show 0 < 4294967296
  decide
theorem copyChunkPerformed : ∀ a0 a1, Statement (.copyChunkPerformed a0 a1) := by
  intro a0 a1
  show 0 < 4294967296
  decide
theorem copyChunkFault : ∀ a0 a1, Statement (.copyChunkFault a0 a1) := by
  intro a0 a1
  show 0 < 4294967296
  decide
theorem gldStallTimeout : ∀ a0 a1, Statement (.gldStallTimeout a0 a1) := by
  intro a0 a1
  show 0 < 4294967296
  decide
theorem gwaitStallTimeout : ∀ a0 a1, Statement (.gwaitStallTimeout a0 a1) := by
  intro a0 a1
  show 0 < 4294967296
  decide
theorem stepCommit : ∀ a0, Statement (.stepCommit a0) := by
  intro a0
  show 0 < 4294967296
  decide
theorem faceStripRead : ∀ a0 a1, Statement (.faceStripRead a0 a1) := by
  intro a0 a1
  show 0 < 4294967296
  decide
theorem faceSendDone : ∀ a0 a1, Statement (.faceSendDone a0 a1) := by
  intro a0 a1
  show 0 < 4294967296
  decide
theorem ghostRegionFilled : ∀ a0 a1 a2, Statement (.ghostRegionFilled a0 a1 a2) := by
  intro a0 a1 a2
  show 0 < 4294967296
  decide
theorem penumbraExchange : ∀ a0, Statement (.penumbraExchange a0) := by
  intro a0
  show 0 < 4294967296
  decide
theorem penumbraFaultRetry : ∀ a0 a1, Statement (.penumbraFaultRetry a0 a1) := by
  intro a0 a1
  show 0 < 4294967296
  decide
theorem bindingEnded : ∀ a0, Statement (.bindingEnded a0) := by
  intro a0
  show 0 < 4294967296
  decide
theorem executorRunStart : ∀ a0, Statement (.executorRunStart a0) := by
  intro a0
  show 0 < 4294967296
  decide
theorem executorClauseFetch : ∀ a0, Statement (.executorClauseFetch a0) := by
  intro a0
  show 0 < 4294967296
  decide
theorem executorRefreshRetry : ∀ a0, Statement (.executorRefreshRetry a0) := by
  intro a0
  show 0 < 4294967296
  decide
theorem executorReleaseAcked : ∀ a0, Statement (.executorReleaseAcked a0) := by
  intro a0
  show 0 < 4294967296
  decide
theorem bankRefresh : ∀ a0 a1, Statement (.bankRefresh a0 a1) := by
  intro a0 a1
  show 0 < 4294967296
  decide
theorem refreshRetryReissue : ∀ a0, Statement (.refreshRetryReissue a0) := by
  intro a0
  show 0 < 4294967296
  decide
theorem translationRequest : ∀ a0 a1 a2 a3, Statement (.translationRequest a0 a1 a2 a3) := by
  intro a0 a1 a2 a3
  show 0 < 4294967296
  decide
theorem ctxCreate : ∀ a0 a1 a2 a3, Statement (.ctxCreate a0 a1 a2 a3) := by
  intro a0 a1 a2 a3
  show 0 < 4294967296
  decide
theorem ctxDestroy : ∀ a0 a1 a2 a3, Statement (.ctxDestroy a0 a1 a2 a3) := by
  intro a0 a1 a2 a3
  show 0 < 4294967296
  decide
theorem tencoreWrite : ∀ a0 a1 a2, Statement (.tencoreWrite a0 a1 a2) := by
  intro a0 a1 a2
  show 0 < 4294967296
  decide
theorem tencfgWrite : ∀ a0 a1, Statement (.tencfgWrite a0 a1) := by
  intro a0 a1
  show 0 < 4294967296
  decide
theorem registerWrite : ∀ a0 a1, Statement (.registerWrite a0 a1) := by
  intro a0 a1
  show 0 < 4294967296
  decide
theorem fqctlWrite : ∀ a0 a1, Statement (.fqctlWrite a0 a1) := by
  intro a0 a1
  show 0 < 4294967296
  decide
theorem fqheadWrite : ∀ a0 a1, Statement (.fqheadWrite a0 a1) := by
  intro a0 a1
  show 0 < 4294967296
  decide
theorem profctlCommit : ∀ a0 a1, Statement (.profctlCommit a0 a1) := by
  intro a0 a1
  show 0 < 4294967296
  decide
theorem unmapPage : ∀ a0 a1, Statement (.unmapPage a0 a1) := by
  intro a0 a1
  show 0 < 4294967296
  decide
theorem updatePage : ∀ a0 a1, Statement (.updatePage a0 a1) := by
  intro a0 a1
  show 0 < 4294967296
  decide
theorem migratePage : ∀ a0 a1, Statement (.migratePage a0 a1) := by
  intro a0 a1
  show 0 < 4294967296
  decide
theorem splitPage : ∀ a0 a1, Statement (.splitPage a0 a1) := by
  intro a0 a1
  show 0 < 4294967296
  decide
theorem collapsePage : ∀ a0 a1, Statement (.collapsePage a0 a1) := by
  intro a0 a1
  show 0 < 4294967296
  decide
theorem scrubFrame : ∀ a0 a1, Statement (.scrubFrame a0 a1) := by
  intro a0 a1
  show 0 < 4294967296
  decide
theorem leaseWaitEnd : ∀ a0, Statement (.leaseWaitEnd a0) := by
  intro a0
  show 0 < 4294967296
  decide
theorem migrateCopyDone : ∀ a0, Statement (.migrateCopyDone a0) := by
  intro a0
  show 0 < 4294967296
  decide
theorem scrubDone : ∀ a0, Statement (.scrubDone a0) := by
  intro a0
  show 0 < 4294967296
  decide
theorem collapseRequestReceive : ∀ a0, Statement (.collapseRequestReceive a0) := by
  intro a0
  show 0 < 4294967296
  decide
theorem collapseReplyReceive : ∀ a0 a1, Statement (.collapseReplyReceive a0 a1) := by
  intro a0 a1
  show 0 < 4294967296
  decide
theorem collapseTimeout : ∀ a0, Statement (.collapseTimeout a0) := by
  intro a0
  show 0 < 4294967296
  decide
theorem openSend : ∀ a0, Statement (.openSend a0) := by
  intro a0
  show 0 < 4294967296
  decide
theorem openReceive : ∀ a0, Statement (.openReceive a0) := by
  intro a0
  show 0 < 4294967296
  decide
theorem closeSend : ∀ a0, Statement (.closeSend a0) := by
  intro a0
  show 0 < 4294967296
  decide
theorem closeReceive : ∀ a0, Statement (.closeReceive a0) := by
  intro a0
  show 0 < 4294967296
  decide
theorem lgcmdStart : ∀ a0 a1 a2, Statement (.lgcmdStart a0 a1 a2) := by
  intro a0 a1 a2
  show 0 < 4294967296
  decide
theorem dieTakeOut : ∀ a0, Statement (.dieTakeOut a0) := by
  intro a0
  show 0 < 4294967296
  decide
theorem dieReturn : ∀ a0, Statement (.dieReturn a0) := by
  intro a0
  show 0 < 4294967296
  decide
theorem getCap : Statement .getCap := by
  show 0 < 4294967296
  decide
theorem getSensors : Statement .getSensors := by
  show 0 < 4294967296
  decide
theorem setCap : ∀ a0, Statement (.setCap a0) := by
  intro a0
  show 0 < 4294967296
  decide
theorem getErrors : Statement .getErrors := by
  show 0 < 4294967296
  decide
theorem dieService : ∀ a0 a1, Statement (.dieService a0 a1) := by
  intro a0 a1
  show 0 < 4294967296
  decide
theorem fwUpdate : ∀ a0, Statement (.fwUpdate a0) := by
  intro a0
  show 0 < 4294967296
  decide
theorem basermyoUnknownCommand : ∀ a0 a1, Statement (.basermyoUnknownCommand a0 a1) := by
  intro a0 a1
  show 0 < 4294967296
  decide
theorem coldReset : Statement .coldReset := by
  show 0 < 4294967296
  decide
theorem spdmRequest : ∀ a0 a1, Statement (.spdmRequest a0 a1) := by
  intro a0 a1
  show 0 < 4294967296
  decide
theorem linkRekey : ∀ a0 a1, Statement (.linkRekey a0 a1) := by
  intro a0 a1
  show 0 < 4294967296
  decide
theorem oldKeyErase : ∀ a0, Statement (.oldKeyErase a0) := by
  intro a0
  show 0 < 4294967296
  decide
theorem ibcelLinkTrain : ∀ a0 a1, Statement (.ibcelLinkTrain a0 a1) := by
  intro a0 a1
  show 0 < 4294967296
  decide
theorem hostLinkTrain : ∀ a0 a1, Statement (.hostLinkTrain a0 a1) := by
  intro a0 a1
  show 0 < 4294967296
  decide
theorem planeFailure : ∀ a0, Statement (.planeFailure a0) := by
  intro a0
  show 0 < 4294967296
  decide
theorem flitCheckFailure : ∀ a0, Statement (.flitCheckFailure a0) := by
  intro a0
  show 0 < 4294967296
  decide
theorem lnkFlit : ∀ a0 a1, Statement (.lnkFlit a0 a1) := by
  intro a0 a1
  show 0 < 4294967296
  decide
theorem flitBadType : ∀ a0 a1, Statement (.flitBadType a0 a1) := by
  intro a0 a1
  show 0 < 4294967296
  decide
theorem wrFlit : ∀ a0 a1, Statement (.wrFlit a0 a1) := by
  intro a0 a1
  show 0 < 4294967296
  decide
theorem gwrFlit : ∀ a0 a1, Statement (.gwrFlit a0 a1) := by
  intro a0 a1
  show 0 < 4294967296
  decide
theorem writeCounted : ∀ a0, Statement (.writeCounted a0) := by
  intro a0
  show 0 < 4294967296
  decide
theorem rdFlit : ∀ a0 a1, Statement (.rdFlit a0 a1) := by
  intro a0 a1
  show 0 < 4294967296
  decide
theorem rdrFlit : ∀ a0 a1, Statement (.rdrFlit a0 a1) := by
  intro a0 a1
  show 0 < 4294967296
  decide
theorem atomFlit : ∀ a0 a1, Statement (.atomFlit a0 a1) := by
  intro a0 a1
  show 0 < 4294967296
  decide
theorem atomrFlit : ∀ a0 a1, Statement (.atomrFlit a0 a1) := by
  intro a0 a1
  show 0 < 4294967296
  decide
theorem relFlit : ∀ a0 a1, Statement (.relFlit a0 a1) := by
  intro a0 a1
  show 0 < 4294967296
  decide
theorem grelFlit : ∀ a0 a1, Statement (.grelFlit a0 a1) := by
  intro a0 a1
  show 0 < 4294967296
  decide
theorem ntcFlit : ∀ a0 a1, Statement (.ntcFlit a0 a1) := by
  intro a0 a1
  show 0 < 4294967296
  decide
theorem rsresetRequest : ∀ a0 a1, Statement (.rsresetRequest a0 a1) := by
  intro a0 a1
  show 0 < 4294967296
  decide
theorem ctlaFlit : ∀ a0 a1, Statement (.ctlaFlit a0 a1) := by
  intro a0 a1
  show 0 < 4294967296
  decide
theorem flagTimeout : ∀ a0 a1, Statement (.flagTimeout a0 a1) := by
  intro a0 a1
  show 0 < 4294967296
  decide
theorem remoteRequestTimeout : ∀ a0, Statement (.remoteRequestTimeout a0) := by
  intro a0
  show 0 < 4294967296
  decide
theorem rsresetTimeout : ∀ a0 a1, Statement (.rsresetTimeout a0 a1) := by
  intro a0 a1
  show 0 < 4294967296
  decide
theorem hostRead : ∀ a0 a1 a2, Statement (.hostRead a0 a1 a2) := by
  intro a0 a1 a2
  show 0 < 4294967296
  decide
theorem hostWrite : ∀ a0 a1 a2, Statement (.hostWrite a0 a1 a2) := by
  intro a0 a1 a2
  show 0 < 4294967296
  decide
theorem birsp : ∀ a0 a1, Statement (.birsp a0 a1) := by
  intro a0 a1
  show 0 < 4294967296
  decide
theorem externalSnoop : ∀ a0 a1, Statement (.externalSnoop a0 a1) := by
  intro a0 a1
  show 0 < 4294967296
  decide
theorem cxlFillResponse : ∀ a0 a1 a2, Statement (.cxlFillResponse a0 a1 a2) := by
  intro a0 a1 a2
  show 0 < 4294967296
  decide
theorem cxlRequestTimeout : ∀ a0, Statement (.cxlRequestTimeout a0) := by
  intro a0
  show 0 < 4294967296
  decide
theorem poolPortFailure : ∀ a0, Statement (.poolPortFailure a0) := by
  intro a0
  show 0 < 4294967296
  decide
theorem thermalThrottleStep : ∀ a0, Statement (.thermalThrottleStep a0) := by
  intro a0
  show 0 < 4294967296
  decide
theorem thermalTrip : ∀ a0, Statement (.thermalTrip a0) := by
  intro a0
  show 0 < 4294967296
  decide
theorem dieLoss : ∀ a0, Statement (.dieLoss a0) := by
  intro a0
  show 0 < 4294967296
  decide
theorem preemptSave : ∀ a0, Statement (.preemptSave a0) := by
  intro a0
  show 0 < 4294967296
  decide
theorem ctxsaveDone : ∀ a0, Statement (.ctxsaveDone a0) := by
  intro a0
  show 0 < 4294967296
  decide
theorem rsresetHoldoffEnd : ∀ a0 a1, Statement (.rsresetHoldoffEnd a0 a1) := by
  intro a0 a1
  show 0 < 4294967296
  decide
theorem powerCapEnforce : Statement .powerCapEnforce := by
  show 0 < 4294967296
  decide

end

end Sys2Proof.Laws.Coded
end

