-- ==== Sys2Proof/Tests/Slice0.lean ====
section
/-! SUPPORT. The model's own tests: ill-formed words that the check refuses; the decoding of every instruction word, from
the encoding tables of the spec; single steps against values worked out from the rules; and, for each statement with
hypotheses, concrete states and operands that meet them. -/
namespace Sys2Proof.Tests
section
set_option Elab.async false
open Sys2Proof.Machine

/-! A small state: gang 7 of context 1, its fragment 1 with a started clause of two words. -/

def u7 : Guard := ⟨7, 0⟩
/-- A clause at 0x1000 with SA flag 1 and SB flag 2. -/
def fr : Frag :=
  ⟨.ready, 0xff, 0x1004, 0, false, 0x1000, some ⟨0x1000, 0xa0210001, [0x80e00000, 0x80e00000], true, false⟩, 0, 0, false, 0, .none⟩
def gang : Gang :=
  { ctx := 1, ten := 0, launch := none, wg := some 5, f1 := 0, lantern := false, launchId := 1, wid := 0, core := 0
    quarter := 0, slot := 3, prio := 1, regs := 64, tilesN := 16, accsN := 4, spillN := 0, scratchN := 4096, idem := true
    ctt := 0x10000, g := [(1, 5), (2, 3)], q := 0, v := [], p := [], owid := [], fpcr := 0, fpsr := 0, stream := 0, hint := 1
    flags := [], tile := [], acc := [], slots := [], bind := none, step := 0, live := 0xffffffff, gone := 0
    mask := 0xffffffff, stk := [], spills := [], frags := [(1, fr)], ending := none, held := false }
def wg5 : Workgroup := ⟨9, 0, 0, 1, 0, 0, 4096, 4096, [], [7], 1, false, false, [], []⟩
def ctx1 : Ctx := Ctx.fresh 0 true 0
/-- The state in which fragment 1 of gang 7 issues. -/
def inSt (g : Gang) : State :=
  { State.reset with cur := .frag 7 1, next := 100, gangs := [(7, g)], wgs := [(5, wg5)], ctxs := [(1, ctx1)] }
def iss (g : Gang) (i : Instr) : Iss := ⟨7, 1, g, fr, BitVec.ofNat 32 (encode i)⟩
/-- Gang 7 issues the word. -/
abbrev At (i : Instr) (g : Gang) : Prop := Issues i (inSt g) (iss g i)
theorem issues_at {i : Instr} {s : State} {g : Gang} {f : Frag} (hc : s.cur = .frag 7 1) (hg : smFind s.gangs 7 = some g)
    (hf : smFind g.frags 1 = some f) (hl : legal i = true) (hs : fits g.regs g.tilesN g.accsN i = true) :
    Issues i s ⟨7, 1, g, f, BitVec.ofNat 32 (encode i)⟩ := ⟨hc, hg, hf, rfl, hl, hs⟩
theorem at_of {i : Instr} {g : Gang} (hf : smFind g.frags 1 = some fr) (hl : legal i = true)
    (hs : fits g.regs g.tilesN g.accsN i = true) : At i g := issues_at rfl rfl hf hl hs
/-- A run on unit 3 of stack 0, for context 1. -/
def run4 : Run :=
  ⟨1, 0, 7, 0, (0, 0, 3), false, 15, 0x2000, 1, 2, 0x1004, 0, 8, some 3, 0, [(1, 5)], 0x80, [], .lines [], 0x3004, 0x3000,
    some ⟨0x3000, 0xa0ff0001, [0x80e00000, 0x80e00000], true, false⟩, .going, none⟩
def runSt (x : Run) : State := { inSt gang with cur := .run 4, runs := [(4, x)] }
theorem run_at {i : Instr} {x : Run} (hl : legal (runForm i) = true) (hs : fits 32 0 0 i = true) :
    RunIssues i (runSt x) 4 x := ⟨rfl, rfl, hl, hs⟩
/-- Whether an outcome is a next state with a property. -/
def gives (o : Host.Outcome State Fault Refusal) (p : State → Bool) : Bool := match o with | .next t => p t | _ => false
/-- The gang after a word. -/
def after (o : Host.Outcome State Fault Refusal) (p : Gang → Bool) : Bool :=
  gives o fun t => match smFind t.gangs 7 with | some g => p g | none => false

/-- Gang 7 with g1 to g3. -/
def matG (a b c : B64) : Gang := { gang with g := [(1, a), (2, b), (3, c)] }

/-! Ill-formed words, one for each check. -/

theorem test_ill_guard : legal (.gadd ⟨7, 1⟩ 1 2 3) = false ∧ legal (.gadd ⟨7, 0⟩ 1 2 3) = true := by decide
theorem test_ill_align : legal (.iadd64 u7 0 1 2 4) = false ∧ legal (.iadd64 u7 0 2 2 4) = true := by decide
theorem test_ill_range : legal (.ldg u7 2 62 2 0) = false ∧ legal (.ldg u7 2 60 2 0) = true := by decide
theorem test_ill_above_regs : fits 16 0 0 (.mov u7 0 15 16) = false ∧ fits 16 0 0 (.mov u7 0 15 15) = true := by decide
theorem test_ill_tile : fits 16 3 0 (.mldt u7 0 1 3 0) = false ∧ fits 16 4 0 (.mldt u7 0 1 3 0) = true := by decide
theorem test_ill_acc : fits 16 0 2 (.mza u7 2) = false ∧ fits 16 0 3 (.mza u7 2) = true := by decide
theorem test_ill_event : isWord .coldReset = false ∧ isWord .nop = true := by decide
theorem test_ill_fields_group :
    ([.brq 7 0 1, .pauseG 0, .pauseG 65536, .gshli u7 1 64, .gshri u7 1 64, .gsari u7 1 64, .gcmp u7 0 6 0 1 2, .gsr u7 1 13,
      .gsw u7 2 1, .gfromv u7 3 1 2 3, .greduce u7 0 1 2 0, .greduce u7 3 1 2 10, .gldk u7 3 1 2 0, .gstk u7 2 1 2 0,
      .mldt u7 0 1 1 1, .mstt u7 1 1 1 1, .mrdaScratch u7 0 1 1 0, .fenceG u7 3 0, .fenceG u7 0 6] : List Instr).all
      (fun i => !fieldsOk i) = true := by decide
theorem test_ill_fields_lane :
    ([.iadd u7 3 1 2 3, .isub u7 3 1 2 3, .imad u7 3 2 2 3, .sel 7 1 0 1 2 3, .isetp u7 0 6 1 2 3, .iadd64 u7 3 2 2 4,
      .isub64 u7 3 2 2 4, .shli u7 1 32, .shri u7 1 32, .sari u7 1 32, .cvt u7 2 2 4 1, .cvtblk u7 0 0 2 3, .cvtsat u7 2 2 4 1,
      .vote u7 2 1 2, .vfromg u7 3 2 1, .lsr u7 1 3, .dbr 7 1 4] : List Instr).all (fun i => !fieldsOk i) = true := by decide
theorem test_ill_fields_memory :
    ([.ldg u7 3 4 2 0, .stg u7 3 4 2 0, .lda u7 0 4 2 6, .stl u7 0 4 2 11, .lds u7 3 4 2 0, .sts u7 3 4 2 0, .gld u7 3 4 2 1,
      .cctl u7 2 5, .cctl u7 2 2, .cctl ⟨3, 0⟩ 0 8, .atomAdd u7 0 1 2 0 0 8, .atomFadd u7 1 0 2 2 1 1 0, .atomMin u7 0 0 1 2 0 1 6,
      .atomMax u7 0 0 1 2 0 0 9, .atomBit u7 3 1 2 0 1 1, .atomExch u7 1 2 0 0 10, .cas u7 2 2 0 0 8, .atomsc u7 0 1 2 0 4,
      .rld u7 3 4 2 1, .rst u7 3 4 2 1, .rldv u7 3 4 2 1, .rstv u7 3 4 2 1] : List Instr).all (fun i => !fieldsOk i) = true := by
  decide

/-! Decoding: a word of every instruction, its fields written into the table's pattern, and reserved words. -/

theorem test_decode_reserved :
    decodeWord 0x80e00001 = .error (.reserved 0x80) ∧ (∃ e, decodeWord 0xe0000000 = .error e) ∧
    (∃ e, decodeWord 0x03080000 = .error e) := ⟨rfl, ⟨_, rfl⟩, ⟨_, rfl⟩⟩
theorem test_decode_0a :
    decodeWord 0x00b8a5ac = .ok (.iadd ⟨5, 1⟩ 2 10 22 44) ∧
    decodeWord 0x01b8a5ac = .ok (.isub ⟨5, 1⟩ 2 10 22 44) ∧
    decodeWord 0x02b0a5ac = .ok (.imul ⟨5, 1⟩ 10 22 44) ∧
    decodeWord 0x03b4a5ac = .ok (.imulh ⟨5, 1⟩ 1 10 22 44) ∧
    decodeWord 0x04b8a5ac = .ok (.imad ⟨5, 1⟩ 2 10 22 44) ∧
    decodeWord 0x05b8a5ac = .ok (.imin ⟨5, 1⟩ 2 10 22 44) ∧
    decodeWord 0x06b8a5ac = .ok (.imax ⟨5, 1⟩ 2 10 22 44) ∧
    decodeWord 0x07b8a580 = .ok (.iabs ⟨5, 1⟩ 2 10 22) :=
  ⟨rfl, rfl, rfl, rfl, rfl, rfl, rfl, rfl⟩
theorem test_decode_0b :
    decodeWord 0x08b4a5ac = .ok (.andL ⟨5, 1⟩ 1 10 22 44) ∧
    decodeWord 0x09b4a5ac = .ok (.orL ⟨5, 1⟩ 1 10 22 44) ∧
    decodeWord 0x0ab4a5ac = .ok (.xorL ⟨5, 1⟩ 1 10 22 44) ∧
    decodeWord 0x0bb4a580 = .ok (.notL ⟨5, 1⟩ 1 10 22) ∧
    decodeWord 0x0cb4a5ac = .ok (.shl ⟨5, 1⟩ 1 10 22 44) ∧
    decodeWord 0x0db4a5ac = .ok (.shr ⟨5, 1⟩ 1 10 22 44) ∧
    decodeWord 0x0eb4a5ac = .ok (.sar ⟨5, 1⟩ 1 10 22 44) ∧
    decodeWord 0x0fb4a580 = .ok (.mov ⟨5, 1⟩ 1 10 22) :=
  ⟨rfl, rfl, rfl, rfl, rfl, rfl, rfl, rfl⟩
theorem test_decode_1a :
    decodeWord 0x10b4a5ac = .ok (.bfe ⟨5, 1⟩ 1 10 22 44) ∧
    decodeWord 0x11b0a5ac = .ok (.bfi ⟨5, 1⟩ 10 22 44) ∧
    decodeWord 0x12b4a580 = .ok (.popc ⟨5, 1⟩ 1 10 22) ∧
    decodeWord 0x13b4a580 = .ok (.clz ⟨5, 1⟩ 1 10 22) ∧
    decodeWord 0x14b4a580 = .ok (.brev ⟨5, 1⟩ 1 10 22) ∧
    decodeWord 0x15b4a5ac = .ok (.sel 5 1 1 10 22 44) ∧
    decodeWord 0x16bad296 = .ok (.isetp ⟨5, 1⟩ 2 5 5 10 22) ∧
    decodeWord 0x17b8a5ac = .ok (.iadd64 ⟨5, 1⟩ 2 10 22 44) :=
  ⟨rfl, rfl, rfl, rfl, rfl, rfl, rfl, rfl⟩
theorem test_decode_1b :
    decodeWord 0x18b8a5ac = .ok (.isub64 ⟨5, 1⟩ 2 10 22 44) ∧
    decodeWord 0x19b0a9a5 = .ok (.iaddi ⟨5, 1⟩ 10 2469) ∧
    decodeWord 0x1ab0a9a5 = .ok (.imuli ⟨5, 1⟩ 10 2469) ∧
    decodeWord 0x1bb0a9a5 = .ok (.andi ⟨5, 1⟩ 10 2469) ∧
    decodeWord 0x1cb0a9a5 = .ok (.ori ⟨5, 1⟩ 10 2469) ∧
    decodeWord 0x1db0a9a5 = .ok (.xori ⟨5, 1⟩ 10 2469) ∧
    decodeWord 0x1eb0a9a5 = .ok (.shli ⟨5, 1⟩ 10 2469) ∧
    decodeWord 0x1fb0a9a5 = .ok (.shri ⟨5, 1⟩ 10 2469) :=
  ⟨rfl, rfl, rfl, rfl, rfl, rfl, rfl, rfl⟩
theorem test_decode_2a :
    decodeWord 0x20b0a9a5 = .ok (.sari ⟨5, 1⟩ 10 2469) ∧
    decodeWord 0x212abcde = .ok (.movi 10 179422) ∧
    decodeWord 0x222abcde = .ok (.movhi 10 179422) ∧
    decodeWord 0x24b85145 = .ok (.plop ⟨5, 1⟩ 2 5 5 5) ∧
    decodeWord 0x25b0a000 = .ok (.pmovTov ⟨5, 1⟩ 10) ∧
    decodeWord 0x25b40280 = .ok (.pmovFromv ⟨5, 1⟩ 10) ∧
    decodeWord 0x25b85140 = .ok (.pmovFromq ⟨5, 1⟩ 5 5) ∧
    decodeWord 0x28b8a5ac = .ok (.faddF32 ⟨5, 1⟩ 2 10 22 44) :=
  ⟨rfl, rfl, rfl, rfl, rfl, rfl, rfl, rfl⟩
theorem test_decode_2b :
    decodeWord 0x29b8a5ac = .ok (.fsubF32 ⟨5, 1⟩ 2 10 22 44) ∧
    decodeWord 0x2ab8a5ac = .ok (.fmulF32 ⟨5, 1⟩ 2 10 22 44) ∧
    decodeWord 0x2bb8a5ac = .ok (.ffmaF32 ⟨5, 1⟩ 2 10 22 44) ∧
    decodeWord 0x2cb4a5ac = .ok (.fminF32 ⟨5, 1⟩ 1 10 22 44) ∧
    decodeWord 0x2db4a5ac = .ok (.fmaxF32 ⟨5, 1⟩ 1 10 22 44) ∧
    decodeWord 0x2eb8a5ac = .ok (.fdivF32 ⟨5, 1⟩ 2 10 22 44) ∧
    decodeWord 0x2fb8a581 = .ok (.fsqrtF32 ⟨5, 1⟩ 2 10 22 1) :=
  ⟨rfl, rfl, rfl, rfl, rfl, rfl, rfl⟩
theorem test_decode_3a :
    decodeWord 0x30b4a580 = .ok (.frcpaF32 ⟨5, 1⟩ 1 10 22) ∧
    decodeWord 0x31b4a580 = .ok (.frsqaF32 ⟨5, 1⟩ 1 10 22) ∧
    decodeWord 0x32b6d296 = .ok (.fsetpF32 ⟨5, 1⟩ 1 5 5 10 22) ∧
    decodeWord 0x33b4a580 = .ok (.fclassF32 ⟨5, 1⟩ 1 10 22) ∧
    decodeWord 0x38b8a5ac = .ok (.faddF64 ⟨5, 1⟩ 2 10 22 44) ∧
    decodeWord 0x39b8a5ac = .ok (.fsubF64 ⟨5, 1⟩ 2 10 22 44) ∧
    decodeWord 0x3ab8a5ac = .ok (.fmulF64 ⟨5, 1⟩ 2 10 22 44) ∧
    decodeWord 0x3bb8a5ac = .ok (.ffmaF64 ⟨5, 1⟩ 2 10 22 44) :=
  ⟨rfl, rfl, rfl, rfl, rfl, rfl, rfl, rfl⟩
theorem test_decode_3b :
    decodeWord 0x3cb0a5ac = .ok (.fminF64 ⟨5, 1⟩ 10 22 44) ∧
    decodeWord 0x3db0a5ac = .ok (.fmaxF64 ⟨5, 1⟩ 10 22 44) ∧
    decodeWord 0x3eb8a5ac = .ok (.fdivF64 ⟨5, 1⟩ 2 10 22 44) ∧
    decodeWord 0x3fb8a580 = .ok (.fsqrtF64 ⟨5, 1⟩ 2 10 22) :=
  ⟨rfl, rfl, rfl, rfl⟩
theorem test_decode_4a :
    decodeWord 0x40b0a580 = .ok (.frcpaF64 ⟨5, 1⟩ 10 22) ∧
    decodeWord 0x41b0a580 = .ok (.frsqaF64 ⟨5, 1⟩ 10 22) ∧
    decodeWord 0x42b2d296 = .ok (.fsetpF64 ⟨5, 1⟩ 5 5 10 22) ∧
    decodeWord 0x43b0a580 = .ok (.fclassF64 ⟨5, 1⟩ 10 22) ∧
    decodeWord 0x44b8a5ac = .ok (.cvt ⟨5, 1⟩ 2 10 22 44) ∧
    decodeWord 0x45b4a582 = .ok (.cvtblk ⟨5, 1⟩ 1 10 22 2) ∧
    decodeWord 0x45bca5ac = .ok (.cvtblkX ⟨5, 1⟩ 1 10 22 44) ∧
    decodeWord 0x46b8a5ac = .ok (.cvtsat ⟨5, 1⟩ 2 10 22 44) :=
  ⟨rfl, rfl, rfl, rfl, rfl, rfl, rfl, rfl⟩
theorem test_decode_4b :
    decodeWord 0x48b8a5ac = .ok (.faddF16x2 ⟨5, 1⟩ 2 10 22 44) ∧
    decodeWord 0x49b8a5ac = .ok (.fmulF16x2 ⟨5, 1⟩ 2 10 22 44) ∧
    decodeWord 0x4ab8a5ac = .ok (.ffmaF16x2 ⟨5, 1⟩ 2 10 22 44) ∧
    decodeWord 0x4bb4a5ac = .ok (.fminF16x2 ⟨5, 1⟩ 1 10 22 44) ∧
    decodeWord 0x4cb4a5ac = .ok (.fmaxF16x2 ⟨5, 1⟩ 1 10 22 44) ∧
    decodeWord 0x4dbad296 = .ok (.fsetpF16x2 ⟨5, 1⟩ 2 5 5 10 22) :=
  ⟨rfl, rfl, rfl, rfl, rfl, rfl⟩
theorem test_decode_5a :
    decodeWord 0x50b8a5ac = .ok (.faddBf16x2 ⟨5, 1⟩ 2 10 22 44) ∧
    decodeWord 0x51b8a5ac = .ok (.fmulBf16x2 ⟨5, 1⟩ 2 10 22 44) ∧
    decodeWord 0x52b8a5ac = .ok (.ffmaBf16x2 ⟨5, 1⟩ 2 10 22 44) ∧
    decodeWord 0x53b0a5ac = .ok (.fminBf16x2 ⟨5, 1⟩ 10 22 44) ∧
    decodeWord 0x54b0a5ac = .ok (.fmaxBf16x2 ⟨5, 1⟩ 10 22 44) ∧
    decodeWord 0x55bad296 = .ok (.fsetpBf16x2 ⟨5, 1⟩ 2 5 5 10 22) ∧
    decodeWord 0x58b45140 = .ok (.vote ⟨5, 1⟩ 1 5 5) ∧
    decodeWord 0x58b8a140 = .ok (.voteBallot ⟨5, 1⟩ 10 5) :=
  ⟨rfl, rfl, rfl, rfl, rfl, rfl, rfl, rfl⟩
theorem test_decode_5b :
    decodeWord 0x59b8a5ac = .ok (.shfl ⟨5, 1⟩ 2 10 22 44) ∧
    decodeWord 0x5ab8a580 = .ok (.vfromg ⟨5, 1⟩ 2 10 22) ∧
    decodeWord 0x5bb0a580 = .ok (.lsr ⟨5, 1⟩ 10 22) ∧
    decodeWord 0x5cbabcde = .ok (.dbr 5 1 703710) ∧
    decodeWord 0x5db00000 = .ok (.exitl ⟨5, 1⟩) :=
  ⟨rfl, rfl, rfl, rfl, rfl⟩
theorem test_decode_6a :
    decodeWord 0x60b8a5ac = .ok (.ldg ⟨5, 1⟩ 2 10 22 44) ∧
    decodeWord 0x61b4a5ac = .ok (.ldgh ⟨5, 1⟩ 1 10 22 44) ∧
    decodeWord 0x62b4a5ac = .ok (.ldgb ⟨5, 1⟩ 1 10 22 44) ∧
    decodeWord 0x63b8a5ac = .ok (.stg ⟨5, 1⟩ 2 10 22 44) ∧
    decodeWord 0x64b0a5ac = .ok (.stgh ⟨5, 1⟩ 10 22 44) ∧
    decodeWord 0x65b0a5ac = .ok (.stgb ⟨5, 1⟩ 10 22 44) ∧
    decodeWord 0x66b4a589 = .ok (.lda ⟨5, 1⟩ 1 10 22 9) ∧
    decodeWord 0x67b4a589 = .ok (.stl ⟨5, 1⟩ 1 10 22 9) :=
  ⟨rfl, rfl, rfl, rfl, rfl, rfl, rfl, rfl⟩
theorem test_decode_6b :
    decodeWord 0x68b8a5ac = .ok (.lds ⟨5, 1⟩ 2 10 22 44) ∧
    decodeWord 0x69b4a5ac = .ok (.ldsh ⟨5, 1⟩ 1 10 22 44) ∧
    decodeWord 0x6ab4a5ac = .ok (.ldsb ⟨5, 1⟩ 1 10 22 44) ∧
    decodeWord 0x6bb8a5ac = .ok (.sts ⟨5, 1⟩ 2 10 22 44) ∧
    decodeWord 0x6cb0a5ac = .ok (.stsh ⟨5, 1⟩ 10 22 44) ∧
    decodeWord 0x6db0a5ac = .ok (.stsb ⟨5, 1⟩ 10 22 44) ∧
    decodeWord 0x6eb8a5ac = .ok (.gld ⟨5, 1⟩ 2 10 22 44) ∧
    decodeWord 0x6fb00296 = .ok (.cctl ⟨5, 1⟩ 10 22) :=
  ⟨rfl, rfl, rfl, rfl, rfl, rfl, rfl, rfl⟩
theorem test_decode_7a :
    decodeWord 0x70b4a5b9 = .ok (.atomAdd ⟨5, 1⟩ 1 10 22 1 1 9) ∧
    decodeWord 0x71bca5b9 = .ok (.atomFadd ⟨5, 1⟩ 1 1 10 22 1 1 9) ∧
    decodeWord 0x72bca5b9 = .ok (.atomMin ⟨5, 1⟩ 1 1 10 22 1 1 9) ∧
    decodeWord 0x73bca5b9 = .ok (.atomMax ⟨5, 1⟩ 1 1 10 22 1 1 9) ∧
    decodeWord 0x74b8a5b9 = .ok (.atomBit ⟨5, 1⟩ 2 10 22 1 1 9) ∧
    decodeWord 0x75b0a5b9 = .ok (.atomExch ⟨5, 1⟩ 10 22 1 1 9) ∧
    decodeWord 0x76b0a5b9 = .ok (.cas ⟨5, 1⟩ 10 22 1 1 9) ∧
    decodeWord 0x77b8a5a9 = .ok (.atomsc ⟨5, 1⟩ 2 10 22 1 9) :=
  ⟨rfl, rfl, rfl, rfl, rfl, rfl, rfl, rfl⟩
theorem test_decode_7b :
    decodeWord 0x78b8a5ac = .ok (.rld ⟨5, 1⟩ 2 10 22 44) ∧
    decodeWord 0x79b8a5ac = .ok (.rst ⟨5, 1⟩ 2 10 22 44) ∧
    decodeWord 0x7ab8a5ac = .ok (.ratom ⟨5, 1⟩ 2 10 22 44) ∧
    decodeWord 0x7bb8a5ac = .ok (.rldv ⟨5, 1⟩ 2 10 22 44) ∧
    decodeWord 0x7cb8a5ac = .ok (.rstv ⟨5, 1⟩ 2 10 22 44) ∧
    decodeWord 0x7db8a5ac = .ok (.ratomv ⟨5, 1⟩ 2 10 22 44) :=
  ⟨rfl, rfl, rfl, rfl, rfl, rfl⟩
theorem test_decode_8a :
    decodeWord 0x80e00000 = .ok (.nop) ∧
    decodeWord 0x81eabcde = .ok (.bra 703710) ∧
    decodeWord 0x82babcde = .ok (.brq 5 1 703710) ∧
    decodeWord 0x83b00280 = .ok (.brx ⟨5, 1⟩ 10) ∧
    decodeWord 0x84aabcde = .ok (.callG 5 703710) ∧
    decodeWord 0x85b00280 = .ok (.retG ⟨5, 1⟩ 10) ∧
    decodeWord 0x86b00000 = .ok (.exitG ⟨5, 1⟩) ∧
    decodeWord 0x87b009a5 = .ok (.trapG ⟨5, 1⟩ 2469) :=
  ⟨rfl, rfl, rfl, rfl, rfl, rfl, rfl, rfl⟩
theorem test_decode_8b :
    decodeWord 0x88eabcde = .ok (.joinat 703710) ∧
    decodeWord 0x89b00000 = .ok (.joinG ⟨5, 1⟩) ∧
    decodeWord 0x8ab00000 = .ok (.regang ⟨5, 1⟩) ∧
    decodeWord 0x8bb0a5ac = .ok (.gfuseRcv ⟨5, 1⟩ 10 22 44) ∧
    decodeWord 0x8bb4a5ac = .ok (.gfuseDon ⟨5, 1⟩ 10 22 44) ∧
    decodeWord 0x8cb0a5ac = .ok (.yieldG ⟨5, 1⟩ 10 22 44) ∧
    decodeWord 0x8d02bcde = .ok (.pauseG 179422) ∧
    decodeWord 0x8ee00000 = .ok (.idemend) :=
  ⟨rfl, rfl, rfl, rfl, rfl, rfl, rfl, rfl⟩
theorem test_decode_9a :
    decodeWord 0x90b0a5ac = .ok (.gadd ⟨5, 1⟩ 10 22 44) ∧
    decodeWord 0x91b0a5ac = .ok (.gsub ⟨5, 1⟩ 10 22 44) ∧
    decodeWord 0x92b0a5ac = .ok (.gmul ⟨5, 1⟩ 10 22 44) ∧
    decodeWord 0x93b4a5ac = .ok (.gmulh ⟨5, 1⟩ 1 10 22 44) ∧
    decodeWord 0x94b4a5ac = .ok (.gmin ⟨5, 1⟩ 1 10 22 44) ∧
    decodeWord 0x95b4a5ac = .ok (.gmax ⟨5, 1⟩ 1 10 22 44) ∧
    decodeWord 0x96b0a580 = .ok (.gmov ⟨5, 1⟩ 10 22) ∧
    decodeWord 0x98b0a5ac = .ok (.gand ⟨5, 1⟩ 10 22 44) :=
  ⟨rfl, rfl, rfl, rfl, rfl, rfl, rfl, rfl⟩
theorem test_decode_9b :
    decodeWord 0x99b0a5ac = .ok (.gor ⟨5, 1⟩ 10 22 44) ∧
    decodeWord 0x9ab0a5ac = .ok (.gxor ⟨5, 1⟩ 10 22 44) ∧
    decodeWord 0x9bb0a5ac = .ok (.gshl ⟨5, 1⟩ 10 22 44) ∧
    decodeWord 0x9cb0a5ac = .ok (.gshr ⟨5, 1⟩ 10 22 44) ∧
    decodeWord 0x9db0a5ac = .ok (.gsar ⟨5, 1⟩ 10 22 44) :=
  ⟨rfl, rfl, rfl, rfl, rfl⟩
theorem test_decode_aa :
    decodeWord 0xa1b0a9a5 = .ok (.gaddi ⟨5, 1⟩ 10 2469) ∧
    decodeWord 0xa2b0a9a5 = .ok (.gandi ⟨5, 1⟩ 10 2469) ∧
    decodeWord 0xa3b0a9a5 = .ok (.gori ⟨5, 1⟩ 10 2469) ∧
    decodeWord 0xa4b0a9a5 = .ok (.gxori ⟨5, 1⟩ 10 2469) ∧
    decodeWord 0xa5b0a9a5 = .ok (.gshli ⟨5, 1⟩ 10 2469) ∧
    decodeWord 0xa6b0a9a5 = .ok (.gshri ⟨5, 1⟩ 10 2469) ∧
    decodeWord 0xa7b0a9a5 = .ok (.gsari ⟨5, 1⟩ 10 2469) ∧
    decodeWord 0xa82abcde = .ok (.gmovi 10 179422) :=
  ⟨rfl, rfl, rfl, rfl, rfl, rfl, rfl, rfl⟩
theorem test_decode_ab :
    decodeWord 0xa92abcde = .ok (.gmovhi 10 179422) :=
  rfl
theorem test_decode_ba :
    decodeWord 0xb0bad296 = .ok (.gcmp ⟨5, 1⟩ 2 5 5 10 22) ∧
    decodeWord 0xb1b85145 = .ok (.qlop ⟨5, 1⟩ 2 5 5 5) ∧
    decodeWord 0xb2b0a580 = .ok (.gsr ⟨5, 1⟩ 10 22) ∧
    decodeWord 0xb3b0a580 = .ok (.gsw ⟨5, 1⟩ 10 22) ∧
    decodeWord 0xb4b8a5ac = .ok (.gfromv ⟨5, 1⟩ 2 10 22 44) ∧
    decodeWord 0xb5b8a589 = .ok (.greduce ⟨5, 1⟩ 2 10 22 9) ∧
    decodeWord 0xb6b8a5ac = .ok (.gldk ⟨5, 1⟩ 2 10 22 44) ∧
    decodeWord 0xb7b8a5ac = .ok (.gstk ⟨5, 1⟩ 2 10 22 44) :=
  ⟨rfl, rfl, rfl, rfl, rfl, rfl, rfl, rfl⟩
theorem test_decode_bb :
    decodeWord 0xb8b0a5ac = .ok (.tcopy ⟨5, 1⟩ 10 22 44) ∧
    decodeWord 0xb9b0a5ac = .ok (.tcopyg ⟨5, 1⟩ 10 22 44) ∧
    decodeWord 0xbab0a580 = .ok (.barinit ⟨5, 1⟩ 10 22) ∧
    decodeWord 0xbbb0a580 = .ok (.barexp ⟨5, 1⟩ 10 22) ∧
    decodeWord 0xbbb4a580 = .ok (.barexpArv ⟨5, 1⟩ 10 22) ∧
    decodeWord 0xbcb0a016 = .ok (.bararv ⟨5, 1⟩ 10 22) ∧
    decodeWord 0xbdb0a580 = .ok (.barwait ⟨5, 1⟩ 10 22) ∧
    decodeWord 0xbeb0a585 = .ok (.bartry ⟨5, 1⟩ 10 22 5) :=
  ⟨rfl, rfl, rfl, rfl, rfl, rfl, rfl, rfl⟩
theorem test_decode_ca :
    decodeWord 0xc0b8aa49 = .ok (.mma ⟨5, 1⟩ 2 10 2 9 9) ∧
    decodeWord 0xc1b8aa66 = .ok (.mmag ⟨5, 1⟩ 2 10 2 9 19) ∧
    decodeWord 0xc2b8a256 = .ok (.mldt ⟨5, 1⟩ 2 10 9 22) ∧
    decodeWord 0xc3b8a256 = .ok (.mstt ⟨5, 1⟩ 2 10 9 22) ∧
    decodeWord 0xc4b00800 = .ok (.mza ⟨5, 1⟩ 2) ∧
    decodeWord 0xc5b8aa40 = .ok (.mrdaTile ⟨5, 1⟩ 2 10 2 9) ∧
    decodeWord 0xc5b8a816 = .ok (.mrdaScratch ⟨5, 1⟩ 2 10 2 22) ∧
    decodeWord 0xc8b0a000 = .ok (.gbind ⟨5, 1⟩ 10) :=
  ⟨rfl, rfl, rfl, rfl, rfl, rfl, rfl, rfl⟩
theorem test_decode_cb :
    decodeWord 0xc8b4a580 = .ok (.gbindN ⟨5, 1⟩ 10 22) ∧
    decodeWord 0xc8b80000 = .ok (.gbindUn ⟨5, 1⟩) ∧
    decodeWord 0xc9b0a000 = .ok (.gstep ⟨5, 1⟩ 10) ∧
    decodeWord 0xcab0a580 = .ok (.gwait ⟨5, 1⟩ 10 22) ∧
    decodeWord 0xcab4a585 = .ok (.gwaitTry ⟨5, 1⟩ 10 22 5) ∧
    decodeWord 0xccb8a5a6 = .ok (.bxrun ⟨5, 1⟩ 2 10 22 19) ∧
    decodeWord 0xcdb0a580 = .ok (.bxwait ⟨5, 1⟩ 10 22) ∧
    decodeWord 0xcdb4a585 = .ok (.bxwaitTry ⟨5, 1⟩ 10 22 5) :=
  ⟨rfl, rfl, rfl, rfl, rfl, rfl, rfl, rfl⟩
theorem test_decode_da :
    decodeWord 0xd0b0a5ac = .ok (.rrel ⟨5, 1⟩ 10 22 44) ∧
    decodeWord 0xd1b00000 = .ok (.rfence ⟨5, 1⟩) ∧
    decodeWord 0xd1b4a580 = .ok (.rfenceCnt ⟨5, 1⟩ 10 22) ∧
    decodeWord 0xd4b0a580 = .ok (.launchG ⟨5, 1⟩ 10 22) ∧
    decodeWord 0xd5b8a580 = .ok (.signalG ⟨5, 1⟩ 2 10 22) ∧
    decodeWord 0xd6b8a580 = .ok (.waitge ⟨5, 1⟩ 2 10 22) ∧
    decodeWord 0xd7b80009 = .ok (.fenceG ⟨5, 1⟩ 2 9) :=
  ⟨rfl, rfl, rfl, rfl, rfl, rfl, rfl⟩
theorem test_decode_fa :
    decodeWord 0xf8b0a5ac = .ok (.fresolve ⟨5, 1⟩ 10 22 44) ∧
    decodeWord 0xf9b0a5ac = .ok (.rsreset ⟨5, 1⟩ 10 22 44) ∧
    decodeWord 0xfab0a5ac = .ok (.ctxsave ⟨5, 1⟩ 10 22 44) ∧
    decodeWord 0xfbb0a5ac = .ok (.ctxload ⟨5, 1⟩ 10 22 44) :=
  ⟨rfl, rfl, rfl, rfl⟩

/-! Witnesses of the statements' hypotheses: words of every family. -/

/-- DecodeOfEncode. -/
theorem test_wit_DecodeOfEncode : WellFormed (.gadd u7 1 2 3) ∧ WellFormed (.atomsc u7 3 63 62 0 3) ∧ ¬WellFormed .coldReset := by
  decide
/-- EncodeOfDecode: the least word that decodes, and a privileged one. -/
theorem test_wit_EncodeOfDecode : (∃ i, decodeWord 0 = .ok i) ∧ ∃ i, decodeWord 0xfbf3ffff = .ok i := ⟨⟨_, rfl⟩, ⟨_, rfl⟩⟩
/-- Gang 7 with a second fragment that has waited longer. -/
def pair : Gang := { gang with frags := [(1, { fr with smask := 0xf, age := 5 }), (2, { fr with smask := 0xf0 })] }
def candOf (g : Gang) (e : Nat) : Option Cand := candAt (inSt g) 7 e
/-- StepRunsTheDecodedInstruction: a word that decodes and one that does not; a run's; an event; a fragment that is its pipe's
choice and one that is not; the conditions of the last clause. -/
theorem test_wit_StepChoice : (candOf gang 1).map (isChoice (inSt gang)) = some true ∧
    (candOf pair 1).map (isChoice (inSt pair)) = some false ∧ (candOf pair 2).map (isChoice (inSt pair)) = some true ∧
    ((cands (inSt gang)).map fun y => (y.gid, y.e)) = [(7, 1)] ∧
    (inSt gang).gangs.Pairwise (fun a b => a.1 < b.1) ∧ gang.frags.Pairwise (fun a b => a.1 < b.1) := by decide +kernel
theorem test_wit_StepRuns :
    fragWord gang fr = some 0x80e00000 ∧ (∃ i, decodeWord 0x80e00000 = .ok i) ∧ (∃ x, decodeWord 0xe0000000 = .error x) ∧
    fragWord gang { fr with clause := some ⟨0x1000, 0xa0210000, [0xe0000000], true, false⟩ } = some 0xe0000000 ∧
    runWord run4 = some 0x80e00000 :=
  ⟨by decide, ⟨_, rfl⟩, ⟨_, rfl⟩, by decide, by decide⟩
theorem test_step_runs_turn :
    gives (step { inSt gang with inbox := [.turn (.frag 7 1)] }) (fun t => (smFind t.gangs 7).any fun g =>
      (smFind g.frags 1).any fun f => f.pc == 0x1008) = true := by decide +kernel
/-- IllegalWordsTerminate: an ill-formed field, an ill-formed guard, and a register above REGS. -/
theorem test_wit_IllegalWords :
    (legal (.gcmp u7 0 6 0 0 0) && fits 64 16 4 (.gcmp u7 0 6 0 0 0)) = false ∧
    (legal (.nop) && fits 64 16 4 .nop) = true ∧ (legal (.exitG ⟨7, 1⟩)) = false ∧
    (legal (.mov u7 0 40 0) && fits 32 16 4 (.mov u7 0 40 0)) = false := by decide
/-- FalseGuardOnlyMovesOn: a group word and a privileged one under q0 = 0, neither held back; and a launch whose flag is full. -/
theorem test_wit_FalseGuard : At (.gadd ⟨0, 0⟩ 1 2 3) gang ∧ At (.fresolve ⟨0, 0⟩ 1 2 3) gang ∧
    2 ^ 31 ≤ encode (.gadd ⟨0, 0⟩ 1 2 3) ∧ guardQ gang.q (guardOf (.fresolve ⟨0, 0⟩ 1 2 3)) = false ∧
    privileged (.fresolve ⟨0, 0⟩ 1 2 3) = true ∧ PrivCtx (inSt gang) gang ∧
    heldBack (.gadd ⟨0, 0⟩ 1 2 3) (inSt gang) (iss gang .nop) = false ∧ heldBack (.launchG ⟨0, 0⟩ 1 2) (inSt gang) (iss gang .nop) = false ∧
    (let g := { gang with flags := [(1, 63)] }
     At (.launchG ⟨0, 0⟩ 1 2) g ∧ heldBack (.launchG ⟨0, 0⟩ 1 2) (inSt g) (iss g (.launchG ⟨0, 0⟩ 1 2)) = true) :=
  ⟨at_of rfl rfl rfl, at_of rfl rfl rfl, by decide, by decide, by decide, ⟨ctx1, rfl, rfl⟩, by decide, by decide,
    at_of rfl rfl rfl, by decide⟩
/-- StepKeepsCanonical: a canonical state whose step answers a next state and writes memory. -/
theorem test_wit_StepKeepsCanonical : Canonical State.reset ∧
    gives (step { State.reset with inbox := [.ev .getCap] }) (fun _ => true) = true := ⟨rfl, by decide +kernel⟩
/-- GroupWords: g1 = 5, g2 = 3; and a predicate word, to q0 and to q7. -/
theorem test_wit_GroupWords : At (.gadd u7 3 1 2) gang ∧ groupResult (.gadd u7 3 1 2) gang = some (u7, 3, 8) ∧
    At (.gcmp u7 0 2 0 2 1) gang ∧ groupPred (.gcmp u7 0 2 0 2 1) gang = some (u7, 0, true) ∧
    At (.gcmp u7 0 2 7 2 1) gang ∧ groupPred (.gcmp u7 0 2 7 2 1) gang = some (u7, 7, true) :=
  ⟨at_of rfl rfl rfl, rfl, at_of rfl rfl rfl, rfl, at_of rfl rfl rfl, rfl⟩
theorem test_gadd : after (exec (.gadd u7 3 1 2) (inSt gang)) (fun g => gReg g 3 == 8 && gReg g 1 == 5) = true := by decide +kernel
theorem test_gsub_wraps : after (exec (.gsub u7 3 2 1) (inSt gang)) (fun g => gReg g 3 == 0xfffffffffffffffe) = true := by
  decide +kernel
theorem test_gmovhi : after (exec (.gmovhi 1 4) (inSt gang)) (fun g => gReg g 1 == 5 * 2 ^ 18 + 4) = true := by decide +kernel
/-- GroupWords: the ends of the range, and the writable ones. -/
theorem test_wit_GroupSpecial : At (.gsr u7 1 0) gang ∧ At (.gsr u7 1 12) gang ∧ At (.gsw u7 3 1) gang ∧ At (.gsw u7 4 1) gang ∧
    At (.gsw u7 8 1) gang ∧ guardQ gang.q u7 = true :=
  ⟨at_of rfl rfl rfl, at_of rfl rfl rfl, at_of rfl rfl rfl, at_of rfl rfl rfl, at_of rfl rfl rfl, rfl⟩
theorem test_gsr_slot : after (exec (.gsr u7 4 12) (inSt gang)) (fun g => gReg g 4 == 3) = true := by decide +kernel
/-- A gang whose lane l holds l in v0, 1.0 in v1 and a signalling NaN in v2 of lane 0. -/
def lanes : Gang := { gang with
  v := (List.range 32).foldl (fun v l => smSet (smPut v (32 + l) 0x3f800000#32) l (BitVec.ofNat 32 l) 0) [(64, 0x7f800001#32)] }
/-- GroupReduction: an i32 sum, no trap; and an f32 sum of a signalling NaN with invalid enabled. -/
theorem test_wit_GroupReduction : At (.greduce u7 0 1 0 2) lanes ∧ traps 0 (gReduce 0 2 (List.range 32)).2 = false ∧
    traps 1 (gReduce 0 10 [0x7f800001, 0]).2 = true := ⟨at_of rfl rfl rfl, by decide +kernel, by decide +kernel⟩
theorem test_greduce_sum : after (exec (.greduce u7 0 1 0 2) (inSt lanes)) (fun g => gReg g 1 == 496) = true := by decide +kernel
/-- LaneIntegerWords and ExecutorLaneWords. -/
theorem test_wit_LaneInteger : At (.iadd u7 0 5 0 1) lanes ∧ (laneResult (.iadd u7 0 5 0 1)).isSome = true ∧
    RunIssues (.iadd u7 0 5 0 1) (runSt run4) 4 run4 := ⟨at_of rfl rfl rfl, rfl, run_at rfl rfl⟩
theorem test_iadd_lane : after (exec (.iadd u7 0 5 0 0) (inSt lanes)) (fun g => laneReg g 31 5 == 62 && laneReg g 31 0 == 31) = true := by
  decide +kernel
theorem test_iadd_saturates : sumOf 32 1 false 0x7fffffff 1 = 0x7fffffff ∧ sumOf 32 0 false 0x7fffffff 1 = 0x80000000 ∧
    sumOf 32 2 true 3 4 = 0 := by decide
theorem test_guarded_lanes : after (exec (.movi 6 0x3ffff) (inSt lanes)) (fun g => laneReg g 0 6 == 0xffffffff) = true := by
  decide +kernel
theorem test_run_word : gives (exec (.iaddi u7 1 2) (runSt run4)) (fun t => (smFind t.runs 4).any fun x =>
    runReg x 1 == 7 && x.pc == 0x3008) = true := by decide +kernel
/-- LaneFloatWords: no trap, and one. -/
theorem test_wit_LaneFloat : At (.faddF32 u7 0 5 1 1) lanes ∧ (floatResult (.faddF32 u7 0 5 1 1)).isSome = true ∧
    trapped (iss lanes .nop) [(0, ⟨[], [], 1⟩)] = 0 ∧ trapped (iss { lanes with fpcr := 1 } .nop) [(0, ⟨[], [], 1⟩)] = 1 :=
  ⟨at_of rfl rfl rfl, rfl, by decide, by decide⟩
theorem test_fadd_one : after (exec (.faddF32 u7 0 5 1 1) (inSt lanes)) (fun g => laneReg g 3 5 == 0x40000000 && g.fpsr == 0) = true := by
  decide +kernel
theorem test_fadd_traps : after (exec (.faddF32 u7 0 5 2 2) (inSt { lanes with fpcr := 1 }))
    (fun g => g.ending == some .fault && laneReg g 0 5 == 0) = true := by decide +kernel
/-- LaneCrossingWords. -/
theorem test_wit_LaneCrossing : At (.pmovFromq u7 0 7) gang ∧ At (.vote u7 0 1 7) gang ∧ At (.vote u7 1 1 7) gang ∧ At (.vote u7 3 1 7) gang ∧
    At (.voteBallot u7 1 7) gang ∧ At (.shfl u7 0 5 0 1) lanes ∧ At (.vfromg u7 2 2 1) gang ∧ At (.lsr u7 2 2) gang :=
  ⟨at_of rfl rfl rfl, at_of rfl rfl rfl, at_of rfl rfl rfl, at_of rfl rfl rfl, at_of rfl rfl rfl, at_of rfl rfl rfl, at_of rfl rfl rfl,
    at_of rfl rfl rfl⟩
theorem test_ballot : after (exec (.voteBallot u7 3 7) (inSt gang)) (fun g => gReg g 3 == 0xffffffff) = true := by decide +kernel
theorem test_lsr_lane : after (exec (.lsr u7 4 1) (inSt gang)) (fun g => laneReg g 31 4 == 7) = true := by decide +kernel
/-- A gang of which only lane 0 is active. -/
def one : Gang := { lanes with mask := 1 }
/-- What the converted lanes of a block conversion of v0 are. -/
def blkOf (g : Gang) (fmt : Fmt) (conv : List Nat → Nat × List Nat × Flags) : List (Nat × LaneOut) :=
  blkOuts (iss g .nop) 32 8 0 fmt conv (List.range 32)
/-- BlockConversion: no exception enabled, and one that the conversion of lane 0's signalling NaN raises, in both forms. -/
theorem test_wit_BlockCompletes : trapped (iss lanes .nop) (blkOf lanes f32 cvtBlkBasic) = 0 ∧
    trapped (iss lanes .nop) (blkOf lanes f32 (cvtBlkExpert 5)) = 0 ∧
    (let g := { lanes with fpcr := 0x1f, v := [(0, 0x7f800001)] }
     trapped (iss g .nop) (blkOf g f32 cvtBlkBasic) ≠ 0 ∧ trapped (iss g .nop) (blkOf g f32 (cvtBlkExpert 5)) ≠ 0) ∧
    (List.range 32)[31]? = some 31 := by decide +kernel
theorem test_cvtblk_completes : after (exec (.cvtblk u7 1 8 0 0) (inSt lanes)) (fun g => g.ending.isNone &&
    (smFind g.frags 1).any fun f => f.pc == 0x1008) = true := by decide +kernel
theorem test_cvtblkX_completes : after (exec (.cvtblkX u7 1 8 0 3) (inSt lanes)) (fun g => g.ending.isNone &&
    (smFind g.frags 1).any fun f => f.pc == 0x1008) = true := by decide +kernel
/-- BlockConversion: all lanes, one lane (mixed), and the header-register form at the edge of its range. -/
theorem test_wit_BlockConversion : At (.cvtblk u7 1 8 0 0) lanes ∧ At (.cvtblk u7 0 8 0 1) one ∧ At (.cvtblkX u7 1 8 0 3) lanes ∧
    (let part := partLanes one fr u7; part.getLsbD 0 = true ∧ part.getLsbD 1 = false) ∧
    partLanes lanes fr u7 = 0xffffffff ∧ (gReg { gang with g := [(3, 65535)] } 3).toNat < 65536 ∧
    65536 ≤ (gReg { gang with g := [(3, 65536)] } 3).toNat :=
  ⟨at_of rfl rfl rfl, at_of rfl rfl rfl, at_of rfl rfl rfl, by decide, by decide, by decide, by decide⟩
/-- A flag at 63. -/
def full : Gang := { lanes with flags := [(1, 63), (2, 63)] }
/-- DivideAndRoot: no lane, a flag at 63, and an issue; a completion with and without a trap. -/
theorem test_wit_DivideAndRoot : At (.fdivF32 u7 0 5 1 1) lanes ∧ (divideResult (.fdivF32 u7 0 5 1 1)).isSome = true ∧
    results (iss { lanes with live := 0 } .nop) u7 (fun _ => ⟨[], [], 0⟩) = [] ∧
    results (iss lanes .nop) u7 (fun _ => ⟨[], [], 0⟩) ≠ [] ∧
    63 ≤ smGet full.flags ((iss full .nop).flag false) 0 ∧ smGet lanes.flags ((iss lanes .nop).flag false) 0 < 63 :=
  ⟨at_of rfl rfl rfl, rfl, rfl, by simp [results, iss]; decide, by decide, by decide⟩
def divOp (tr : Lanes) : Op := { (iss lanes .nop).op false .fdiv with trap := tr, out := [(160, 7)] }
theorem test_wit_DivideCompletes : smFind { inSt lanes with ops := [(8, divOp 0)] }.ops 8 = some (divOp 0) ∧ (divOp 0).kind = .fdiv ∧
    (divOp 0).trap = 0 ∧ (divOp 1).trap ≠ 0 ∧ smFind (inSt lanes).gangs (divOp 0).gid = some lanes ∧
    smFind lanes.frags (divOp 0).entry = some fr ∧ lanes.ending = none ∧ { lanes with ending := some .exit }.ending ≠ none :=
  ⟨rfl, rfl, rfl, by decide, rfl, rfl, rfl, by decide⟩
/-- BranchesTrapAndPause: aligned and misaligned targets. -/
theorem test_wit_Branches : At .nop gang ∧ At (.bra 5) gang ∧ At (.brq 0 0 5) gang ∧ At (.callG 0 5) gang ∧ At (.brx u7 1) gang ∧
    At (.retG u7 3) gang ∧ (gReg gang 3).toNat % 4 = 0 ∧ (gReg gang 1).toNat % 4 ≠ 0 ∧ At (.trapG u7 9) gang ∧ guardQ gang.q u7 = true :=
  ⟨at_of rfl rfl rfl, at_of rfl rfl rfl, at_of rfl rfl rfl, at_of rfl rfl rfl, at_of rfl rfl rfl, at_of rfl rfl rfl, by decide, by decide,
    at_of rfl rfl rfl, rfl⟩
theorem test_bra_back : after (exec (.bra 0xfffff) (inSt gang)) (fun g => (smFind g.frags 1).any fun f => f.pc == 0x1000 && f.hdr == 0x1000) = true := by
  decide +kernel
theorem test_call_link : after (exec (.callG 2 1) (inSt gang)) (fun g => gReg g 58 == 0x100c && (smFind g.frags 1).any fun f => f.pc == 0x1008) = true := by
  decide +kernel
/-- BranchesTrapAndPause. -/
theorem test_wit_PauseAndRegion : At (.pauseG 65535) gang ∧ At .idemend gang ∧ gang.wg = some 5 ∧ smFind (inSt gang).wgs 5 = some wg5 ∧
    32 ≤ { fr with bypass := 32 }.bypass := ⟨at_of rfl rfl rfl, at_of rfl rfl rfl, rfl, rfl, by decide⟩
/-- A gang whose predicate p1 holds in the even lanes. -/
def even : Gang := { lanes with p := [(1, 0x55555555)] }
/-- DivergentBranch: all lanes take it, none does, and each slice has lanes of both kinds. -/
theorem test_wit_DivergentBranch : At (.dbr 7 0 4) even ∧ At (.dbr 1 0 4) even ∧ fr.smask ≠ 0 ∧
    (∀ sl ∈ bitList fr.smask, ((activeLanes even fr) >>> (4 * sl)).setWidth 4 ≠ 0#4) ∧
    activeLanes even fr &&& guardLanes even ⟨7, 0⟩ = activeLanes even fr ∧ activeLanes even fr &&& guardLanes even ⟨2, 0⟩ = 0 ∧
    (∀ sl ∈ bitList fr.smask, ((activeLanes even fr &&& guardLanes even ⟨1, 0⟩) >>> (4 * sl)).setWidth 4 ≠ 0#4 ∧
      ((activeLanes even fr &&& ~~~guardLanes even ⟨1, 0⟩) >>> (4 * sl)).setWidth 4 ≠ 0#4 ∧ (stackOf even sl).length < 8) ∧
    RunIssues (.dbr 0 0 4) (runSt run4) 4 run4 :=
  ⟨at_of rfl rfl rfl, at_of rfl rfl rfl, by decide, by decide, by decide, by decide, by decide, run_at rfl rfl⟩
/-- A fragment at its reconvergence address, each slice with its join entry on top; and a state that it issues in. -/
def frJ : Frag := { fr with rpc := 0x1000, rv := true }
def joined : Gang := { even with frags := [(1, frJ)], stk := (List.range 8).map fun k => (k, [⟨true, 0xf, 0, false, 0x1000⟩]) }
/-- JoinAndRegang. -/
theorem test_wit_JoinAndRegang : At (.joinat 4) gang ∧ (∀ sl ∈ bitList fr.smask, (stackOf gang sl).length < 8) ∧
    Issues (.joinG u7) (inSt joined) ⟨7, 1, joined, frJ, BitVec.ofNat 32 (encode (.joinG u7))⟩ ∧
    frJ.rv = true ∧ frJ.hdr = frJ.rpc ∧ frJ.pc = frJ.hdr + 4 ∧ joined.spills = [] ∧ joined.live ≠ 0 ∧
    (∀ sl ∈ bitList (laneSlices joined.live), frJ.smask.getLsbD sl = true) ∧
    (∀ sl ∈ bitList frJ.smask, stackOf joined sl = [⟨true, 0xf, 0, false, 0x1000⟩]) ∧
    At (.regang u7) gang ∧ gang.frags = [(1, fr)] ∧ fr.rv = false ∧ (∀ sl ∈ bitList fr.smask, stackOf gang sl = []) :=
  ⟨at_of rfl rfl rfl, by decide, issues_at rfl rfl rfl rfl rfl, rfl, rfl, by decide, rfl, by decide, by decide, by decide,
    at_of rfl rfl rfl, rfl, rfl, by decide⟩
/-- Exits: some lanes leave, all do; EXIT; a run's; and the end of a gang. -/
theorem test_wit_Exits : At (.exitl ⟨1, 0⟩) even ∧ even.frags = [(1, fr)] ∧ fr.st = .ready ∧
    (∀ sl ∈ bitList fr.smask, ((even.mask &&& even.live &&& ~~~(partLanes even fr ⟨1, 0⟩)) >>> (4 * sl)).setWidth 4 ≠ 0#4) ∧
    At (.exitl u7) even ∧ even.live &&& ~~~(partLanes even fr u7) = 0 ∧ even.ending = none ∧ At (.exitG u7) gang ∧
    RunIssues (.exitl u7) (runSt run4) 4 run4 ∧ guardQ (runPred run4) u7 = true ∧
    { gang with ending := some .exit }.ending ≠ none ∧ (∀ p ∈ gang.flags, p.2 = 0) ∧ (∀ p ∈ (inSt gang).ops, p.2.todo = []) ∧
    (∀ p ∈ (inSt gang).copies, p.2.moved = []) :=
  ⟨at_of rfl rfl rfl, rfl, rfl, by decide, at_of rfl rfl rfl, by decide, rfl, at_of rfl rfl rfl, run_at rfl rfl, by decide, by decide,
    by simp [gang], (fun p hp => nomatch hp), fun p hp => nomatch hp⟩
/-- Fusion: a gang alone; two that name each other; one whose partner is gone. -/
def fuser (rcv : Bool) (f1 partner : Nat) (live : Lanes) : Gang := { lanes with
  f1 := f1, live := live, mask := live
  frags := [(1, { fr with st := .fuseWait, wait := .fuse rcv 7 (BitVec.ofNat 64 partner) 9 })] }
def fuseSt : State := { inSt gang with gangs := [(7, fuser true 0 1 0x0000ffff), (8, fuser false 1 0 0x000000ff)] }
theorem test_wit_Fusion : At (.gfuseRcv u7 9 2 1) gang ∧ (gReg gang 2).toNat < 2 ^ gang.regs ∧ (∀ sl < 8, allEntries gang sl = []) ∧
    gang.mask &&& gang.live = gang.live ∧ (gReg gang 1).toNat ≠ gang.f1 ∧
    partner fuseSt (fuser true 0 1 0x0000ffff) 1 = some 8 ∧ partner fuseSt (fuser false 1 0 0x000000ff) 0 = some 7 ∧
    (fuseMove (fuser true 0 1 0x00ffffff) (fuser false 1 0 0x00ffffff) 7).2.live ≠ 0 ∧ partner fuseSt (fuser true 0 5 1) 5 = none :=
  ⟨at_of rfl rfl rfl, by decide, by decide, by decide, by decide, by decide +kernel, by decide +kernel, by decide +kernel, by decide +kernel⟩

/-! A state with translation: window 0 maps every VA below 2^36 to the IA of the same number, home set die 0; TROOT is
0x100000, and one leaf of 1 GiB maps IA 0 up to PA 0x40000000. Some bytes stand at VA 0x2000. -/

def win0 : BitVec 192 := BitVec.ofNat 192 ((2 ^ 20 - 1) * 2 ^ 64 + 15 * 2 ^ 176 + 2 ^ 184)
def tables : Memory :=
  [(0x100000, 1), (0x100002, 0x20), (0x200000, 3), (0x200003, 0x40), (0x200006, 0x78)]
def memSt (g : Gang) (data : List Byte) : State :=
  { inSt g with
    pf := { Pf.reset with troot := 0x100000 }
    mem := { Mem.empty with frames := writeBytes tables 0x40002000 data }
    ctxs := [(1, { ctx1 with win := [(0, win0)] })] }
theorem test_walk : (match walk (memSt gang []) 0x2345 with
    | .ok (e, sh, a) => decide (e = 0x0078000040000003 ∧ sh = 30 ∧ a = 0x200000)
    | .error _ => false) = true := by decide +kernel
theorem test_walk_absent : (match walk (memSt gang []) 0x40000000 with | .error .pageNotPresent => true | _ => false) = true := by
  decide +kernel
theorem test_translate : (match translate (memSt gang []).ctxs[0].2.win 0x2345 (some .load) with
    | .ok (ia, home) => decide (ia = 0x2345 ∧ home = 1) | .error _ => false) = true := by decide +kernel
theorem test_translate_miss : (match translate (memSt gang []).ctxs[0].2.win (2 ^ 36) (some .load) with
    | .error .windowMiss => true | _ => false) = true := by decide +kernel

/-! Witnesses: barriers. -/

/-- A workgroup whose barrier at byte 16 expects 2 arrivals, and one with a value of the test's choosing. -/
def barSt (v : Nat) (g : Gang) : State := { inSt g with wgs := [(5, { wg5 with scratch := writeBytes [] 16 (toBytes 16 v) })] }
def barG (a n : B64) : Gang := { gang with g := [(1, a), (2, n), (4, 0x2000)] }
theorem bar_at {i : Instr} {v : Nat} {g : Gang} (hf : smFind g.frags 1 = some fr) (hl : legal i = true)
    (hs : fits g.regs g.tilesN g.accsN i = true) : Issues i (barSt v g) (iss g i) := issues_at rfl rfl hf hl hs
/-- BarrierWords: the edges of the address (0 and SCRATCH - 16, misaligned, past SCRATCH) and of the count (1, 65535). -/
theorem test_wit_BarrierWords : Issues (.barinit u7 1 2) (barSt 0 (barG 4080 65535)) (iss (barG 4080 65535) (.barinit u7 1 2)) ∧
    (4080 % 16 = 0 ∧ 4080 < 2 ^ 32 ∧ 4080 + 16 ≤ (barG 4080 65535).scratchN) ∧ (0 + 16 ≤ (barG 0 1).scratchN) ∧
    Issues (.barexp u7 1 2) (barSt (2 * 2 ^ 64) (barG 16 1)) (iss (barG 16 1) (.barexp u7 1 2)) ∧
    Issues (.barexpArv u7 1 2) (barSt (2 * 2 ^ 64) (barG 16 1)) (iss (barG 16 1) (.barexpArv u7 1 2)) ∧
    bArra (barGet (barSt (2 * 2 ^ 64) (barG 16 1)) 5 16) < bExpa (barGet (barSt (2 * 2 ^ 64) (barG 16 1)) 5 16) ∧
    bExpb (barGet (barSt (2 * 2 ^ 64) (barG 16 1)) 5 16) + 1 < 2 ^ 32 ∧
    Issues (.bararv u7 1 3) (barSt (2 * 2 ^ 64) (barG 16 1)) (iss (barG 16 1) (.bararv u7 1 3)) ∧
    Issues (.barwait u7 1 2) (barSt (2 * 2 ^ 64) (barG 16 1)) (iss (barG 16 1) (.barwait u7 1 2)) ∧
    bErr (barGet (barSt (2 * 2 ^ 64) (barG 16 1)) 5 16) = false ∧
    Issues (.yieldG u7 1 2 4) (barSt (2 * 2 ^ 64) (barG 16 1)) (iss (barG 16 1) (.yieldG u7 1 2 4)) ∧
    (gReg (barG 16 1) 4).toNat % 4 = 0 ∧
    Issues (.bartry u7 1 2 0) (barSt (2 * 2 ^ 64) (barG 16 1)) (iss (barG 16 1) (.bartry u7 1 2 0)) ∧
    (gReg (barG 8 1) 1).toNat % 16 ≠ 0 ∧ (gReg (barG 4096 1) 1).toNat % 16 = 0 ∧ (barG 4096 1).scratchN < 4096 + 16 :=
  ⟨bar_at rfl rfl rfl, by decide, by decide, bar_at rfl rfl rfl, bar_at rfl rfl rfl, by decide +kernel, by decide +kernel,
    bar_at rfl rfl rfl, bar_at rfl rfl rfl, by decide +kernel, bar_at rfl rfl rfl, by decide, bar_at rfl rfl rfl, by decide, by decide,
    by decide⟩
theorem test_bararv_flips : gives (exec (.bararv u7 1 3) (barSt (2 ^ 64 + 0) (barG 16 0)))
    (fun t => bPh (barGet t 5 16) && bArra (barGet t 5 16) == 0 && bExpa (barGet t 5 16) == 1) = true := by decide +kernel
/-- R244: a store to the last byte of a live barrier spoils it; one past it does not; BARINIT mends it. -/
theorem test_spoilt : barSpoilt (writeScratch (barFresh (inSt gang) 5 16) 5 31 [0]) 5 16 = true ∧
    barSpoilt (writeScratch (barFresh (inSt gang) 5 16) 5 32 [0]) 5 16 = false ∧
    barSpoilt (barFresh (writeScratch (barFresh (inSt gang) 5 16) 5 31 [0]) 5 16) 5 16 = false := by decide +kernel
theorem test_barwait_blocks : gives (exec (.barwait u7 1 2) (barSt (2 ^ 64) (barG 16 0))) (fun t => (smFind t.gangs 7).any fun g =>
    (smFind g.frags 1).any fun f => f.st == .blocked) = true := by decide +kernel
/-- BarrierWords: full and not. -/
theorem test_wit_BarrierFlips : (bExpa (2 ^ 64 + 2 ^ 80) ≠ 0 ∧ bExpa (2 ^ 64 + 2 ^ 80) ≤ bArra (2 ^ 64 + 2 ^ 80)) ∧
    ¬(bExpa (2 * 2 ^ 64 + 2 ^ 80) ≤ bArra (2 * 2 ^ 64 + 2 ^ 80)) ∧ smFind (inSt gang).wgs 5 = some wg5 ∧
    barSpoilt (inSt gang) 5 16 = false ∧ (smFind (smPut wg5.bars 16 false) 16).isSome = true ∧ 31 < 16 + 16 ∧ 16 < 31 + [0#8].length := by
  decide

/-! Witnesses: memory words. -/

/-- A gang of one active lane whose v0-v1 hold 0x2000. -/
def memG : Gang := { gang with live := 1, mask := 1, v := [(0, 0x2000), (64, 0x11223344)] }
/-- GlobalMemoryWords: a load, a store, an ordered access and an atomic; the executor's, with its guard true and false. -/
theorem test_wit_GlobalMemory : (memoryWord (.ldg u7 0 4 0 1)).isSome = true ∧ At (.ldg u7 0 4 0 1) memG ∧
    (memoryWord (.atomAdd u7 0 2 0 0 1 5)).isSome = true ∧ At (.atomAdd u7 0 2 0 0 1 5) memG ∧
    RunIssues (.stg u7 0 4 0 1) (runSt run4) 4 run4 ∧ guardQ (runPred run4) u7 = true ∧ guardQ (runPred run4) ⟨0, 0⟩ = false :=
  ⟨rfl, at_of rfl rfl rfl, rfl, at_of rfl rfl rfl, run_at rfl rfl, rfl, rfl⟩
theorem test_ldg_result : gives (exec (.ldg u7 0 4 0 1) (memSt memG [1, 2, 3, 4, 5, 6, 7, 8])) (fun t => (smFind t.ops 100).any fun o =>
    o.out == [(128, 0x08070605#32)] && o.bad.isEmpty) = true := by decide +kernel
theorem test_stg_stays_in_l1 : gives (exec (.stg u7 0 2 0 0) (memSt memG [])) (fun t =>
    (smFind t.mem.l1 (lineKey 0 0x40)).any (fun x => x.bytes.take 4 == [0x44#8, 0x33#8, 0x22#8, 0x11#8] && x.dirty == 15)
      && readByte t.mem.frames 0x40002000 == 0) = true := by decide +kernel
theorem test_ldg_parks : gives (exec (.ldg u7 0 4 0 0) (memSt { memG with v := [(0, 0x40000000)] } [])) (fun t => (smFind t.ops 100).any fun o =>
    o.bad.any fun b => b.code == .pageNotPresent && b.parks) = true := by decide +kernel
theorem test_atom_adds : gives (exec (.atomAdd u7 0 2 0 0 1 5) (memSt memG [1, 0, 0, 0])) (fun t =>
    readBytes t.mem.frames 0x40002000 4 == [0x45#8, 0x33#8, 0x22#8, 0x11#8]) = true := by decide +kernel
/-- OtherMemoryWords: scratchpad, remote (to a g register's peer and to each lane's) and uniform words. -/
theorem test_wit_OtherMemory : At (.lds u7 0 4 0 0) memG ∧ (scratchOf (.lds u7 0 4 0 0)).isSome = true ∧ At (.rld u7 0 4 0 1) memG ∧
    (remoteOf (.rld u7 0 4 0 1)).isSome = true ∧ At (.rldv u7 0 4 0 2) memG ∧ (remoteOf (.rldv u7 0 4 0 2)).isSome = true ∧
    At (.gldk u7 1 3 1 0) memG ∧ (uniformOf (.gldk u7 1 3 1 0)).isSome = true :=
  ⟨at_of rfl rfl rfl, rfl, at_of rfl rfl rfl, rfl, at_of rfl rfl rfl, rfl, at_of rfl rfl rfl, rfl⟩
def ld4 : MDesc := ⟨.plain, .load, .global, 4, false, 4, 1, 0, false⟩
def q0 (va : B64) : LaneReq := ⟨0, va, 0, 0, 3⟩
/-- A remote store's lane to peer 3, and a state whose pair with that peer has counted so many writes. -/
def st4 : MDesc := ⟨.plain, .store, .remote, 4, false, 4, 1, 0, false⟩
def qR : LaneReq := ⟨0, 0x2000, 0, 3, 3⟩
def cntSt (n : Nat) : State := { memSt memG [] with
  tenants := [(0, { (memSt memG []).tenant 0 with peers := [(0, 8)] })]
  fab := { Fabric.empty with send := [(pairKey 1 0 3, ⟨.opened, 0, 0, BitVec.ofNat 32 n, 0⟩)] } }
/-- MemoryIssue: a remote word whose pair has room for it, and one that would pass 2^30. -/
theorem test_wit_MemoryBound : pastBound (cntSt (2 ^ 30 - 1)) memG st4 [qR] = false ∧ pastBound (cntSt (2 ^ 30)) memG st4 [qR] = true ∧
    st4.space = .remote ∧ st4.dir ≠ .load ∧ peerCheck (cntSt (2 ^ 30)) 1 0 true 3 0x2000 = none ∧
    smFind (cntSt (2 ^ 30)).fab.send (pairKey 1 0 (3 % 512)) = some ⟨.opened, 0, 0, 0x40000000, 0⟩ ∧
    ([qR].filterMap (countedPeer (cntSt 0) memG st4)).count 3 = 1 := by decide +kernel
/-- MemoryIssue: no lane, a flag at 63, a terminating fault (misaligned), none, and a remote word within its pair's count. -/
theorem test_wit_MemoryIssue : smFind (memSt memG []).gangs 7 = some memG ∧ smFind memG.frags 1 = some fr ∧
    ¬smGet full.flags ((iss full .nop).flag ld4.isSb) 0 < 63 ∧ smGet memG.flags ((iss memG .nop).flag ld4.isSb) 0 < 63 ∧
    steps23 (memSt memG []) memG ld4 [q0 0x2002] = some (.misaligned, 1, 0x2002, false) ∧
    steps23 (memSt memG []) memG ld4 [q0 0x2000] = none ∧
    smFind { Fabric.empty with send := [(pairKey 1 0 3, ⟨.opened, 0, 0, 0, 0⟩)] }.send (pairKey 1 0 3) = some ⟨.opened, 0, 0, 0, 0⟩ :=
  ⟨rfl, rfl, by decide, by decide, by decide +kernel, by decide +kernel, by decide⟩
/-- Scratchpad words: the last word of SCRATCH. -/
def spG : Gang := { gang with live := 3, mask := 3, v := [(0, 4092), (64, 9)] }
theorem test_wit_Scratch : At (.lds u7 0 4 0 0) spG ∧ At (.sts u7 0 2 0 0) spG ∧ bitList (partLanes spG fr u7) ≠ [] ∧
    (∀ l ∈ bitList (partLanes spG fr u7), scratchAddr spG l 0 0 4 % 4 = 0 ∧ scratchAddr spG l 0 0 4 + 4 ≤ spG.scratchN) ∧
    spG.wg = some 5 ∧ smFind (inSt spG).wgs 5 = some wg5 ∧ smGet (inSt spG).mem.poison (scratchMark 5 0) false = false ∧
    (∀ k, smGet (inSt spG).mem.poison (scratchMark 5 k) false = false) :=
  ⟨at_of rfl rfl rfl, at_of rfl rfl rfl, by decide, by decide, rfl, rfl, rfl, fun _ => rfl⟩
theorem test_sts_then : gives (exec (.sts u7 0 2 0 0) (inSt spG)) (fun t => (smFind t.wgs 5).any fun w =>
    readByte w.scratch 4092 == 9) = true := by decide +kernel
theorem test_lds_out : gives (exec (.lds u7 0 4 0 0) { inSt spG with wgs := [(5, { wg5 with scratch := [(4093, 1)] })] }) (fun t =>
    (smFind t.ops 100).any fun o => smGet o.out 128 0 == 256) = true := by decide +kernel
/-- CachesAndFrames: a line of 128 bytes, a store that ends at its last byte. -/
def line0 : L2Line := ⟨List.replicate 128 0, 0, 0, .frame 0x40002000, 1, 0, .i, .i, 0, 0, false⟩
theorem test_wit_Caches : line0.bytes.length = 128 ∧ (0x207c % 128 + [1#8, 2#8, 3#8, 4#8].length ≤ 128) ∧ 0x207c / 128 < 2 ^ 45 ∧
    smFind Mem.empty.l1 (lineKey 0 (0x207c / 128)) = none := by decide +kernel
/-- CachesAndFrames: a set whose sixteen ways are taken, the line of way 3 the least recently used. -/
def fullSet : Mem := { Mem.empty with
  l2 := (List.range 16).map fun w => (lineKey 0 (32768 * w), { line0 with way := w, stamp := if w = 3 then 1 else 2 }) }
theorem test_wit_Ways : wayFor fullSet (lineKey 0 (32768 * 16)) line0 = (3, [lineKey 0 (32768 * 3)]) ∧
    (wayFor Mem.empty (homeKey 0 1) line0).2 = [] := by decide +kernel
def memOp (bad : List Bad) : Op := { (iss memG .nop).op false (.mem ld4) with bad := bad, out := [(128, 5)] }
def badL (l : Nat) (c : Code) (pk : Bool) : Bad := ⟨⟨l, 0x2000, 0, 0, 0⟩, c, 0x2000, pk⟩
/-- MemoryCompletes: no fault; faults that park; and a terminating one beside them. -/
theorem test_wit_MemoryCompletes : (memOp []).bad = [] ∧ (memOp []).parked = false ∧ (memOp []).todo = [] ∧ (memOp []).resp = [] ∧
    smFind { inSt memG with ops := [(8, memOp [])] }.ops 8 = some (memOp []) ∧ smFind (inSt memG).gangs (memOp []).gid = some memG ∧
    smFind memG.frags (memOp []).entry = some fr ∧ memG.ending = none ∧
    (∀ x ∈ [badL 0 .pageNotPresent true, badL 1 .writeProtect true],
      x.parks = true ∧ (x = badL 0 .pageNotPresent true ∨ (badL 0 .pageNotPresent true).lane.lane < x.lane.lane)) ∧
    (∀ x ∈ [badL 0 .pageNotPresent true, badL 1 .permission false],
      x.parks = true ∨ x = badL 1 .permission false ∨ (badL 1 .permission false).lane.lane < x.lane.lane) := by
  refine ⟨rfl, rfl, rfl, rfl, rfl, rfl, rfl, rfl, by decide, by decide⟩
theorem test_completes : after (exec (.memoryAccessComplete 8) { inSt { memG with flags := [(1, 1)] } with ops := [(8, memOp [])] })
    (fun g => laneReg g 0 4 == 5 && g.flags.isEmpty) = true := by decide +kernel
/-- Exits: a store to a tile that a matrix instruction of the ended gang uses still waits; a window onto the on-chip map. -/
def winM : BitVec 192 := BitVec.ofNat 192 (2 ^ 20 + (2 ^ 20 + 2 ^ 17) * 2 ^ 64 + 0xfff * 2 ^ 24 * 2 ^ 128 + 15 * 2 ^ 176)
def vaTile : B64 := BitVec.ofNat 64 (2 ^ 36 + 2 * 2 ^ 28 + 3 * 2 ^ 15)
def endSt : State :=
  let g := { gang with ending := some .exit }
  let st : Op := { (iss memG .nop).op true (.mem { ld4 with dir := .store }) with gid := 8, todo := [q0 vaTile] }
  { memSt g [] with
    gangs := [(7, g), (8, { memG with slot := 4, f1 := 1 })]
    ops := [(8, st), (9, (iss gang .nop).op true (.mat (.mldt 0) 0))]
    ctxs := [(1, { ctx1 with win := [(0, win0), (1, winM)] })] }
theorem test_wit_MapPending : mapPending (redoAll endSt) { gang with ending := some .exit } = true ∧
    mapPending (redoAll { endSt with ops := [] }) { gang with ending := some .exit } = false := by decide +kernel
/-- RefreshAndReissue: the longest refresh; a waiting lane; a GLD past its deadline. -/
theorem test_wit_Refresh : (350 : Nat) ≤ 350 ∧ (MDesc.space ld4 ≠ .remote) ∧ (memOp []).kind = .mem ld4 ∧
    { memOp [] with kind := .mem { ld4 with form := .grid 3 }, todo := [q0 0x2000], deadline := 0 }.todo ≠ [] := by
  refine ⟨by decide, by decide, rfl, by decide⟩
theorem test_wit_GldTimeout :
    let o : Op := { memOp [] with kind := .mem { ld4 with form := .grid 3 }, todo := [q0 0x40000000] }
    let g : Gang := { memG with frags := [(1, { fr with st := .blocked, wait := .op 8 })] }
    (smFind (redoOp { memSt g [] with ops := [(8, o)] } 8).ops 8).isSome = true := by decide +kernel
/-- CacheControlAndGridLoad. -/
theorem test_wit_CacheControl : 63 ≤ smGet full.flags ((iss full .nop).flag true) 0 ∧
    smGet memG.flags ((iss memG .nop).flag true) 0 < 63 ∧ At (.cctl u7 0 2) gang ∧ At (.cctl u7 0 8) gang ∧ At (.cctl u7 0 10) gang ∧ At (.cctl u7 0 0) gang ∧
    At (.cctl u7 0 4) gang ∧ At (.gld u7 1 4 0 1) memG ∧ bitList (partLanes memG fr u7) = [0] ∧ memG.bind = none ∧
    bitList (partLanes { memG with live := 0 } fr u7) = [] :=
  ⟨by decide, by decide, at_of rfl rfl rfl, at_of rfl rfl rfl, at_of rfl rfl rfl, at_of rfl rfl rfl, at_of rfl rfl rfl, at_of rfl rfl rfl, by decide, rfl,
    by decide⟩
theorem test_hint : after (exec (.cctl u7 0 10) (inSt gang)) (fun g => g.hint == 2) = true := by decide +kernel

/-! Witnesses: copies. -/

/-- A template: 64 elements of 4 bytes from 0x2000 to 0x2200, barrier at byte 16, chunks of 128 bytes; and one for TCOPYG. -/
def tmpl1 : BitVec 512 := BitVec.ofNat 512 (0x2000 + 0x2200 * 2 ^ 64 + 64 * 2 ^ 128 + 1 * 2 ^ 448 + 2 ^ 480 + 2 * 2 ^ 484 + 2 ^ 487)
def tmplG : BitVec 512 := BitVec.ofNat 512
  (0x2000 + 0x2200 * 2 ^ 64 + 4 * 2 ^ 128 + 32 * 2 ^ 160 + 16 * 2 ^ 224 + 16 * 2 ^ 352 + 1 * 2 ^ 448 + 2 ^ 480 + 2 * 2 ^ 484 + 2 * 2 ^ 487)
def copySt (t : BitVec 512) : State :=
  let s := memSt { gang with g := [(1, 0x3000), (2, 0), (3, 0)] } [9, 8, 7]
  { s with mem := { s.mem with frames := writeBytes s.mem.frames 0x40003000 (toBytes 64 t.toNat) } }
/-- The hypotheses of startCopy's clause, by evaluation. -/
def copyHyps (t0 : BitVec 512) (offS offD : B64) (gather : Bool) : Bool :=
  match readBlock (copySt t0) 1 (some (9, 0)) [6, 7, 1] ((copySt t0).winOf 1) .load 0x3000 64 with
  | .ok _ bs none =>
    let t := BitVec.ofNat 512 (leNat bs)
    t == t0 && tmplOk t gather && (tf t 0 64 + offS.toNat) % tEsz t == 0 && (tf t 64 64 + offD.toNat) % tEsz t == 0 &&
      (List.range 8).all (fun d => d = 0 || tRank t ≤ d || (tSstr t d % tEsz t == 0 && tDstr t d % tEsz t == 0)) &&
      (tf t 494 2 == 0) && (tf t 496 2 == 0) && tf t 479 1 == 0 && decide (tf t 448 15 * 16 + 16 ≤ gang.scratchN)
  | _ => false
def copyOf (t : BitVec 512) : Copy := ⟨1, 0, some 5, some (0, 0), 0x1004, 0, t, 0xffff, 0, 0, none, 5, 16, 16, 0, 0, [], false, false, false, []⟩
theorem test_wit_CopyCommands : Issues (.tcopy u7 1 2 3) (inSt gang) (iss gang (.tcopy u7 1 2 3)) ∧ copyFull (inSt gang) gang.core = false ∧
    copyFull { inSt gang with copies := (List.range 64).map fun k => (k, copyOf tmpl1) } gang.core = true ∧
    At (.tcopyg u7 1 2 3) { gang with g := [(3, 63)], regs := 64 } ∧ (63 : Nat) < 64 ∧
    copyHyps tmpl1 0 4 false = true ∧ copyHyps tmplG 0 0 true = true :=
  ⟨at_of rfl rfl rfl, by decide, by decide +kernel, at_of rfl rfl rfl, by decide, by decide +kernel, by decide +kernel⟩
theorem test_tcopy_starts : gives (exec (.tcopy u7 1 2 3) (copySt tmpl1)) (fun t => (smFind t.copies 100).any fun c =>
    c.tmpl == tmpl1 && c.index == 0xffff && c.barAddr == 16) = true := by decide +kernel
/-- CopyChunks: both chunks open; a move that is done, one that parks and one that is abandoned. -/
def copyAt (t : BitVec 512) : State :=
  { memSt gang [9, 8, 7] with copies := [(9, copyOf t)], wgs := [(5, { wg5 with scratch := writeBytes [] 16 (toBytes 16 (256 + 2 ^ 64)) })] }
def moves (s : State) (t : BitVec 512) (j : Nat) : Nat := match movePieces (copyOf t) 9 j (chunkPieces (copyOf t) j) 0 s with
  | .done .. => 1 | .fault _ m c _ => 20 * m + (if parksAs c then 2 else 3) | .wait _ m => 10 + m
/-- The bank of VA 0x2000 is being refreshed. -/
def refreshing (s : State) : State := { s with mem := { s.mem with refresh := [(bankOf s.pf 0x40002000, 300)] } }
theorem test_wit_CopyChunks : smFind (copyAt tmpl1).copies 9 = some (copyOf tmpl1) ∧ chunkOpen (copyOf tmpl1) 0 = true ∧
    chunkOpen (copyOf tmpl1) 1 = true ∧ chunkOpen (copyOf tmpl1) 2 = false ∧ moves (copyAt tmpl1) tmpl1 1 = 1 ∧ moves (refreshing (copyAt tmpl1)) tmpl1 0 = 10 ∧
    moves (copyAt (tmpl1 + 0x40000000)) (tmpl1 + 0x40000000) 0 = 2 ∧ moves (copyAt (tmpl1 + 0x10000000000)) (tmpl1 + 0x10000000000) 0 = 3 ∧
    tmplOk tmpl1 false = true ∧ (copyOf tmpl1).rows = none ∧ 1 < tChunks tmpl1 := by
  refine ⟨rfl, by decide +kernel, by decide +kernel, by decide +kernel, by decide +kernel, by decide +kernel, by decide +kernel,
    by decide +kernel, by decide +kernel, rfl, by decide +kernel⟩
theorem test_chunk_copies : gives (exec (.copyChunkPerformed 9 0) (copyAt tmpl1)) (fun t =>
    (match readBlock t 1 none [] (t.winOf 1) .load 0x2200 4 with | .ok _ bs _ => bs == [9#8, 8#8, 7#8, 0#8] | _ => false) && bArrb (barGet t 5 16) == 128 &&
      (smFind t.copies 9).any (·.low == 1)) = true := by decide +kernel

/-! Witnesses: the matrix engine. -/

/-- A record for i8 by i8, and one for hx4 by hx4 with headers at 0x100 and 0x200. -/
def recI8 : Nat := 1 + 1 * 2 ^ 22
def recHx : Nat := 1 + 14 * 2 ^ 8 + 14 * 2 ^ 12 + 0x200 * 2 ^ 32 + 0x400 * 2 ^ 64
def matSt (r : Nat) (g : Gang) : State :=
  { memSt g [] with wgs := [(5, { wg5 with scratch := writeBytes [] 64 (toBytes 32 r) })] }
theorem mat_at {i : Instr} {r : Nat} {g : Gang} (hf : smFind g.frags 1 = some fr) (hl : legal i = true)
    (hs : fits g.regs g.tilesN g.accsN i = true) : Issues i (matSt r g) (iss g i) := issues_at rfl rfl hf hl hs
def recOk (r : Nat) (g : Gang) : Bool :=
  match (readRecord (iss g .nop) (matSt r g) 1).bind fun v => readBlocks (iss g .nop) (matSt r g) v (List.range 32) with
  | .ok _ => true | .error _ => false
/-- MatrixIssues: the shared conditions; MMA with both records and with a misaligned one; MZA; MMAG from scratchpad and from
global memory; MLDT and MSTT; MRDA to a tile and to scratchpad; and what is not ready or not convergent. -/
theorem test_wit_MatrixIssues : guardQ gang.q u7 = true ∧ engineFull (matSt recI8 gang) 0 = false ∧ smGet gang.flags 2 0 < 63 ∧
    writesSp (matSt recI8 gang) 7 = false ∧ convergent gang fr = true ∧
    Issues (.mma u7 0 1 0 1 2) (matSt recI8 (matG 64 0 0)) (iss (matG 64 0 0) (.mma u7 0 1 0 1 2)) ∧ recOk recI8 (matG 64 0 0) = true ∧
    recOk recHx (matG 64 0 0) = true ∧ recOk recI8 (matG 65 0 0) = false ∧ recOk 0 (matG 64 0 0) = false ∧
    Issues (.mza u7 3) (matSt recI8 gang) (iss gang (.mza u7 3)) :=
  ⟨rfl, by decide +kernel, by decide, by decide, by decide, mat_at rfl rfl rfl, by decide +kernel, by decide +kernel, by decide +kernel,
    by decide +kernel, mat_at rfl rfl rfl⟩
def okOf {α : Type} (x : Except (Code × B64) α) : Bool := match x with | .ok _ => true | .error _ => false
theorem test_wit_MatrixGathers :
    (let u := iss (matG 64 0 (64 * 2 ^ 32)) .nop;
      okOf (readRecord u (matSt recI8 u.g) 1) = true ∧ fld (64 * 2 ^ 32) 6 26 = 0 ∧
      okOf (readBlocks u (matSt recI8 u.g) recI8 (List.replicate 32 0)) = true ∧
      spFault u (matSt recI8 u.g) true (List.replicate 32 0) = none) ∧
    Issues (.mmag u7 1 1 0 2 1) (matSt recI8 (matG 64 0 0)) (iss (matG 64 0 0) (.mmag u7 1 1 0 2 1)) ∧
    rowFault (matSt recI8 gang) gang false (rowWords ((List.range 32).map fun l => (l, (0x2000 : B64))) fun _ => 0) = none ∧
    engineFull { inSt gang with ops := (List.range 16).map fun k => (k, (iss gang .nop).op true (.mat (.mza 0) 0)) } 0 = true ∧
    63 ≤ smGet full.flags 2 0 ∧ convergent { gang with live := 1 } fr = false :=
  ⟨⟨by decide +kernel, by decide, by decide +kernel, by decide +kernel⟩, mat_at rfl rfl rfl, by decide +kernel, by decide +kernel,
    by decide, by decide⟩
theorem test_wit_MatrixTiles : Issues (.mldt u7 1 1 15 0) (matSt 0 (matG 2048 0 0)) (iss (matG 2048 0 0) (.mldt u7 1 1 15 0)) ∧
    spFault (iss (matG 2048 0 0) .nop) (matSt 0 gang) true (spRows 2048 64) = none ∧
    spFault (iss (matG 2048 0 0) .nop) (matSt 0 gang) true (spRows 2112 64) ≠ none ∧
    Issues (.mldt u7 2 1 0 2) (matSt 0 (matG 0x2000 64 0)) (iss (matG 0x2000 64 0) (.mldt u7 2 1 0 2)) ∧
    Issues (.mstt u7 0 1 0 0) (matSt 0 (matG 0x2000 64 0)) (iss (matG 0x2000 64 0) (.mstt u7 0 1 0 0)) ∧
    gangMats (matSt 0 gang) 7 = [] ∧ rowFault (matSt 0 gang) gang false (rowWords (vaRows 0x2000 64) fun _ => 0) = none ∧
    rowFault (matSt 0 gang) gang true (rowWords (vaRows 0x2000 64) (tileByte gang 0)) = none ∧
    (0x100 + 8) / 16 % 4 = 0 ∧ rdaSize 0 8 ≠ 0 ∧ (0x100 + 8) / 256 % 2 = 1 ∧
    Issues (.mrdaTile u7 0 1 0 15) (matSt 0 (matG 8 0 0)) (iss (matG 8 0 0) (.mrdaTile u7 0 1 0 15)) ∧ ¬2048 < 32 * (rdaN 0 * rdaSize 0 8) ∧
    Issues (.mrdaScratch u7 0 1 0 2) (matSt 0 (matG 0x108 (64 * 2 ^ 32 + 2048) 0)) (iss (matG 0x108 (64 * 2 ^ 32 + 2048) 0) (.mrdaScratch u7 0 1 0 2)) ∧
    (∀ i < 32, 2048 + i * 64 + rdaN 0 * rdaSize 0 8 ≤ gang.scratchN) :=
  ⟨mat_at rfl rfl rfl, by decide +kernel, by decide +kernel, mat_at rfl rfl rfl, mat_at rfl rfl rfl, by decide +kernel, by decide +kernel,
    by decide +kernel, by decide, by decide, by decide, mat_at rfl rfl rfl, by decide, mat_at rfl rfl rfl, by decide⟩
def matOp (m : MatOp) : Op := (iss gang .nop).op true (.mat m 0)
/-- MatrixCompletion: an MMAG's latch, and an oldest instruction. -/
theorem test_wit_MatrixCompletes : smFind { inSt gang with ops := [(8, matOp (.mza 1))] }.ops 8 = some (matOp (.mza 1)) ∧
    (matOp (.mza 1)).kind = .mat (.mza 1) 0 ∧ smFind (inSt gang).gangs (matOp (.mza 1)).gid = some gang ∧ (matOp (.mza 1)).todo = [] ∧
    (matOp (.mza 1)).resp = [] ∧ (matOp (.mza 1)).bad = [] ∧ (matOp (.mza 1)).parked = false ∧
    (gangMats { inSt gang with ops := [(8, matOp (.mza 1))] } 7).head? = some 8 ∧
    ∃ tb acc b r, MatOp.mmag false 0 1 ⟨0, 0, 1, 0, [], []⟩ = .mmag tb acc b r :=
  ⟨rfl, rfl, rfl, rfl, rfl, rfl, rfl, by decide +kernel, ⟨_, _, _, _, rfl⟩⟩
theorem test_mza_clears : after (exec (.matrixInstrComplete 8) { inSt { gang with flags := [(2, 1)], acc := [(1030, 5)] } with ops := [(8, matOp (.mza 1))] })
    (fun g => accCell g 1 6 == 0 && g.flags.isEmpty) = true := by decide +kernel
/-- MatrixCompletion: a full latch; and i8 by u8 in integer mode. -/
theorem test_wit_MatrixEffects : (matOp (.mldt 0)).rows = 0 ∧
    (∃ l : SMap Byte, (∀ i < 2048, ∃ b, smFind l i = some b) ∧ List.Pairwise (fun a b => a.1 < b.1) l ∧ ∀ p ∈ l, p.1 < 2048) ∧
    (let r : FmtRec := ⟨0, 4, 1, 0, [], []⟩; (r.fa = 0 ∨ r.fa = 4) ∧ (r.fb = 0 ∨ r.fb = 4) ∧ r.accm = 1) := by
  have hp : List.Pairwise (fun a b : Nat × Byte => a.1 < b.1) ((List.range 2048).map fun i => (i, 1)) :=
    List.pairwise_map.2 List.pairwise_lt_range
  refine ⟨rfl, ⟨(List.range 2048).map fun i => (i, 1), fun i hi => ⟨1, ?_⟩, hp, by simp⟩, by decide⟩
  exact Laws.smFind_of_mem hp (p := (i, 1)) (List.mem_map.2 ⟨i, List.mem_range.2 hi, rfl⟩)
/-- R262 by hand: 64 products of 2 and 3 are 384; signed minus 1 by unsigned 255, 64 times, is -16320. -/
theorem test_cellInt : cellInt 0 (List.replicate 64 2) (List.replicate 64 3) = 384 ∧
    cellInt 0 (List.replicate 64 (-1)) (List.replicate 64 255) = -16320 ∧
    cellInt (2 ^ 35 - 1) (List.replicate 64 1) (List.replicate 64 1) = 2 ^ 35 - 1 := by decide +kernel

/-! Witnesses: Penumbra. -/

/-- RegisterWordFrames: a group word, an integer lane word and a floating word that answer a next state. -/
theorem test_wit_RegisterWordFrames : At (.gadd u7 3 1 2) gang ∧ (groupResult (.gadd u7 3 1 2) gang).isSome = true ∧
    gives (exec (.gadd u7 3 1 2) (inSt gang)) (fun _ => true) = true ∧ At (.iadd u7 0 5 0 1) lanes ∧
    gives (exec (.iadd u7 0 5 0 1) (inSt lanes)) (fun _ => true) = true ∧ At (.faddF32 u7 0 5 1 1) lanes ∧
    gives (exec (.faddF32 u7 0 5 1 1) (inSt lanes)) (fun _ => true) = true ∧ trapped (iss lanes .nop) [] = 0 :=
  ⟨at_of rfl rfl rfl, rfl, by decide +kernel, at_of rfl rfl rfl, by decide +kernel, at_of rfl rfl rfl, by decide +kernel, by decide⟩
/-- Partition c of two, of a row of 16 f32 elements, one ghost layer at each end, a constant at the boundary; owner table at
0x2800, interior at 0x2400, ghosts at 0x2a00; with FAULT or a limit of 5 us. -/
def dsc (c : Nat) (fault : Bool) : BitVec 1024 := BitVec.ofNat 1024 (2 ^ 8 + 2 ^ 16 + 5 * 2 ^ 21 + (if fault then 2 ^ 27 else 5 * 2 ^ 96)
  + 2 ^ 32 + 2 ^ 36 + 2 * 2 ^ 64 + 2 * 2 ^ 67 + 16 * 2 ^ 128 + 2 ^ 160 + 2 ^ 192 + 2 ^ 224 + c * 2 ^ 256 + 0x2800 * 2 ^ 320 + 0x2400 * 2 ^ 384
  + 0x2a00 * 2 ^ 512)
def owners : SMap B32 := [(0, 0), (1, 0)]
def bnd (c : Nat) : Binding := ⟨1, 0, 0x3000, dsc c true, owners, 1, 1, [], [7], [], [], 0, 0, false, 0, false, false, none, 0, 0⟩
/-- Gang 7, with g1 to g3, and bindings 9 and 10 of the two partitions. -/
def gridG (a b : B64) : Gang := { gang with g := [(1, a), (2, b)], bind := some 9 }
def gridSt (b : Binding) (g : Gang) : State :=
  let s := memSt g []
  { s with
    binds := [(9, b), (10, bnd 1)]
    mem := { s.mem with frames := writeBytes s.mem.frames 0x40003000 (toBytes 128 (dsc 0 true).toNat) } }
theorem grid_at {i : Instr} {b : Binding} {g : Gang} (hf : smFind g.frags 1 = some fr) (hl : legal i = true)
    (hs : fits g.regs g.tilesN g.accsN i = true) : Issues i (gridSt b g) (iss g i) := issues_at rfl rfl hf hl hs
theorem test_descOk : descOk (dsc 0 true) = true ∧ descOk (dsc 1 false) = true ∧ descOk (BitVec.ofNat 1024 0) = false := by decide +kernel
/-- The bank of VA 0x3000 is being refreshed. -/
def refreshing2 (s : State) : State := { s with mem := { s.mem with refresh := [(bankOf s.pf 0x40003000, 300)] } }
/-- PenumbraWords: GBIND to an existing binding, to a new one, and one refused; unbinding. -/
theorem test_wit_PenumbraBind : At (.gbindUn u7) gang ∧ gang.bind = none ∧ (gridG 0 0).bind = some 9 ∧
    At (.gbind u7 1) (matG 0x3000 0 0) ∧ At (.gbindN u7 1 2) (matG 0x3000 1 0) ∧ (1 : Nat) ≤ 65535 ∧ (0x3000 : Nat) % 128 = 0 ∧
    List.find? (fun q : Nat × Binding => q.2.ctx == 1 && q.2.va == 0x3000) (gridSt (bnd 0) gang).binds = some (9, bnd 0) ∧
    (bnd 0).p = 1 ∧ { bnd 0 with parts := [] }.parts.length < 1 ∧
    (match readGrid { gridSt (bnd 0) gang with binds := [] } 1 (some (9, 0)) [9, 7, 1] 0x3000 with
      | .ok s d o => d == dsc 0 true && o == owners && ownersOk s 1 { bnd 0 with desc := d, owners := o }
      | _ => false) = true ∧
    ownersOk { gridSt (bnd 0) gang with pf := { (gridSt (bnd 0) gang).pf with peerid := 3 } } 1 (bnd 0) = false ∧
    (match readGrid (memSt gang []) 1 (some (9, 0)) [9, 7, 1] 0x3000 with | .fault _ _ _ p => !p | _ => false) = true ∧
    (match readGrid (memSt gang []) 1 (some (9, 0)) [9, 7, 1] 0x40000000 with | .fault _ _ _ p => p | _ => false) = true ∧
    (match readGrid (refreshing2 (gridSt (bnd 0) gang)) 1 (some (9, 0)) [9, 7, 1] 0x3000 with | .wait _ => true | _ => false) = true :=
  ⟨at_of rfl rfl rfl, rfl, rfl, at_of rfl rfl rfl, at_of rfl rfl rfl, by decide, by decide, by decide +kernel, rfl, by decide,
    by decide +kernel, by decide +kernel, by decide +kernel, by decide +kernel, by decide +kernel⟩
/-- PenumbraWords: GSTEP in and out of order; GWAIT fresh, stale and on a face number that is out of range. -/
theorem test_wit_PenumbraWait : Issues (.gstep u7 1) (gridSt (bnd 0) (gridG 1 0)) (iss (gridG 1 0) (.gstep u7 1)) ∧
    (gridG 1 0).frags.length = 1 ∧ ((gridG 1 0).g = [(1, 1), (2, 0)]) ∧ (gridG 1 0).step = 0 ∧ (bnd 0).bad = none ∧
    (bnd 0).broken = false ∧ Issues (.gwait u7 1 2) (gridSt (bnd 0) (gridG 0 2)) (iss (gridG 0 2) (.gwait u7 1 2)) ∧
    Issues (.gwaitTry u7 1 2 0) (gridSt (bnd 0) (gridG 0 63)) (iss (gridG 0 63) (.gwaitTry u7 1 2 0)) ∧
    wideFaces (dsc 0 true) = [0, 1] ∧ faceFresh (bnd 0) 1 0 = false ∧ faceFresh { bnd 0 with tags := [(tagKey 1 0 4, 1)] } 1 0 = true ∧
    ((bnd 0).steps - 1) / dDepth (dsc 0 true) ≤ 0 ∧ dFault (dsc 0 true) = true ∧ dFault (dsc 0 false) = false ∧ 64 ≤ (64 : B64).toNat :=
  ⟨grid_at rfl rfl rfl, rfl, rfl, rfl, rfl, rfl, grid_at rfl rfl rfl, grid_at rfl rfl rfl, by decide +kernel, by decide +kernel,
    by decide +kernel, by decide +kernel, by decide +kernel, by decide +kernel, by decide⟩
def okVals (v : Vals) : Bool := match v with | .ok .. => true | _ => false
/-- A binding whose face 1 is reading round 0, and one whose face 1 sends it, its partner found. -/
def bndF (st : FaceSt) : Binding := { bnd 0 with faces := [(1, ⟨st, 0, [(0x3f800000, false)], false, some 10, 0, 0, [], false⟩)] }
def readOf (b : Binding) (k : Nat) : Vals := computeElems 1 4 (faceTok 9 k kRead 0) (fun x => (elemPlace (dsc 0 true) 0 x).1)
  (fun x vs => if exchanged (dsc 0 true) k then vs.getD 0 0 else fillValue (dsc 0 true) k x vs)
  ((faceWork b k).map fun p => (p.1, p.2)) (gridSt b gang)
/-- PenumbraActs: a commit; a read, a send, a fill and a copy; a search, a retry, the end and a stalled GWAIT. -/
theorem test_wit_PenumbraActs : (bnd 0).p ≤ smGet { bnd 0 with arrivals := [(1, 1)] }.arrivals 1 0 ∧ smGet (bnd 0).arrivals 1 0 < (bnd 0).p ∧
    ((bndF .read).face 1).st = .read ∧ smGet ((bndF .read).face 1).held kRead 0 = 0 ∧ exchanged (dsc 0 true) 1 = true ∧
    exchanged (dsc 0 true) 0 = false ∧ okVals (readOf (bndF .read) 1) = true ∧ okVals (readOf (bndF .read) 0) = true ∧
    released (gridSt (bndF .read) gang) (bndF .read) 1 0 = true ∧
    readsReady (bndF .send) 0 ((faceWork (bndF .send) 1).map Prod.fst) = true ∧ ((bndF .send).face 1).partner = some 10 ∧
    nbLocal (gridSt (bndF .send) gang) (bndF .send) 1 = true ∧ regionElems (dsc 0 true) 0 4 = [[-1, 0, 0]] ∧
    higherOut (dsc 0 true) 0 [-1, 0, 0] = none ∧ 1 ∈ sharedFaces (dsc 0 true) ∧
    (findBinding (gridSt (bnd 0) gang) (fun y => y.ten == 0) 0 (neighbour (dsc 0 true) 1) 0 = some (10, bnd 1)) ∧
    sharedAgree (bnd 0) (sharedFields (dsc 1 true) ++ ownerWords owners) = true ∧
    (∀ p ∈ (bnd 0).faces, p.2.started = false) ∧
    waiters (gridSt (bnd 0) gang) (fun g w => match w with | .bind va _ => g.ctx == 1 && va == 0x3000 | _ => false) = [] ∧
    facesAt (bnd 0) 0 2 = .stale 1 ∧ facesAt { bnd 0 with tags := [(tagKey 1 0 4, 1)] } 0 2 = .fresh := by
  refine ⟨by decide, by decide, rfl, rfl, ?_⟩
  decide +kernel
/-- PenumbraActs: a send that a peer's receiver has still to perform; a held access; a search of a peer; a round that is
full; an ending binding; a GSTEP whose step is committed and read; reads that wait and that fault. -/
def bndFar : Binding := { bnd 0 with faces := [(1, { (bndF .send).face 1 with started := true })] }
def readB : Binding := { bnd 0 with steps := 2, faces := [0, 1].map fun k => (k, { (bndF .idle).face 1 with round := 3 }) }
def cntB : Binding := { bnd 0 with
  desc := dsc 0 true ||| BitVec.ofNat 1024 (0x2000 * 2 ^ 576)
  tags := (wideFaces (dsc 0 true)).flatMap fun k => (regionsOf (dsc 0 true) k).map fun g => (tagKey k 0 g, 1) }
/-- The state of a socket whose peer 2 owns the neighbour, with port 5 and peer 4's stream 0 for context 1. -/
def portSt (b : Binding) : State := { gridSt b gang with
  pf := { (gridSt b gang).pf with peerid := 3 }
  fab := { Fabric.empty with
    ports := [(5, ⟨true, true, 0x0100, 3, 0, [], 0, 0, [(0, 0)], 0, 0⟩)]
    arr := [(arrKey 4 1 0, ⟨1, .opened, false, 2, 7, [], 1000, false, false⟩)] } }
def readAt (s : State) (b : Binding) : Nat := match computeElems 1 4 (faceTok 9 1 kRead 0) (fun x => (elemPlace (dsc 0 true) 0 x).1)
    (fun _ vs => vs.getD 0 0) ((faceWork b 1).map fun p => (p.1, p.2)) s with
  | .ok .. => 0 | .wait _ => 1 | .fault .. => 2
theorem test_wit_PenumbraWaits : (bndFar.face 1).started = true ∧ (bndFar.face 1).st = .send ∧ nbLocal (portSt bndFar) bndFar 1 = false ∧
    (let f := { (bndF .read).face 1 with held := [(kRead, 9)] }
     smFind f.held kRead ≠ none ∧ smFind f.held kSend = none ∧ (0 : Nat) < smGet f.held kRead 0) ∧
    kSend ≠ kRead ∧ kFill 4 = 7 ∧ roundFull cntB = true ∧ roundFull (bnd 0) = false ∧ dCcnt cntB.desc = 0x2000 ∧ cntB.cntRetry = 0 ∧
    (match addCounter (gridSt cntB gang) 1 0 [2, 9, 6] true 0x2000 1 with | .done _ => true | _ => false) = true ∧
    nbLocal { gridSt (bnd 0) gang with pf := { Pf.reset with peerid := 3 } } (bnd 0) 1 = false ∧ (bnd 0).noted = 0 ∧
    { bnd 0 with ending := true }.ending = true ∧ 0 + 1 < readB.steps ∧
    roundRead readB (1 / dDepth (dsc 0 true)) = true ∧
    (gridSt (bnd 0) gang).gangs.Pairwise (fun a b => a.1 < b.1) ∧
    readAt { gridSt (bnd 0) gang with mem := { (gridSt (bnd 0) gang).mem with refresh := [(bankOf Pf.reset 0x40002400, 300)] } } (bndF .read) = 1 ∧
    readAt { gridSt (bnd 0) gang with ctxs := [(1, ctx1)] } (bndF .read) = 2 := by decide +kernel
/-- PenumbraActs: a reply's port; a peer that asks for a partition that is here, under a digest of other fields, and the
binding then bears the peer's name and socket. -/
theorem test_wit_PenumbraPeers : HearsAt (portSt bndFar) 5 0 ⟨true, true, 0x0100, 3, 0, [], 0, 0, [(0, 0)], 0, 0⟩ ∧ bndFar.noted = 0 ∧
    smFind (portSt (bnd 0)).fab.arr (arrKey 4 1 0) = some ⟨1, .opened, false, 2, 7, [], 1000, false, false⟩ ∧
    findBinding (portSt (bnd 0)) (fun y => y.ctx == 1) 0 [0, 0, 0] 0 = some (9, bnd 0) ∧ sharedAgree (bnd 0) [] = false := by
  refine ⟨⟨rfl, rfl, by decide +kernel, by decide +kernel⟩, rfl, rfl, by decide +kernel, by decide +kernel⟩
theorem test_inbound_names : gives (exec (.penumbraExchange (.inbound ⟨5, 0⟩ 4 1 0 0 2 0 [0, 0, 0] [])) (portSt (bnd 0))) (fun t =>
    (smFind t.binds 9).any (·.bad == some (4 * 32 + 2))) = true := by decide +kernel
theorem test_gstep_passes : gives (exec (.gstep u7 1) (gridSt readB (gridG 1 0))) (fun t =>
    (smFind t.gangs 7).any fun g => g.step == 1 && (smFind g.frags 1).any fun f => f.st == .ready && f.pc == 0x1008) = true := by
  decide +kernel
/-- CacheControlAndGridLoad, RefreshAndReissue: a GLD with a binding of its element size, its lane at a ghost element of a grid
that stalls; and at the grid's interior. -/
def ghostG (va : B32) : Gang := { memG with bind := some 9, v := [(0, va)] }
def stallB : Binding := { bnd 0 with desc := dsc 0 false }
theorem test_wit_StaleLane : dSize (bnd 0).desc = 4 ∧
    staleLane (gridSt stallB (ghostG 0)) (ghostG 0) ⟨.grid 0, .load, .global, 4, false, 4, 1, 0, false⟩ (q0 0x2b00) = true ∧
    staleLane (gridSt stallB (ghostG 0)) (ghostG 0) ⟨.grid 0, .load, .global, 4, false, 4, 1, 0, false⟩ (q0 0x2400) = false ∧
    (let o : Op := { memOp [] with kind := .mem ⟨.grid 0, .load, .global, 4, false, 4, 1, 0, false⟩, todo := [q0 0x2b00], deadline := 0 }
     let g : Gang := { ghostG 0 with frags := [(1, { fr with st := .blocked, wait := .op 8 })] }
     ((smFind (redoOp { gridSt stallB g with ops := [(8, o)] } 8).ops 8).map fun o => o.todo.length) = some 1) := by decide +kernel
/-- A rank 2 grid: its corner regions are copied from the face of the higher dimension. -/
def dsc2 : BitVec 1024 := BitVec.ofNat 1024 (2 ^ 8 + 2 * 2 ^ 16 + 5 * 2 ^ 21 + 2 ^ 27 + 0x1111 * 2 ^ 32 + 2 * 2 ^ 64 + 2 * 2 ^ 67 + 2 * 2 ^ 70
  + 2 * 2 ^ 73 + 4 * 2 ^ 128 + 4 * 2 ^ 160 + 2 ^ 192 + 0x2800 * 2 ^ 320 + 0x2400 * 2 ^ 384 + 16 * 2 ^ 448 + 0x2a00 * 2 ^ 512)
theorem test_wit_PenumbraCorner : descOk dsc2 = true ∧ regionElems dsc2 0 1 = [[-1, -1, 0]] ∧ (higherOut dsc2 0 [-1, -1, 0]).isSome = true ∧
    higherOut dsc2 2 [-1, -1, 0] = none := by decide +kernel
theorem test_commit : gives (exec (.stepCommit 9) (gridSt { bnd 0 with steps := 0, arrivals := [(0, 1)] } (gridG 0 0))) (fun t =>
    (smFind t.binds 9).any fun b => b.steps == 1 && b.arrivals.isEmpty) = true := by decide +kernel

/-! Witnesses: executors. -/

/-- ExecutorWords: a bad entry, a misaligned one, a window miss, and a start; BXWAIT on done and running slots. -/
theorem test_wit_ExecutorWords : At (.bxrun u7 3 1 2 2) (matG (2 ^ 57) 0 0) ∧ fld (2 ^ 57) 57 3 ≠ 0 ∧ fld 0x2002 57 3 = 0 ∧ 0x2002 % 4 ≠ 0 ∧
    fld 0xf000000000003000 57 3 = 0 ∧
    (match translate ((memSt gang []).winOf 1) (2 ^ 36) (some .load) with | .error .windowMiss => true | _ => false) = true ∧
    (match translate ((memSt gang []).winOf 1) 0x2000 (some .load) with | .ok _ => true | _ => false) = true ∧
    slotOf gang 3 ≠ .running ∧ slotOf { gang with slots := [(3, .running)] } 3 = .running ∧ At (.bxwait u7 1 2) (matG 0 15 0) ∧
    At (.bxwaitTry u7 1 2 0) (matG 0 16 0) ∧ (∀ k < 4, (15 : Nat).testBit k = true → slotOf (matG 0 15 0) k ≠ .running) :=
  ⟨at_of rfl rfl rfl, by decide, by decide, by decide, by decide, by decide +kernel, by decide +kernel, by decide, by decide,
    at_of rfl rfl rfl, at_of rfl rfl rfl, by decide⟩
theorem test_bxwait_states : after (exec (.bxwait u7 1 2) (inSt { matG 0 0 0 with slots := [(0, .ended), (2, .faulted)] }))
    (fun g => gReg g 1 == 0x00030002) = true := by decide +kernel
/-- ExecutorRuns: a start on a plain page and on a map address, a fetch, a stall, a release that ends and one that goes on. -/
def runAt (w : RunWait) : Run := { run4 with unit := none, wait := w, clause := none, hdr := 0x3000, win := [(0, win0)] }
def runMem (x : Run) (code : List Byte) : State :=
  let s := memSt { gang with slots := [(0, .running)] } []
  { s with runs := [(4, x)], mem := { s.mem with frames := writeBytes s.mem.frames 0x40003000 code } }
def nopClause : List Byte := toBytes 4 0xa0ff0000 ++ toBytes 4 0x80e00000
theorem test_wit_ExecutorRuns : smFind (runMem (runAt .start) []).runs 4 = some (runAt .start) ∧
    (match reach (runMem (runAt .start) []) 1 ((runMem (runAt .start) []).winOf 1) 0x2000 .load with
      | .spot _ sp => sp.page.st == 0 | _ => false) = true ∧
    (match reach (runMem (runAt .start) []) 1 ((runMem (runAt .start) []).winOf 1) 0x40000000 .load with
      | .fault _ => true | _ => false) = true ∧
    (match reach (runMem (runAt .start) []) 1 [(1, winM)] vaTile.toNat .load with | .map _ => true | _ => false) = true ∧
    (runAt .start).cmask.testBit 0 = true ∧ (∀ p ∈ (runMem (runAt .start) []).runs, p.2.unit = some 0 → p.2.ectx ≠ 0) ∧
    (match fetchClause (runMem (runAt .going) nopClause) 1 [8, 4] [(0, win0)] 0x3000 true with | .ok _ _ ws => ws == [0x80e00000] | _ => false) = true ∧
    (match fetchClause (runMem (runAt .going) []) 1 [8, 4] [(0, win0)] 0x3000 true with
      | .fault _ .illegalClause _ _ _ => true | _ => false) = true ∧
    (runAt (.stall 0)).wait = .stall 0 ∧ (0 : Nat) ≤ (runMem (runAt (.stall 0)) []).now ∧
    (runAt (.release (some .ended))).wait = .release (some .ended) ∧ (runAt (.release none)).pend = none ∧
    (let m : MDesc := ⟨.plain, .store, .global, 4, false, 4, 1, 0, false⟩
     let x := { runAt (.release none) with unit := some (unitOf Pf.reset 0x40002000), pend := some (m, q0 0x2000) }
     (match runReach (runMem x []) x 0x2000 m.xkind with
      | .ok (s, sp) => (match runPerf s 4 x.unit sp m (q0 0x2000) with | .done _ f => f.psn.isNone | _ => false)
      | .error _ => false) = true) := by
  refine ⟨rfl, by decide +kernel, by decide +kernel, by decide +kernel, by decide, by decide, by decide +kernel, by decide +kernel, rfl, by decide, rfl, rfl,
    by decide +kernel⟩
theorem test_run_ends : gives (exec (.executorReleaseAcked 4) (runMem (runAt (.release (some .ended))) [])) (fun t => t.runs.isEmpty &&
    (smFind t.gangs 7).any fun g => slotOf g 0 == .ended) = true := by decide +kernel

/-! Witnesses: the fabric. -/

/-- A live port 5, peer 3 in tenant 0's table, export 0 of all of IA, a send entry and an arrival entry. -/
def port5 : Port := ⟨true, true, 0x0100, 0, 0, [], 0, 0, [(0, 0)], 0, 0⟩
def sendE : SendE := ⟨.opened, 2, 7, 9, 0⟩
def arrE (slots : SMap BSlot) : ArrE := ⟨1, .opened, false, 2, 7, slots, 1000, false, false⟩
def export0 : BitVec 128 := BitVec.ofNat 128 (2 ^ 24 - 1 + 2 ^ 106 + 15 * 2 ^ 124)
def fabSt (g : Gang) (e : Option SendE) (a : Option ArrE) : State :=
  let s := memSt g []
  { s with
    tenants := [(0, { s.tenant 0 with peers := [(0, 8)] })]
    pf := { s.pf with exports := [(0, export0)], peerid := 2 }
    fab := { Fabric.empty with
      ports := [(5, port5)]
      send := (match e with | some e => [(pairKey 1 0 3, e)] | none => [])
      arr := (match a with | some a => [(arrKey 3 1 0, a)] | none => []) } }
theorem fab_at {i : Instr} {g : Gang} {e : Option SendE} {a : Option ArrE} (hf : smFind g.frags 1 = some fr) (hl : legal i = true)
    (hs : fits g.regs g.tilesN g.accsN i = true) : Issues i (fabSt g e a) (iss g i) := issues_at rfl rfl hf hl hs
/-- FabricWords: RREL misaligned, to a peer not in the table, on a refused pair, and done; RFENCE with and without a response
outstanding; a plane. -/
theorem test_wit_FabricWords : Issues (.rrel u7 1 2 3) (fabSt (matG 3 0x2000 5) (some sendE) none) (iss (matG 3 0x2000 5) (.rrel u7 1 2 3)) ∧
    (0x2004 % 8 ≠ 0 ∧ 0x2000 % 8 = 0) ∧
    peerCheck (fabSt gang none none) 1 0 true 4 0x2000 = some (.remoteAccess, false) ∧
    peerCheck (fabSt gang (some { sendE with st := .refused }) none) 1 0 true 3 0x2000 = some (.streamOverrun, true) ∧
    peerCheck (fabSt gang (some sendE) none) 1 0 true 3 0x2000 = none ∧ lostDies (fabSt gang (some sendE) none) 0x300000 = false ∧
    smFind (fabSt gang (some sendE) none).fab.send (pairKey 1 0 3) = some sendE ∧ planeOf (fabSt gang none none) 3 0x2000 = some 5 ∧
    smFind (fabSt gang none none).fab.ports 5 = some port5 ∧ At (.rfence u7) gang ∧ At (.rfenceCnt u7 1 2) gang ∧
    (∃ p ∈ { inSt gang with ops := [(8, { memOp [] with resp := [q0 0] })] }.ops, p.2.gid = 7 ∧ p.2.entry = 1 ∧ p.2.resp ≠ []) ∧
    (∀ p ∈ (inSt gang).ops, p.2.gid = 7 → p.2.entry = 1 → p.2.resp = []) :=
  ⟨fab_at rfl rfl rfl, by decide, by decide +kernel, by decide +kernel, by decide +kernel, by decide +kernel, by decide +kernel,
    by decide +kernel, rfl, at_of rfl rfl rfl, at_of rfl rfl rfl, ⟨_, List.mem_singleton.2 rfl, rfl, rfl, by decide⟩,
    by intro p hp; cases hp⟩
theorem test_rrel_counts : gives (exec (.rrel u7 1 2 3) (fabSt (matG 3 0x2000 5) (some sendE) none)) (fun t =>
    smFind t.fab.send (pairKey 1 0 3) == some { sendE with bn := 8, wc := 0 } &&
      (t.fab.out.head?.any fun p => p.1 == 5 && p.2.type == 0x06 && p.2.count == 7 && p.2.payload.drop 8 == toBytes 4 9)) = true := by
  decide +kernel
/-- A flit from peer 3 for stream 0 of context 1, in batch 7. -/
def flt (type : BitVec 6) (addr : BitVec 48) (payload : List Byte) : Flit := ⟨type, 3, 2, 0, 1, 1, 2, 0, 0, 7, addr, payload⟩
/-- A flag for 0x2008 that closes a batch of n writes. -/
def flg (n : Nat) : Flit := flt 0x06 0x2008 (toBytes 8 5 ++ toBytes 4 n)
def askS : State := let s := fabSt memG none none
  { s with
    ops := [(8, { memOp [] with resp := [q0 0] })]
    fab := { s.fab with reqs := [(7, ⟨some 8, q0 0, 1, 3, 0x2000, 9, false, none, []⟩)] } }
/-- FlitsArrive: the port, the entry, a flag for an empty slot; a response's request; an NTC's pair. -/
theorem test_wit_FlitsArrive : Hears (fabSt gang (some sendE) (some (arrE []))) 5 (flt 0x01 0x2000 [1, 2, 3, 4]) port5 ∧
    Admitted (fabSt gang none (some (arrE []))) (flt 0x01 0x2000 [1, 2, 3, 4]) (arrE []) ∧ (arrE []).st = .opened ∧
    ((arrE []).slot 7).flag = none ∧ smFind askS.fab.reqs 7 = some ⟨some 8, q0 0, 1, 3, 0x2000, 9, false, none, []⟩ ∧
    smFind askS.ops 8 = some { memOp [] with resp := [q0 0] } ∧ (memOp []).kind = .mem ld4 ∧ (2 : BitVec 2) ≠ 1 ∧
    ([.fabricIncomplete, .streamOverrun, .remoteWriteFaulted] : List Code).all (fun c => decide (c.num < 256)) = true ∧
    smFind (fabSt gang (some sendE) none).fab.send (pairKey 1 0 3) = some sendE ∧ askS.now < 9 :=
  ⟨⟨rfl, rfl, by decide +kernel, rfl⟩, ⟨by decide +kernel, by decide +kernel, rfl, by decide +kernel⟩, rfl, rfl, rfl, rfl, rfl, by decide, by decide, rfl, by decide +kernel⟩
def inDone (r : InRes) : Bool := match r with | .done .. => true | _ => false
def wrSt (f : Flit) (slots : SMap BSlot) : State :=
  let s := fabSt gang none (some (arrE slots))
  { s with fab := { s.fab with writes := [(4, ⟨arrKey 3 1 0, f, 5⟩)] } }
/-- FlitsArrive: one request for the 16 bytes, answers of data, clean and poisoned, and of a status; a type that the table
has and one that it has not; an NTC's stream; a replay buffer at the tail of what was sent. -/
theorem test_wit_FlitsAnswered : smKeys (fun _ x => x.sameRead (some 8) 3 0x2000) askS.fab.reqs = [7] ∧
    4 < (flt 0x03 0x2000 (List.replicate 16 1)).payload.length ∧ (flt 0x03 0x2000 []).psn = 0 ∧
    { flt 0x03 0x2000 [] with psn := 1 }.psn = 1 ∧ leNat (flt 0x03 0x2000 (toBytes 4 1)).payload = 1 ∧
    leNat (flt 0x03 0x2000 (toBytes 4 2)).payload = 2 ∧ (flt 0x03 0x2000 (toBytes 4 2)).payload.length ≤ 4 ∧
    (flt 0x01 0 []).type.toNat ∈ flitTypes ∧ (flt 0x3e 0 []).type.toNat ∉ flitTypes ∧
    (flt 0x0c 0 [0x41, 0]).payload[1]? = some 0 ∧ (∀ w ∈ (wrSt (flg 2) []).fab.writes, w.2.flagOf (arrKey 3 2 0) = false) ∧
    (let s := fabSt gang none none
     let fs := [flg 1, flg 2]
     let s := s.setFab { s.fab with out := [(5, flg 3)] ++ fs.map fun f => (5, f) }
     (∀ f ∈ fs, f.type ≠ 0x3f) ∧ (flg 3).type ≠ 0x3f ∧ unsent s 5 fs.length = [(5, flg 3)]) := by decide +kernel
/-- FlitsArrive: an inbound write and a read performed; a flag that its slot's count admits, not yet admits, and one too old. -/
theorem test_wit_FlitsPerformed :
    inDone (performIn (wrSt (flt 0x01 0x2000 [1, 2, 3, 4]) []) 4 ⟨arrKey 3 1 0, flt 0x01 0x2000 [1, 2, 3, 4], 5⟩) = true ∧
    inDone (inRead 5 [10, 4] [(0x2000, 16)] (wrSt (flt 0x02 0x2000 []) []) [] false) = true ∧
    (∀ q ∈ (wrSt (flt 0x02 0x2000 []) []).fab.writes, ¬q.1 < 4) ∧
    (∀ q ∈ (arrE [(7, ⟨2, some (flg 2, 0, 5)⟩)]).slots, ∀ h, q.2.flag = some h → q.2.cnt ≤ flagCount h.1) ∧
    ((arrE [(7, ⟨2, some (flg 2, 0, 5)⟩)]).slot 7).flag = some (flg 2, 0, 5) ∧ (flg 2).type ≠ 0x0b ∧ flagCount (flg 2) = 2 ∧
    flagCount (flg 3) ≠ 2 ∧ inDone (storeFlag (wrSt (flg 2) []) 5 (flg 2) 5) = true ∧
    0 + 1000 * (arrE []).ftmo ≤ { inSt gang with now := 1000000 }.now ∧ 9 ≤ { askS with now := 9 }.now := by
  refine ⟨by decide +kernel, by decide +kernel, by decide +kernel, ?_, rfl, by decide, by decide +kernel, by decide +kernel,
    by decide +kernel, by decide, by decide⟩
  intro q hq h hf
  cases List.mem_singleton.1 hq
  cases hf
  decide +kernel
theorem test_write_counts : gives (exec (.writeCounted 4) (wrSt (flt 0x01 0x2000 [1, 2, 3, 4]) [])) (fun t =>
    (smFind t.fab.arr (arrKey 3 1 0)).any fun e => (e.slot 7).cnt == 1) = true := by decide +kernel
theorem test_flag_steps : gives (exec (.writeCounted 4) (wrSt (flt 0x01 0x2000 [1, 2, 3, 4]) [(7, ⟨1, some (flg 2, 0, 5)⟩)])) (fun t =>
    (smFind t.fab.arr (arrKey 3 1 0)).any fun e => e.nb == 8 && e.slots.isEmpty) = true := by decide +kernel
/-- StreamsAndResets: a command, the entries that it finds and does not; a reset asked for and its wait. -/
def scmd (rctx : BitVec 10) (ftmo : BitVec 20) : StreamCmd := ⟨1, 0, 3, rctx, ftmo, 0⟩
def waitR (ack : Bool) : Frag := { fr with st := .blocked, wait := .reset 1 0 3 2 50 ack }
def rstSt (ack : Bool) : State := let s := fabSt { gang with frags := [(1, waitR ack)] } (some sendE) none; { s with cur := .none }
theorem test_wit_Streams : (fabSt gang none none).pf.closing = none ∧ (scmd 0 0).rsv = 0 ∧
    (smFind (fabSt gang none none).ctxs (scmd 0 0).ctx.toNat).isSome = true ∧
    smFind (fabSt gang none none).fab.send ((1 * 16 + 0) * 512 + 3) = none ∧
    smFind (fabSt gang (some sendE) none).fab.send ((1 * 16 + 0) * 512 + 3) = some sendE ∧
    (fabSt gang none none).fab.send.length < Config.streamEntries ∧ (scmd 1 0).rctx ≠ 0 ∧
    ((15 : Nat) ≠ 0 ∧ 15 < 16) ∧ ((16 : Nat) ≤ 16 ∧ 16 ≤ 1000000) ∧ (scmd 0 1000001).ftmo.toNat = 1000001 ∧
    smFind (fabSt gang none (some (arrE []))).fab.arr (arrKey 3 1 0) = some (arrE []) ∧ (arrE []).owner = 1 ∧ (arrE []).closing = false ∧
    Hears (fabSt gang none (some (arrE []))) 5 (flt 0x08 0 [1]) port5 :=
  ⟨rfl, rfl, rfl, rfl, rfl, by decide, by decide, by decide, by decide, rfl, rfl, rfl, rfl, ⟨rfl, rfl, by decide +kernel, rfl⟩⟩
theorem test_wit_Resets : Issues (.rsreset u7 1 2 3) (fabSt (matG 16 3 0) (some sendE) none) (iss (matG 16 3 0) (.rsreset u7 1 2 3)) ∧
    PrivCtx (fabSt (matG 16 3 0) (some sendE) none) (matG 16 3 0) ∧ 2 ^ 14 ≤ (2 ^ 14 : Nat) ∧ (16 : Nat) < 2 ^ 14 ∧ (3 : Nat) < 2 ^ 9 ∧
    (match target gang (fabSt gang none none) 1 true with | .ok c => c.priv | .error _ => false) = true ∧
    (match target gang (fabSt gang none none) 2 true with | .ok _ => false | .error n => n == 1) = true ∧
    smFind (rstSt false).gangs 7 = some { gang with frags := [(1, waitR false)] } ∧ (waitR false).wait = .reset 1 0 3 2 50 false ∧
    50 ≤ { rstSt false with now := 50 }.now ∧ Hears (rstSt false) 5 (flt 0x09 0 [1, 0]) port5 ∧
    waiters (rstSt false) (fun _ w => match w with | .reset 1 0 3 _ _ false => true | _ => false) = [(7, 1)] ∧
    sendE.lastReset = 0 ∧ { sendE with lastReset := 40 }.lastReset ≠ 0 ∧ (rstSt true).now < 40 + 500000 :=
  ⟨fab_at rfl rfl rfl, ⟨_, rfl, by decide +kernel⟩, by decide, by decide, by decide, by decide +kernel, by decide +kernel, rfl, rfl, by decide,
    ⟨rfl, rfl, by decide +kernel, rfl⟩, by decide +kernel, rfl, by decide, by decide +kernel⟩
theorem test_reset_status : gives (exec (.rsresetHoldoffEnd 7 1) (rstSt true)) (fun t => (smFind t.gangs 7).any fun g =>
    gReg g 2 == 3 * 2 ^ 32) = true := by decide +kernel
/-- Links: the ninth failure, acknowledgements at both ends of the replay buffer, and offers at the bounds. -/
theorem test_wit_Links : smFind (fabSt gang none none).fab.ports 5 = some port5 ∧ port5.live = true ∧ port5.fails < 8 ∧
    8 ≤ { port5 with fails := 8 }.fails ∧
    (let x := { port5 with sent := 3, replay := [flg 1, flg 2] }
     (1 + 2 ^ 16 - (x.sent - x.replay.length) % 2 ^ 16) % 2 ^ 16 = 0 ∧ (3 + 2 ^ 16 - (x.sent - x.replay.length) % 2 ^ 16) % 2 ^ 16 = 2) ∧
    4096 ≤ { port5 with newFlits := 4096 }.newFlits ∧ (63 : Nat) < 64 ∧ (0x0100 : BitVec 16).toNat / 256 = 1 ∧
    State.reset.plat.live.getLsbD (ioDie 63) = true ∧ (5 : Nat) < 6 ∧ 2 ≤ 5 := by
  refine ⟨rfl, rfl, by decide, by decide, by decide, by decide, by decide, by decide, by decide +kernel, by decide, by decide⟩

/-! Witnesses: work. -/

/-- A launch header: one gang of 32 lanes, entry 0x3000, 32 registers, 1,024 bytes; counters at 0x2000. -/
def hdrOf1 (waiten sigen : Nat) : Hdr := BitVec.ofNat 1024
  (0x100 + 5 * 2 ^ 28 + 0x3000 * 2 ^ 64 + 31 * 2 ^ 128 + 32 * 2 ^ 192 + 1024 * 2 ^ 208 + waiten * 2 ^ 250 + sigen * 2 ^ 254 + 0x2000 * 2 ^ 448)
def launchSt (h : Hdr) (g : Gang) : State :=
  let s := memSt g []
  { s with
    tenants := [(0, { s.tenant 0 with cores := [(0, 3)] })]
    mem := { s.mem with frames := writeBytes s.mem.frames 0x40003000 (toBytes 128 h.toNat) } }
theorem launch_at {i : Instr} {h : Hdr} {g : Gang} (hf : smFind g.frags 1 = some fr) (hl : legal i = true)
    (hs : fits g.regs g.tilesN g.accsN i = true) : Issues i (launchSt h g) (iss g i) := issues_at rfl rfl hf hl hs
def signals (va : B64) : Nat := match addCounter (memSt gang []) 1 0 [5, 100] false va 5 with
  | .done _ => 1 | .fault _ c => if parksAs c then 2 else 3 | .wait _ => 4
/-- LaunchWords: LAUNCH misaligned, with its flag at 63, and queued; SIGNAL misaligned, missing its window, done and to be tried
again; FENCE at each scope. -/
theorem test_wit_LaunchWords : Issues (.launchG u7 1 2) (launchSt (hdrOf1 0 0) (matG 0 0x3000 0)) (iss (matG 0 0x3000 0) (.launchG u7 1 2)) ∧
    smGet gang.flags 1 0 < 63 ∧ 63 ≤ smGet full.flags 1 0 ∧ 0x3000 % 128 = 0 ∧ gang.lantern = false ∧
    (match readHdr (launchSt (hdrOf1 0 0) gang) 1 (some (9, 0)) [12, 7, 1] 0x3000 with
      | .ok s bs none => launchOk (BitVec.ofNat 1024 (leNat bs)) && decide (pendingIn s 0 0 < Config.queueDepth)
      | _ => false) = true ∧
    At (.signalG u7 0 1 2) (matG 0x2004 5 0) ∧ signals 0x2000 = 1 ∧ signals 0x40000000 = 2 ∧
    (match translate ((memSt gang []).winOf 1) 0x2000 (some .atomic) with | .ok (ia, _) => !isMap ia | .error _ => false) = true ∧
    (match translate ((memSt gang []).winOf 1) (2 ^ 36) (some .atomic) with | .error _ => true | _ => false) = true ∧
    At (.fenceG u7 1 0) gang ∧ At (.fenceG u7 0 5) gang ∧ At (.fenceG u7 2 8) gang ∧
    smFind { inSt gang with ops := [(8, (iss gang .nop).op false .launch)] }.ops 8 = some ((iss gang .nop).op false .launch) :=
  ⟨launch_at rfl rfl rfl, by decide, by decide, by decide, rfl, by decide +kernel, at_of rfl rfl rfl, by decide +kernel, by decide +kernel,
    by decide +kernel, by decide +kernel, at_of rfl rfl rfl, at_of rfl rfl rfl, at_of rfl rfl rfl, rfl⟩
def wfr (tgt : B64) : Frag := { fr with st := .blocked, wait := .counter 0x2000 tgt 2 }
def waitSt (data : List Byte) : State := { memSt { gang with frags := [(1, wfr 5)] } data with cur := .none }
def counterNow (data : List Byte) : Nat :=
  match readCounter (waitSt data) { gang with frags := [(1, wfr 5)] } 7 1 0x2000 with | .ok _ bs none => leNat bs | _ => 0
/-- LaunchWords: WAITGE at its target, below it, and poisoned; a retry that is due and one that is not. -/
theorem test_wit_LaunchWaits : Issues (.waitge u7 2 1 2) (launchSt 0 (matG 0x2000 5 0)) (iss (matG 0x2000 5 0) (.waitge u7 2 1 2)) ∧
    smFind (waitSt []).gangs 7 = some { gang with frags := [(1, wfr 5)] } ∧ (wfr 5).wait = .counter 0x2000 5 2 ∧ counterNow [5] = 5 ∧
    counterNow [4] = 4 ∧ counterNow [5, 0, 0, 0, 0, 0, 0, 128] = 2 ^ 63 + 5 ∧
    (let q : SigRetry := ⟨1, 0, 0x2000, 5, gangRec gang .pageNotPresent .async 0 0 0 0, 0, false⟩
     q.retryAt ≤ (memSt gang []).now ∧ (memSt gang []).now < { q with retryAt := 9 }.retryAt) :=
  ⟨launch_at rfl rfl rfl, rfl, rfl, by decide +kernel, by decide +kernel, by decide +kernel, by decide +kernel, by decide +kernel⟩
/-- LaunchWords: WAITGE on the on-chip map, in a resident slot's scratchpad and in an empty slot; where a fault terminates; and
where one parks. -/
theorem test_wit_WaitgePlaces :
    (match reach endSt 1 (endSt.winOf 1) (2 ^ 36 + 3 * 2 ^ 19 + 16) .load with
      | .map ia => (mapAt endSt (clusterOf endSt (some 5)) ia 8).isSome | _ => false) = true ∧
    (match reach endSt 1 (endSt.winOf 1) (2 ^ 36 + 9 * 2 ^ 19 + 16) .load with
      | .map ia => (mapAt endSt (clusterOf endSt (some 5)) ia 8).isNone | _ => false) = true ∧
    (match reach endSt 1 (endSt.winOf 1) (2 ^ 40) .load with | .fault c => !parksAs c | _ => false) = true ∧
    (match reach endSt 1 (endSt.winOf 1) 0x40000000 .load with | .fault c => parksAs c | _ => false) = true := by decide +kernel
theorem test_waitge_goes_on : gives (exec (.waitgeSatisfied 7 1) (waitSt [5])) (fun t => (smFind t.gangs 7).any fun g =>
    (smFind g.frags 1).any fun f => f.st == .ready && f.pc == 0x1008) = true := by decide +kernel
def lau (h : Hdr) : Launch := ⟨1, 0, 0, 0x3000, h, 1, false, 0, 0, 0, [], 0, [], [], false, 0⟩
def dispSt (l : Launch) : State := { launchSt l.hdr gang with gangs := [], wgs := [], launches := [(6, l)], cur := .none }
def polls (l : Launch) : Bool := match pollCounters 6 l ((List.range 4).filter (hWaiten l.hdr).testBit) (dispSt l) { l with retryAt := 0 } with
  | some (_, some (_, ok)) => ok | _ => false
/-- Dispatcher: eligible with and without counters; a placement; completion with and without signals; a Lantern gang. -/
theorem test_wit_Dispatcher : smFind (dispSt (lau (hdrOf1 1 0))).launches 6 = some (lau (hdrOf1 1 0)) ∧ polls (lau (hdrOf1 1 0)) = true ∧
    hWaiten (hdrOf1 0 0) = 0 ∧ hasWork (BitVec.ofNat 1024 ((hdrOf1 0 0).toNat + 2 ^ 245)) = false ∧
    (let l := { lau (hdrOf1 0 0) with eligible := true }
     lanternWaits (dispSt l) 0 = false ∧ coresOk (dispSt l) 0 [0] = true ∧ [0].length = hE l.hdr 2 ∧
     (takeCores (dispSt l) (hNeeds l.hdr) [0] [] []).isSome = true ∧ itemsBefore (dispSt l) (.fresh 6) = [] ∧
     (itemCores (dispSt l) (.fresh 6)).isSome = true) ∧ hE (hdrOf1 0 0) 0 ≤ 32 := by decide +kernel
theorem test_wit_Completes :
    (let l := { lau (hdrOf1 0 0) with eligible := true, nextCluster := 1 }
     launchDone (dispSt l) 6 l = true ∧ l.retryAt = 0 ∧ ctxRuns (dispSt l) 1 = true ∧ hSigen l.hdr = 0) ∧
    (let l := { lau (hdrOf1 0 2) with phase := 2, retryAt := 1 }
     (hSigen l.hdr).testBit 1 = true ∧ l.retryAt ≤ { dispSt l with now := 1 }.now ∧ hCounter l.hdr (hf l.hdr 576 32) = 0x2000 ∧
     (match addCounter { dispSt l with now := 1 } 1 0 [1, 6, 5] true 0x2000 0 with | .done s => smFind s.launches 6 == some l | _ => false) = true) := by
  decide +kernel
/-- Dispatcher: a write of the context to the pool still waits for its completion; a Lantern gang's context that is stopped. -/
theorem test_wit_Holds : writesOut { inSt gang with host := { State.reset.host with
      reqs := [(3, ⟨0x80, 2 ^ 49, 0, 1, 0, true, true, none, none, some (0, [1]), 9, none, 0, [], none⟩)] } } 1 = true ∧
    writesOut (inSt gang) 1 = false ∧ ctxRuns { inSt gang with ctxs := [(1, { ctx1 with stopped := true })] } 1 = false ∧
    ctxRuns (inSt gang) 1 = true := by decide +kernel
theorem test_place : gives (exec (.workgroupPlace (.fresh 6) [0]) (dispSt { lau (hdrOf1 0 0) with eligible := true })) (fun t =>
    (t.gangs.head?.any fun p => p.2.core == 0 && p.2.regs == 32 && p.2.live == 0xffffffff && smGet p.2.owid 31 0 == 31)) = true := by
  decide +kernel
/-- PlacedGangs: a gang that a placement makes, of 32 lanes and of one. -/
theorem test_wit_PlacedGangs : (match (placeCluster (dispSt (lau (hdrOf1 0 0))) 6 0 (lau (hdrOf1 0 0)) [0]).gangs with
    | [p] => (smFind (placeCluster (dispSt (lau (hdrOf1 0 0))) 6 0 (lau (hdrOf1 0 0)) [0]).gangs p.1).isSome && p.2.launchId == 1
    | _ => false) = true ∧ hE (hdrOf1 0 0) 0 = 32 ∧ hE (BitVec.ofNat 1024 ((hdrOf1 0 0).toNat - 31 * 2 ^ 128)) 0 = 1 := by decide +kernel
def lant : Hdr := BitVec.ofNat 1024 (0x100 + 5 * 2 ^ 28 + 0x3000 * 2 ^ 64 + 31 * 2 ^ 128 + 16 * 2 ^ 192)
theorem test_wit_Lantern : fld (launchSt lant gang).pf.lgcmd.toNat 61 2 ≠ 1 ∧ smFind (launchSt lant gang).ctxs 1 ≠ none ∧
    (match readHdr (launchSt lant gang) 1 none [13] (128 * 0x60) with
      | .ok s bs none => lanternOk (BitVec.ofNat 1024 (leNat bs)) && decide (lanternCount s 0 < 8) && fitsEmpty s 0 (hNeeds lant) 1
      | _ => false) = true ∧
    (takeCores (launchSt lant gang) (hNeeds lant) [1] [] []).isSome = true ∧ coresOk (launchSt lant gang) 0 [1] = true := by
  decide +kernel

/-! Witnesses: clauses. -/

def fetchSt (f : Frag) (code : List Byte) : State :=
  let s := memSt { gang with frags := [(1, f)] } []
  { s with cur := .none, mem := { s.mem with frames := writeBytes s.mem.frames 0x40003000 code } }
def fcold : Frag := { fr with clause := none, hdr := 0x3000, pc := 0x3000 }
def fetched (s : State) (hdr : B64) : Nat := match fetchClause s 1 [7, 7, 1] (s.winOf 1) hdr false with
  | .ok _ _ ws => ws.length | .fault _ _ _ _ true => 100 | .fault _ .illegalClause _ _ _ => 101 | .fault .. => 102 | .wait _ => 103
theorem test_wit_ClauseParts :
    (match readPart (fetchSt fcold nopClause) 1 none ([7, 7, 1] ++ [0]) ((fetchSt fcold nopClause).winOf 1) .fetch 0x3000 4 with
      | .ok s bs none => leNat bs == 0xa0ff0000 &&
        (match readPart s 1 none ([7, 7, 1] ++ [1]) ((fetchSt fcold nopClause).winOf 1) .fetch 0x3004 4 with
          | .ok _ ws none => wordsOk false (leNat bs) (wordsOf ws) | _ => false)
      | _ => false) = true ∧ wordsOk false 0xa0ff0000 [0x60000000] = false := by decide +kernel
/-- Clauses: fetched; illegal; not present; a window miss; the last word and another. -/
theorem test_wit_Clauses : smFind (fetchSt fcold nopClause).gangs 7 = some { gang with frags := [(1, fcold)] } ∧ fcold.st = .ready ∧
    fcold.clause = none ∧ gang.ending = none ∧ gang.held = false ∧ fetched (fetchSt fcold nopClause) 0x3000 = 1 ∧
    fetched (fetchSt fcold []) 0x3000 = 101 ∧ fetched (fetchSt fcold (toBytes 4 0xa0ff0000 ++ toBytes 4 (encode (.ldg u7 0 4 2 0)))) 0x3000 = 101 ∧
    fetched (fetchSt fcold []) 0x40000000 = 100 ∧ fetched (fetchSt fcold []) (2 ^ 36) = 102 ∧
    (1 : Nat) < ({ fcold with pc := 0x3008 }.pc - fcold.hdr).toNat / 4 ∧
    (let c : Clause := ⟨0x3000, 0xa0ff0010, [0x80e00000, 0x80e00000], false, false⟩
     (∀ k < 12, c.word.getLsbD (4 + k) = true → smGet gang.flags k 0 = 0) ∧
     ¬(∀ k < 12, c.word.getLsbD (4 + k) = true → smGet [(0, 1)] k 0 = 0) ∧ c.words.length ≤ 16 ∧ 1 + 1 = c.words.length ∧
     (0x3004 : B64) = c.hdr + BitVec.ofNat 64 (4 * (0 + 1))) := by
  refine ⟨rfl, rfl, rfl, rfl, rfl, by decide +kernel, by decide +kernel, by decide +kernel, by decide +kernel, by decide +kernel,
    by decide +kernel, by decide +kernel, by decide +kernel, by decide, rfl, by decide +kernel⟩
def fwarm : Frag := { fcold with clause := some ⟨0x3000, 0xa0ff0010, [0x80e00000], false, false⟩ }
/-- Clauses: flag 0 clear and set. -/
theorem test_wit_ClauseStart : smFind (fetchSt fwarm []).gangs 7 = some { gang with frags := [(1, fwarm)] } ∧
    smFind { gang with frags := [(1, fwarm)] }.frags 1 = some fwarm ∧ fwarm.st = .ready ∧ gang.ending = none ∧ gang.held = false ∧
    (∀ k < 12, (0xa0ff0010 : B32).getLsbD (4 + k) = true → smGet gang.flags k 0 = 0) ∧
    ¬(∀ k < 12, (0xa0ff0010 : B32).getLsbD (4 + k) = true → smGet [(0, 1)] k 0 = 0) := by
  refine ⟨rfl, rfl, rfl, rfl, rfl, by decide, by decide⟩
theorem test_clause_starts : gives (exec (.clauseFetch 7 1) (fetchSt fcold nopClause)) (fun t =>
    gives (exec (.clauseStart 7 1) t) fun t => (smFind t.gangs 7).any fun g => (smFind g.frags 1).any fun f => f.pc == 0x3004) = true := by
  decide +kernel

/-! Witnesses: privileged words. -/

/-- Context 1 is privileged, context 2 is another of tenant 0 with a parked gang; `kind` is what parked it. -/
def prk (kind : ParkKind) (res : Bool) : Parked := ⟨.trap, kind, 0, 0, 0x1004, 0, res⟩
def gang2 (kind : ParkKind) (res : Bool) : Gang :=
  { gang with ctx := 2, core := 1, slot := 4, wg := some 6, frags := [(1, { fr with st := .blocked, wait := .parked (prk kind res) })] }
def wg6 : Workgroup := { wg5 with ctx := 2, core := 1, gangs := [8] }
def ctx2 : Ctx := { ctx1 with csa := BitVec.ofNat 64 (0x8000 * 2 ^ 16 + 255 * 2 ^ 48) }
def privSt (g g2 : Gang) : State :=
  { memSt g [] with
    ctxs := [(1, { ctx1 with win := [(0, win0)] }), (2, ctx2)]
    gangs := [(7, g), (8, g2)]
    wgs := [(5, wg5), (6, wg6)] }
theorem priv_at {i : Instr} {g g2 : Gang} (hf : smFind g.frags 1 = some fr) (hl : legal i = true)
    (hs : fits g.regs g.tilesN g.accsN i = true) : Issues i (privSt g g2) (iss g i) := issues_at rfl rfl hf hl hs
def name8 : B64 := BitVec.ofNat 64 (2 + 1 * 2 ^ 10 + 4 * 2 ^ 21)
/-- PrivilegedAndResolve: an unprivileged context; FRESOLVE of a gang with one parked fragment, resolvable or not. -/
theorem test_wit_Privileged : privileged (.fresolve u7 1 2 3) = true ∧ At (.fresolve u7 1 2 3) { gang with ctx := 9 } ∧
    ¬PrivCtx (inSt { gang with ctx := 9 }) { gang with ctx := 9 } ∧
    Issues (.fresolve u7 1 2 3) (privSt (matG name8 2 0) (gang2 .trap true)) (iss (matG name8 2 0) (.fresolve u7 1 2 3)) ∧
    PrivCtx (privSt (matG name8 2 0) (gang2 .trap true)) (matG name8 2 0) ∧ name8.toNat < 2 ^ 25 ∧ 2 ^ 25 ≤ (2 ^ 25 : Nat) ∧ (2 : Nat) < 3 ∧
    (match target gang (privSt gang (gang2 .trap true)) 2 true with | .ok _ => true | _ => false) = true ∧
    smKeys (fun _ (t : Gang) => t.ctx == 2 && t.core == 1 && t.quarter == 0 && t.slot == 4 && t.ending.isNone)
      (privSt gang (gang2 .trap true)).gangs = [8] ∧
    parkedFrags (gang2 .trap true) = [(1, prk .trap true)] ∧ (prk .trap true).resolvable = true ∧ (prk .fetch true).kind = .fetch ∧
    (∃ q ∈ parkedFrags (gang2 .trap false), q.2.resolvable = false) ∧
    (smFind (replayAll 8 [(1, prk .trap true)] (acquireSi (privSt gang (gang2 .trap true)) 1)).gangs 8).isSome = true := by
  refine ⟨rfl, at_of rfl rfl rfl, ?_, priv_at rfl rfl rfl, ⟨_, rfl, rfl⟩, by decide +kernel, by decide, by decide, by decide +kernel,
    by decide +kernel, by decide +kernel, rfl, rfl, ⟨(1, prk .trap false), by decide +kernel, rfl⟩, by decide +kernel⟩
  rintro ⟨c, hc, -⟩
  revert hc
  simp [inSt, smFind, State.reset]
theorem test_fresolve_skips : gives (exec (.fresolve u7 1 2 3) (privSt (matG name8 1 9) (gang2 .trap true))) (fun t =>
    (smFind t.gangs 7).any (gReg · 3 == 0) && (smFind t.gangs 8).any fun g => (smFind g.frags 1).any fun f =>
      f.st == .ready && f.pc == 0x1008) = true := by decide +kernel
/-- SaveAndLoad: CTXSAVE of a context with work and a save area, of one with none, and of one with no area; the bound passed and
not; the save done. -/
theorem test_wit_Save : Issues (.ctxsave u7 1 2 3) (privSt (matG 2 1 0) (gang2 .trap true)) (iss (matG 2 1 0) (.ctxsave u7 1 2 3)) ∧
    (2 : Nat) < 1024 ∧ 1024 ≤ (1024 : B64).toNat ∧
    (match target gang (privSt gang (gang2 .trap true)) 2 false with | .ok c => c.saving.isNone | _ => false) = true ∧
    residentWgs (privSt gang (gang2 .trap true)) 2 = [(6, wg6)] ∧
    saveFree (privSt gang (gang2 .trap true)) 2 ctx2 + imageSize (privSt gang (gang2 .trap true)) (6, wg6) ≤ saveEnd ctx2 ∧
    saveEnd { ctx2 with csa := 0 } < saveFree (privSt gang (gang2 .trap true)) 2 { ctx2 with csa := 0 } +
      imageSize (privSt gang (gang2 .trap true)) (6, wg6) ∧
    residentWgs { privSt gang (gang2 .trap true) with wgs := [(5, wg5)] } 2 = [] := by
  refine ⟨priv_at rfl rfl rfl, by decide, by decide, by decide +kernel, by decide +kernel, by decide +kernel, by decide +kernel, by decide +kernel⟩
def saver : Gang := { gang with frags := [(1, { fr with st := .blocked, wait := .save 2 3 })] }
def savingSt (wgs : SMap Workgroup) : State :=
  { privSt saver (gang2 .trap true) with
    cur := .none, wgs := wgs, ctxs := [(1, { ctx1 with win := [(0, win0)] }), (2, { ctx2 with stopped := true, saving := some ⟨0, 100, false⟩ })] }
/-- SaveAndLoad: a context that is torn down, its bound passed and not. -/
theorem test_wit_Teardown : (let c := { ctx2 with teardown := some 100 }
    c.saving = none ∧ c.teardown = some 100 ∧ (savingSt []).now < 100 ∧ 100 ≤ { savingSt [] with now := 100 }.now ∧
      ctx2.teardown = none) := by decide +kernel
theorem test_wit_SaveDone : smFind (savingSt []).ctxs 2 = some { ctx2 with stopped := true, saving := some ⟨0, 100, false⟩ } ∧
    100 ≤ { savingSt [] with now := 100 }.now ∧ (savingSt []).now < 100 ∧ residentWgs (savingSt []) 2 = [] ∧
    (∀ p ∈ (savingSt []).runs, p.2.ctx ≠ 2) ∧
    waiters (savingSt []) (fun _ w => match w with | .save c _ => c == 2 | _ => false) = [(7, 1)] ∧
    residentWgs (savingSt [(6, wg6)]) 2 ≠ [] := by
  refine ⟨rfl, by decide, by decide +kernel, by decide +kernel, ?_, by decide +kernel, by decide +kernel⟩
  intro p hp; cases hp
def noGang2 : State := { privSt gang (gang2 .trap true) with gangs := [(7, gang)] }
def imgOk (s : State) (bad : Bool) : Bool := match readBlock s 1 (some (9, 0)) [14, 7, 1] (s.winOf 1) .load 0x2000 192 with
  | .ok s bs none => (List.range 8).all fun i =>
      let w := BitVec.ofNat 192 (leNat ((bs.drop (24 * i)).take 24)); winOk w && !winLost s w && (i != 0 || !bad)
  | _ => false
/-- SaveAndLoad: CTXLOAD with a reserved bit, of no context, of a window with a reserved bit, of a busy and of an idle context. -/
theorem test_wit_Load : Issues (.ctxload u7 1 2 3) (privSt (matG 0x10002 0x2000 0) (gang2 .trap true))
      (iss (matG 0x10002 0x2000 0) (.ctxload u7 1 2 3)) ∧
    0x10002#64 &&& ~~~0x103ff#64 = 0 ∧ 0x402#64 &&& ~~~0x103ff#64 ≠ 0 ∧
    (match target gang (privSt gang (gang2 .trap true)) 3 false with | .error n => n == 1 | _ => false) = true ∧
    imgOk (privSt gang (gang2 .trap true)) false = true ∧
    winOk (BitVec.ofNat 192 (2 ^ 180)) = false ∧ (∃ p ∈ (privSt gang (gang2 .trap true)).gangs, p.2.ctx = 2) ∧
    (∀ p ∈ noGang2.gangs, p.2.ctx ≠ 2) := by
  refine ⟨priv_at rfl rfl rfl, by decide, by decide, by decide +kernel, by decide +kernel, by decide +kernel, ?_, ?_⟩
  · exact ⟨(8, gang2 .trap true), by simp [privSt], rfl⟩
  · intro p hp
    cases List.mem_singleton.1 hp
    decide

/-! Witnesses: contexts, registers and translation commands. -/

/-- ContextsAndRegisters: create and destroy, present and absent, with work and without; core sets; the ends of each field. -/
theorem test_wit_Contexts : (512 : BitVec 10).toNat ≤ 512 ∧ 512 < (513 : BitVec 10).toNat ∧ (inSt gang).plat.recovery = false ∧
    ((inSt gang).tenant 512).enabled = true ∧ (smFind (inSt gang).ctxs (1 : BitVec 10).toNat).isSome = true ∧
    smFind (inSt gang).ctxs (2 : BitVec 10).toNat = none ∧ ctx1.lost = false ∧ (∃ p ∈ (inSt gang).gangs, p.2.ctx = 1) ∧
    ({ inSt gang with gangs := [] }.gangs = [] ∧ (inSt gang).runs = []) ∧ { ctx1 with lost := true }.lost = true :=
  ⟨by decide, by decide, rfl, by decide +kernel, rfl, rfl, rfl, ⟨(7, gang), List.mem_singleton.2 rfl, rfl⟩, ⟨rfl, rfl⟩, rfl⟩
/-- ContextsAndRegisters: a command while a DESTROY is busy; a run that lives; and the last arrival entry of a context. -/
def lastArr : State := let s := fabSt gang none (some { arrE [] with closing := true }); { s with pf := { s.pf with destroying := some 1 } }
theorem test_wit_Destroying : (inSt gang).pf.destroying = none ∧ lastArr.pf.destroying = some 1 ∧ (∃ p ∈ (runSt run4).runs, p.2.ctx = 1) ∧
    smFind lastArr.fab.arr (arrKey 3 1 0) = some { arrE [] with closing := true } ∧ lastArr.pf.closing = none ∧
    (∀ p ∈ lastArr.fab.arr, p.1 = arrKey 3 1 0 ∨ p.2.owner ≠ 1) ∧ (∀ q ∈ (arrE []).slots, q.2.flag = none) ∧
    (∀ w ∈ lastArr.fab.writes, w.2.flagOf (arrKey 3 1 0) = false) ∧ (∀ p ∈ (inSt gang).fab.arr, p.2.owner ≠ 1) ∧
    ctx1.teardown = none := by decide +kernel
theorem test_destroy_ends : gives (.next (settleEntry lastArr (arrKey 3 1 0))) (fun t => t.pf.destroying.isNone && t.ctxs.isEmpty &&
    fld t.pf.ctxstat.toNat 62 2 == 2) = true := by decide +kernel
theorem test_wit_Registers :
    (let t := { State.reset.tenant 2 with cores := [(0, 0xff)], strict := true }
     let s := { inSt { gang with ten := 1, core := 9 } with tenants := [(1, { t with cores := [(0, 0x200)], strict := false }), (2, t)] }
     (∃ p ∈ s.tenants, p.1 ≠ 1 ∧ smGet p.2.cores 0 0 &&& 0xff ≠ 0) ∧ ¬(∃ p ∈ s.tenants, p.1 ≠ 2 ∧ smGet p.2.cores 0 0 &&& 0xff00#64 &&& 0xff ≠ 0) ∧
     (∃ p ∈ s.gangs, p.2.ten = 1 ∧ p.2.core / 64 = 0 ∧ (0xff : B64).getLsbD (p.2.core % 64) = false) ∧
     ¬(∀ i < 8, (0x10 : B64).toNat / 2 ^ (8 * i) % 256 = 0 ∨ (0x10 : B64).toNat / 2 ^ (8 * i) % 256 = 255) ∧
     (∀ i < 8, (0xff00 : B64).toNat / 2 ^ (8 * i) % 256 = 0 ∨ (0xff00 : B64).toNat / 2 ^ (8 * i) % 256 = 255)) ∧
    (1 : B32).getLsbD 0 = true ∧ (255 : Nat) < 256 ∧ (4 ≤ 256 % 512 ∧ 256 % 512 ≤ 256) ∧ 256 < 257 % 512 ∧ 3 % 512 < 4 ∧
    (16 ≤ 1000000 % 2 ^ 20 ∧ 1000000 % 2 ^ 20 ≤ 1000000) ∧ (7 : Nat) < 8 ∧ smFind (inSt gang).ctxs 1 = some ctx1 := by
  refine ⟨by decide +kernel, by decide, by decide, by decide, by decide, by decide, by decide, by decide, rfl⟩
theorem test_lease_bounds : gives (exec (.registerWrite (.lease 1) 256) State.reset) (fun t => (t.tenant 1).lmax == 256) = true ∧
    gives (exec (.registerWrite (.lease 1) 257) State.reset) (fun t => (t.tenant 1).lmax == 32) = true := by decide +kernel
/-- R212: for 256 us after a decrease records are counted with the larger value; R211: an evicted record counts from then. -/
theorem test_lease_decrease : gives (exec (.registerWrite (.lease 1) 16) { State.reset with now := 7 }) (fun t =>
      (t.tenant 1).lmax == 16 && (t.tenant 1).counted 256006 == 32 && (t.tenant 1).counted 256007 == 16) = true ∧
    gives (perform (.dropLease 3) { State.reset with now := 9, mem := { State.reset.mem with leases := [(3, ⟨1, 5, 0⟩)] } }) (fun t =>
      t.mem.leases == [(3, ⟨1, 32009, 0⟩)]) = true := by decide +kernel
/-- A slot for command `op` on the 1 GiB page at 0, tenant 0, home die 0; pages of 2 MiB for SPLIT. -/
def cmd1 (op sz arg : Nat) (st : CmdStage) : CmdSlot :=
  let c := BitVec.ofNat 64 (op * 2 ^ 60 + sz * 2 ^ 58 + 2 ^ 48)
  ⟨c, 0x200000, BitVec.ofNat 64 arg, 0, st, c, 0x200000, BitVec.ofNat 64 arg⟩
def cmdSt (x : CmdSlot) : State := let s := memSt gang []; { s with pf := { s.pf with slots := [(0, x)], exports := [(0, export0)] } }
def busy1 (x : CmdSlot) : CmdSlot := { x with stat := 2 ^ 62 }
def leaf0 : Nat := 0x0078000040000003
/-- TranslationCommands: a start on a busy slot, with a reserved field, on a page another slot has, on the right leaf, on another. -/
theorem test_wit_CommandStart : (busy1 (cmd1 0 2 0 .idle)).stat.toNat / 2 ^ 62 = 1 ∧ (cmd1 0 2 0 .idle).stat.toNat / 2 ^ 62 ≠ 1 ∧
    (0 * 2 ^ 60 + 3 * 2 ^ 58) / 2 ^ 58 % 4 = 3 ∧ 512 < (513 * 2 ^ 36) / 2 ^ 36 % 1024 ∧
    cmdOverlap { cmdSt (cmd1 0 2 0 .idle) with pf := { (cmdSt (cmd1 0 2 0 .idle)).pf with slots := [(0, cmd1 0 2 0 .idle), (15, busy1 (cmd1 0 0 0 .idle))] } }
      0 (cmd1 0 2 0 .idle) = true ∧
    cmdOverlap (cmdSt (cmd1 0 2 0 .idle)) 0 (cmd1 0 2 0 .idle) = false ∧ isFrame (cIa (cmd1 5 0 0 .idle)) = true ∧
    cIa (cmd1 5 0 0 .idle) % 2 ^ cSh (cmd1 5 0 0 .idle) = 0 ∧
    (match walk (cmdSt (cmd1 0 2 0 .idle)) (cIa (cmd1 0 2 0 .idle)) with
      | .ok (e, sh, a) => e == leaf0 && sh == cSh (cmd1 0 2 0 .idle) && a == (cmd1 0 2 0 .idle).rpte.toNat && sh != cSh (cmd1 0 0 0 .idle)
      | .error _ => false) = true := by decide +kernel
/-- TranslationCommands: a leaf that R208 does not allow; a translation that a holder keeps, and how it answers; a late request. -/
def heldSt : State := let s := memSt gang []
  { s with mem := { s.mem with held := [(heldKey 3 0x2000 30, ⟨BitVec.ofNat 64 leaf0, 30, 50⟩)] } }
theorem test_wit_Held : leafOk Pf.reset leaf0 30 = true ∧ leafOk Pf.reset (leaf0 + 7 * 2 ^ 61) 30 = false ∧
    heldLeaf heldSt 3 0x2000 = some ⟨BitVec.ofNat 64 leaf0, 30, 50⟩ ∧
    passes (some .load) 0x2000 ⟨BitVec.ofNat 64 leaf0, 30, 50⟩ = true ∧
    (match lookup { heldSt with pf := Pf.reset } 3 0 0x2000 (some .load) with | .ok (_, p) => p.at_ == 0x40002000 | .error _ => false) = true ∧
    (match lookup { heldSt with pf := Pf.reset } 4 0 0x2000 (some .load) with | .ok _ => false | .error _ => true) = true ∧
    ((0 : Nat) < 1) := by decide +kernel
/-- TranslationCommands: each operation on its leaf. -/
theorem test_wit_CommandPage : cOp (cmd1 0 2 1 .idle) = 0 ∧ leaf0 / 2 ^ 61 % 8 = 0 ∧ cOp (cmd1 1 2 leaf0 .idle) = 1 ∧ leaf0 % 4 = 3 ∧
    leafOk (memSt gang []).pf leaf0 30 = true ∧ cOp (cmd1 2 2 (2 ^ 36) .idle) = 2 ∧ isFrame (2 ^ 36) = true ∧ 2 ^ 36 % 2 ^ cSh (cmd1 2 2 (2 ^ 36) .idle) = 0 ∧
    cOp (cmd1 3 1 0x4000 .idle) = 3 ∧ cSh (cmd1 3 1 0x4000 .idle) = 21 ∧ isFrame 0x4000 = true ∧ cOp (cmd1 4 2 0 .idle) = 4 ∧
    (leaf0 + 2 ^ 61 + 3 * 2 ^ 40) / 2 ^ 61 % 8 = 1 ∧ exportOf (cmdSt (cmd1 4 2 0 .idle)).pf 0 = some (0, 0) := by decide +kernel
/-- TranslationCommands: lease waits over and not, and what follows; the other stages. -/
theorem test_wit_CommandStages :
    (let x := cmd1 0 2 1 (.leases 0 (BitVec.ofNat 64 leaf0))
     x.stage = .leases 0 (BitVec.ofNat 64 leaf0) ∧ (cmdSt x).now ≤ 0 ∧ 0 < { cmdSt x with now := 1 }.now ∧
     (match invalidate (cmdSt x) (cIa x) (cSh x) (cHome x) (cTen x) leaf0 with | .ok _ => true | .error _ => false) = true ∧
     x.rarg = 1 ∧ leaf0 / 2 ^ 61 < 2) ∧ updateInvalidates leaf0 (leaf0 + 2 ^ 59) = true ∧
    (cmd1 2 2 0 (.copying 0)).stage = .copying 0 ∧ (cmd1 5 0 0 (.scrubbing 0 65536)).stage = .scrubbing 0 65536 ∧
    (cmd1 4 2 0 (.twin 5)).stage = .twin 5 ∧ 5 ≤ { cmdSt slot0 with now := 5 }.now := by decide +kernel
def twin1 (ia : Nat) : CollapseMsg := ⟨⟨5, 0⟩, 3, 0, ia, 2, 1, 0, 0, 0⟩
def twinSt : State := let s := memSt gang []
  { s with mem := { s.mem with frames := writeBytes tables 0x200000 (toBytes 8 (leaf0 + 2 ^ 61 + 3 * 2 ^ 40)) } }
theorem test_wit_Twins : List.find? (fun p : Nat × TwinJob => p.2.m == twin1 0) twinSt.mem.twins = none ∧
    (match walk twinSt (2 ^ 30) with | .error _ => true | _ => false) = true ∧
    (match walk twinSt 0 with | .ok (e, sh, _) => e / 2 ^ 61 % 8 == 1 && e / 2 ^ 40 % 512 == 3 && sh == 30 | _ => false) = true ∧
    Memory.wf twinSt.mem.frames = true ∧ (match lookup twinSt 0 0 0 (some .load) with | .ok _ => true | _ => false) = true ∧
    twinSt.now ≤ 0 ∧ 3 < { twinSt with now := 4 }.now := by decide +kernel
theorem test_wit_Profiles : (2 : Nat) < 3 ∧ 2 ≤ (7 : BitVec 3).toNat ∧ gfFull ((List.range 24).map (staged State.reset.pf 2)) [] = true ∧
    (∀ q ∈ State.reset.pf.region, q.1 / 128 = 2 → q.2.toNat % 8 ≠ 7) ∧ ¬2 ≤ (1 : BitVec 3).toNat := by
  refine ⟨by decide, by decide, by decide +kernel, ?_, by decide⟩
  intro q hq; cases hq
theorem test_split_done : gives (exec (.splitPage 0 (BitVec.ofNat 60 (2 ^ 58 + 2 ^ 48))) (cmdSt slot0)) (fun t =>
    (cmdSlot t 0).stat.toNat / 2 ^ 56 == 3 * 64 + 1) = true := by decide +kernel

/-! Witnesses: the platform. -/

/-- Dies: a socket that is live and one that is not. -/
theorem test_wit_LiveDies : State.reset.plat.live.getLsbD 21 = true ∧ { State.reset.plat with live := 1 }.live.getLsbD 21 = false := by
  decide +kernel
/-- Dies: every socket, a live context that has touched one, an island that is off, and the bounds of temperature and power. -/
theorem test_wit_Dies : (21 : Nat) < 22 ∧ 22 ≤ (22 : BitVec 5).toNat ∧ (21 : BitVec 5).toNat < 22 ∧
    (∃ p ∈ { inSt gang with ctxs := [(1, { ctx1 with dies := 1 })] }.ctxs, p.2.lost = false ∧ p.2.dies.getLsbD 0 = true) ∧
    (∀ p ∈ (inSt gang).ctxs, p.2.lost = true ∨ p.2.dies.getLsbD 0 = false) ∧ (∀ i ∈ islandsOf 0, (island (inSt gang) i).off = false) ∧
    (let s := { inSt gang with plat := { (inSt gang).plat with islands := [(1, ⟨true, 1200⟩)], temps := [(0, 96), (1, 95)], power := 3401, cap := 3400 } }
     (∃ i ∈ islandsOf 0, (island s i).off = true) ∧ 95 < smGet s.plat.temps 0 0 ∧ smGet s.plat.temps 1 0 ≤ 95 ∧ s.plat.cap < s.plat.power) ∧
    (inSt gang).plat.power ≤ (inSt gang).plat.cap := by decide +kernel
theorem test_throttle_floor : gives (exec (.thermalThrottleStep 0) { inSt gang with
    plat := { (inSt gang).plat with islands := [(0, ⟨false, 410⟩)], hot := [(0, true)] } }) (fun t =>
    (island t 0).mhz == 400 && (island t 1).mhz == 1175 && (island t 2).mhz == 1200) = true := by decide +kernel
/-- Management: the bounds of the cap, both slots, every code; and an image that boots, given a signature that verifies. -/
theorem test_wit_Management : (1500 ≤ 1500 ∧ 3400 ≤ 3400) ∧ 1499 < 1500 ∧ 3400 < 3401 ∧ State.reset.plat.running = 0 ∧
    { State.reset.plat with running := 1 }.running ≠ 0 ∧ (1 : BitVec 8) ≠ 0 ∧ 7 ≤ (7 : BitVec 8).toNat ∧ (1 : Nat) < 2 ∧
    (∀ x : FwImage, ∀ p : Platform, x.keyHash = p.keyHash → p.rollback ≤ x.secver →
      Config.mldsaVerify x.keyHash (Config.sha3 x.bytes) x.sig = true → imageOk p x = true) ∧
    (∀ x : FwImage, ∀ p : Platform, x.keyHash ≠ p.keyHash → imageOk p x = false) := by
  refine ⟨by decide, by decide, by decide, rfl, by decide, by decide, by decide, by decide, ?_, ?_⟩
  · intro x p h r v; simp [imageOk, h ▸ v, h, r]
  · intro x p h; simp [imageOk, h]

/-! Witnesses: the host and the pool. -/

/-- Port 1's window 0 maps host addresses below 2^30 to IA, home die 0; port 1 runs CXL 3.1. -/
def hostSt (data : List Byte) : State :=
  let s := memSt gang data
  { s with
    pf := { s.pf with hdmw := [(8, BitVec.ofNat 128 ((2 ^ 14 - 1) * 2 ^ 40 + 2 ^ 109 + 2 ^ 120))] }
    host := { s.host with ports := [(1, ⟨true, 0x0301, 64, 16, 256, false, 0⟩), (2, ⟨true, 0x0301, 64, 16, 256, false, 0⟩)] } }
/-- A read served (2, or 3 with other data), one refused (1), and one that waits (0). -/
def fetchIn (s : State) (hpa len : Nat) : Nat := match hostFetch 1 9 (cutHalves (len / 64 + 2) hpa len) s [] false with
  | .wait .. => 0 | .refused _ => 1 | .done _ bs _ => if bs.head? == some 9 then 2 else 3
def storeIn (s : State) (hpa : Nat) (bs : List Byte) : Nat :=
  match hostStore 1 9 (cutHalves (bs.length / 64 + 2) hpa bs.length) bs 0 s with
  | .wait _ n => n | .refused _ => 1000 | .done .. => 2000
def fetch1 (hpa len : Nat) : Nat := fetchIn (hostSt [9]) hpa len
def poolLine : L2Line := ⟨List.replicate 128 0, 0, 0, .pool 0, 1, 0, .e, .s, 0, 0, false⟩
def cxl1 (direct : Bool) : CxlReq := ⟨0x80, 2 ^ 49, 0, 1, 0, true, direct, some 8, some (q0 0x2000), none, 9, none, 0, [], none⟩
/-- HostAndPool: a read served, refused, and of whole halves under CXL 3.1; a write in and out of the window; a snooped half. -/
theorem test_wit_Host : fetch1 0x2000 64 = 2 ∧ fetch1 (2 ^ 30) 64 = 1 ∧ (hport (hostSt []) 1).cxl = 0x0301 ∧ 0x2000 % 64 = 0 ∧ 65 % 64 ≠ 0 ∧
    (hostPlace (hostSt []) 1 (2 ^ 30) .store).isNone = true ∧ (hostPlace (hostSt []) 1 0x2000 .store).isSome = true ∧
    storeIn (hostSt []) 0x2000 [1, 2, 3, 4] = 2000 ∧ storeIn (refreshing (hostSt [])) 0x2000 [1, 2, 3, 4] = 0 ∧
    fetchIn (refreshing (hostSt [])) 0x2000 64 = 0 ∧
    smFind { hostSt [] with mem := { (hostSt []).mem with snooping := [(0x80, 0x40002000)] } }.mem.snooping 0x80 = some 0x40002000 ∧
    smKeys (fun k l => keyLine k == 0x80 / 2 && l.under == .frame (0x40002000 / 128 * 128)) (hostSt []).mem.l2 = [] ∧
    poolKey (hostSt []) 0x80 = none ∧
    (let s := { hostSt [] with mem := { (hostSt []).mem with l2 := [(homeKey 0x2000 1, poolLine)] } }
     poolKey s 0x80 = some (homeKey 0x2000 1) ∧ poolKey s 0x81 = some (homeKey 0x2000 1)) ∧ poolLine.half 0 ≠ .i ∧ poolLine.half 1 = .s := by
  decide +kernel
theorem test_wit_Pool : (let s := { hostSt [] with host := { (hostSt []).host with reqs := [(3, cxl1 true), (4, cxl1 false)] } }
     smFind s.host.reqs 3 = some (cxl1 true) ∧ smFind s.host.reqs 4 = some (cxl1 false) ∧ s.now < 9 ∧ 9 ≤ { s with now := 9 }.now) ∧
    (cxl1 true).ans = none ∧ (cxl1 true).direct = true ∧ (cxl1 false).direct = false ∧ (cxl1 true).op = some 8 ∧
    (cxl1 true).lane = some (q0 0x2000) ∧ (cxl1 true).write = none := by decide +kernel
/-- HostAndPool: an answer that fills its half, and one that must wait for a way that a snooped line holds; a direct read, one
of an issue, and a direct write. -/
def cxlR (w : Option (Nat × List Byte)) : CxlReq := { cxl1 true with excl := false, write := w }
def fills (s : State) (q : CxlReq) : Bool := match fillHalf s q (List.replicate 64 0) false with | .ok _ => true | .error _ => false
def heldWays : State := let s := hostSt []
  let k := (cxl1 false).key
  { s with mem := { s.mem with
    l2 := (List.range 16).map fun w => (lineKey (keyUnit k) (keyLine k + 32768 * (w + 1)), { line0 with way := w })
    hostBits := (List.range 16).map fun w => ((keyLine k + 32768 * (w + 1)) * 2, 0) } }
theorem test_wit_Fills : fills (hostSt []) (cxl1 false) = true ∧ fills heldWays (cxl1 false) = false ∧
    smKeys (fun _ y => y.sameRead (cxlR none)) { (hostSt []).host with reqs := [(3, cxlR none)] }.reqs = [3] ∧
    (cxlR none).excl = false ∧ (cxlR (some (0, [1]))).write = some (0, [1]) ∧ (cxlR (some (0, [1]))).op = some 8 := by decide +kernel
theorem test_host_read : gives (exec (.hostRead 1 0x2000 64) (hostSt [9])) (fun t => t.host.out.any fun o =>
    o.1 == 8 && o.2.1 == 0x2000 && o.2.2.1.take 2 == [9, 0]) = true := by decide +kernel

/-! Witnesses: faults. -/

def rec1 (g : Option (Nat × Nat × Nat)) : Rec := ⟨.permission, .parked, 1, 7, g, 0x1004, 5, 1, 0x2000, 0, 0, 0, false, none⟩
def queued (ctl : B32) (pending : List Rec) : State :=
  { inSt gang with ctxs := [(1, { ctx1 with fqctl := ctl, fqbase := 0x10000, pending := pending })] }
/-- FaultPosting: the bounds of each field; a queue with room, a disabled one, and one with eight records pending. -/
theorem test_wit_FaultPosting : ((rec1 none).tkind < 64 ∧ (rec1 none).sock < 256 ∧ 1023 < 1024 ∧ 1 < 2) ∧
    (∀ core quarter slot, (rec1 (some (511, 3, 15))).gang = some (core, quarter, slot) → core < 512 ∧ quarter < 4 ∧ slot < 16) ∧
    (rec1 none).gang = none ∧ (rec1 none).owner = none ∧
    (smFind (queued 0x84000000 []).ctxs 1 = some { ctx1 with fqctl := 0x84000000, fqbase := 0x10000, pending := [] }) ∧
    (0x84000000 : B32).getLsbD 31 = true ∧ ((0x84000000 : B32).toNat / 2 ^ 24 % 32 = 4 ∧ (ctx1.fqtail - ctx1.fqhead).toNat ≠ 2 ^ 4) ∧
    (0x04000000 : B32).getLsbD 31 = false ∧ ([] : List Rec).length < 8 ∧ 8 ≤ (List.replicate 8 (rec1 none)).length := by
  refine ⟨by decide, ?_, rfl, rfl, rfl, by decide, by decide, by decide, by decide, by decide⟩
  rintro _ _ _ h; cases h; decide
theorem test_wit_Hosted : recHosted (queued 0x84000000 []) { ctx1 with fqctl := 0x84000000, fqbase := 0x10000 } = none ∧
    (let s := queued 0x84000000 []
     let s := { s with mem := { s.mem with
       l2 := [(lineKey 0 0x200, { line0 with under := .frame 0x10000 })], hostBits := [(0x400, 0x10000)] } }
     recHosted s { ctx1 with fqctl := 0x84000000, fqbase := 0x10000 } ≠ none) := by decide +kernel
theorem test_post : gives (.next (postRec (queued 0x84000000 []) 1 (rec1 none))) (fun t =>
    readBytes t.mem.frames 0x10000 1 == [BitVec.ofNat 8 Code.permission.num] && (smFind t.ctxs 1).any (·.fqtail == 1)) = true := by decide +kernel
/-- TakingAFault: a disabled queue, a workgroup, a workgroup already saved away, and a context that is gone. -/
theorem test_wit_TakingAFault : smFind (inSt gang).gangs 7 = some gang ∧ smFind gang.frags 1 = some fr ∧
    smFind (inSt gang).ctxs gang.ctx = some ctx1 ∧ ctx1.fqctl.getLsbD 31 = false ∧ ctx1.pending.length < 8 ∧
    smFind { inSt gang with ctxs := [] }.ctxs gang.ctx = none ∧ gang.wg = some 5 ∧ smFind (inSt gang).wgs 5 = some wg5 ∧
    { gang with wg := none }.wg = none ∧ (∀ p ∈ (inSt gang).ops, p.2.gid = 7 → p.2.parked = false) ∧ 7 ∈ wg5.gangs := by
  refine ⟨rfl, rfl, rfl, by decide, by decide, rfl, rfl, rfl, rfl, ?_, by decide⟩
  intro p hp; cases hp
theorem test_park : gives (.next (park (inSt gang) 7 1 .pageNotPresent (.op 8) 0x1004 5 1 0x2000)) (fun t =>
    (smFind t.gangs 7).any fun g => (smFind g.frags 1).any fun f => f.st == .blocked && f.pc == 0x1004) = true := by decide +kernel
theorem test_terminate : after (.next (terminate (inSt gang) 7 .misaligned 0x1004 5 1 0x2000)) (fun g => g.ending == some .fault) = true := by
  decide +kernel

/-! Witnesses: the further clauses. -/

/-- DivergentBranch: slice 0 has lanes of both kinds, slice 1 takes the branch wholly, the others not at all. -/
def mixed : Gang := { lanes with p := [(1, 0x000000f5)] }
theorem test_wit_BranchSplits : At (.dbr 1 0 4) mixed ∧ smFind mixed.frags 0 = none ∧ (∀ k < 0, (smFind mixed.frags k).isSome = true) ∧
    (let tk := activeLanes mixed fr &&& guardLanes mixed ⟨1, 0⟩
     (tk >>> 0).setWidth 4 = 5#4 ∧ (tk >>> 4).setWidth 4 = 15#4 ∧ (tk >>> 8).setWidth 4 = 0#4) :=
  ⟨at_of rfl rfl rfl, rfl, by decide, by decide⟩
theorem test_branch_splits : after (exec (.dbr 1 0 4) (inSt mixed)) (fun g => g.frags.length == 2 &&
    ((smFind g.frags 1).any fun f => f.smask == 3) && (smFind g.frags 0).any fun f => f.smask == 0xfc && f.pc == 0x100c) = true := by
  decide +kernel
/-- Fusion: a donor that is emptied, a partner that has ended, and one of two that has. -/
def fuseEnded : State := { fuseSt with gangs := [(7, fuser true 0 1 0x0000ffff), (8, { fuser false 1 0 0x000000ff with ending := some .fault })] }
theorem test_wit_FusionEnds : (fuseMove (fuser true 0 1 0x0000ffff) (fuser false 1 0 0x000000ff) 7).2.live = 0 ∧
    partner fuseEnded (fuser true 0 1 0x0000ffff) 1 = some 8 ∧
    smFind fuseEnded.gangs 8 = some { fuser false 1 0 0x000000ff with ending := some .fault } := ⟨by decide +kernel, by decide +kernel, rfl⟩
theorem test_fuse_empties : gives (exec (.gfuseComplete 7 8) fuseSt) (fun t => ((smFind t.gangs 8).any (·.ending == some .exit)) &&
    (smFind t.gangs 7).any fun g => g.live == 0x00ffffff) = true := by decide +kernel
/-- BarrierWords: a barrier that a plain store has left full. -/
theorem test_wit_BarrierSettles : barFlip (barGet (barSt (2 ^ 64 + 2 ^ 80) gang) 5 16) ≠ barGet (barSt (2 ^ 64 + 2 ^ 80) gang) 5 16 ∧
    bErr (barGet (barSt (2 ^ 64 + 2 ^ 80) gang) 5 16) = false := by decide +kernel
theorem test_barwait_settles : gives (exec (.barwait u7 1 2) (barSt (2 ^ 64 + 2 ^ 80) (barG 16 0))) (fun t => bPh (barGet t 5 16) &&
    (smFind t.gangs 7).any fun g => (smFind g.frags 1).any fun f => f.st == .ready) = true := by decide +kernel
/-- CachesAndFrames: a line that the core holds, and one that another core has written. -/
def l1Line (home : Nat) (pa : Nat) (dirty : BitVec 128) : L1Line := ⟨List.replicate 128 3, dirty, 0, false, home, .frame pa, 0⟩
theorem test_wit_CacheLines : (l1Line 0 0 1).bytes.length = 128 ∧
    (let m := { Mem.empty with l1 := [(lineKey 1 0x40, l1Line 0 0 1)] }
     smFind m.l1 (lineKey 0 0x40) = none ∧ { line0 with dir := 1 }.dir.getLsbD (keyUnit (lineKey 1 0x40) / 8) = true ∧
     (l1Line 0 0 1).dirty.getLsbD 0 = true ∧ ¬(l1Line 0 0 1).dirty.getLsbD 1 = true) := by decide +kernel
/-- CopyCommands: a template whose memory is not ready. CopyChunks: the chunk in flight of a discarded workgroup's copy. -/
def lastCopy : Copy := { copyOf tmpl1 with last := true, moved := [(0, 1)] }
theorem test_wit_CopyWaits : (0x3000 : Nat) % 64 = 0 ∧
    (match readBlock (refreshing2 (copySt tmpl1)) 1 (some (9, 0)) [6, 7, 1] ((copySt tmpl1).winOf 1) .load 0x3000 64 with
      | .wait _ => true | _ => false) = true ∧
    chunkOpen lastCopy 0 = true ∧ chunkOpen lastCopy 1 = false ∧
    (match movePieces lastCopy 9 0 ((chunkPieces lastCopy 0).drop 1) 1 (copyAt tmpl1) with | .done _ => true | _ => false) = true := by
  decide +kernel
/-- A state in which IA 0 is a page of peer 3, and whose pair with it has counted so many writes. -/
def farSt (n : Nat) (g : Gang) : State :=
  let s := memSt g []
  { s with
    mem := { s.mem with frames := writeBytes tables 0x200000 (toBytes 8 (3 + 3 * 2 ^ 8 + 15 * 2 ^ 51 + 3 * 2 ^ 61)) }
    tenants := [(0, { s.tenant 0 with peers := [(0, 8)] })]
    fab := { Fabric.empty with send := [(pairKey 1 0 3, ⟨.opened, 0, 0, BitVec.ofNat 32 n, 0⟩)] } }
/-- MatrixIssues, LaunchWords: MSTT's rows and SIGNAL's add at a pair's bound and below it. -/
theorem test_wit_FarBound : rowFault (farSt (2 ^ 30) gang) gang true (rowWords (vaRows 0x2000 64) (tileByte gang 0)) = none ∧
    pastBound (farSt (2 ^ 30) gang) gang (rowDesc (.mstt 0) 0) (rowWords (vaRows 0x2000 64) (tileByte gang 0)) = true ∧
    pastBound (farSt 0 gang) gang (rowDesc (.mstt 0) 0) (rowWords (vaRows 0x2000 64) (tileByte gang 0)) = false ∧
    pastBound (farSt (2 ^ 30) gang) gang signalDesc [⟨0, 0x2000, 0, 0, 0⟩] = true ∧
    pastBound (farSt 0 gang) gang signalDesc [⟨0, 0x2000, 0, 0, 0⟩] = false ∧
    (match translate ((farSt 0 gang).winOf 1) 0x2000 (some .atomic) with | .ok (ia, _) => !isMap ia | .error _ => false) = true := by
  decide +kernel
/-- MatrixIssues: every matrix word, of a gang that is not whole; and what holds each. -/
def part1 : Gang := { gang with live := 1 }
theorem test_wit_MatrixHeld : At (.mza u7 3) part1 ∧ At (.mma u7 0 1 0 1 2) part1 ∧ At (.mmag u7 1 1 0 2 1) part1 ∧ At (.mldt u7 1 1 15 0) part1 ∧
    At (.mrdaTile u7 0 1 0 15) part1 ∧ At (.mrdaScratch u7 0 1 0 2) part1 ∧ At (.mstt u7 0 1 0 0) part1 ∧ convergent part1 fr = false ∧
    gangMats { inSt part1 with ops := [(8, matOp (.mza 1))] } 7 ≠ [] ∧
    writesSp { inSt part1 with ops := [(8, matOp (.mrdaS 0 0 8 0 false 0 64))] } 7 = true :=
  ⟨at_of rfl rfl rfl, at_of rfl rfl rfl, at_of rfl rfl rfl, at_of rfl rfl rfl, at_of rfl rfl rfl, at_of rfl rfl rfl, at_of rfl rfl rfl,
    by decide, by decide +kernel, by decide +kernel⟩
/-- PenumbraWords: a binding that is ending, one that is broken, one that is full; and a second binding of a partition. -/
theorem test_wit_PenumbraJoins : { bnd 0 with ending := true }.broken = false ∧ { bnd 0 with broken := true }.broken = true ∧
    ¬(bnd 0).parts.length < 1 ∧ { bnd 0 with parts := [] }.parts.length < 1 ∧ (bnd 0).steps ≠ 0 ∧
    (let s := dropTok (gridSt { bnd 0 with parts := [] } gang) [9, 7, 1]
     ownersOk s 1 (bnd 0) = true ∧ secondBinding s { bnd 0 with va := 0x4000 } = true ∧
     secondBinding { s with binds := [] } (bnd 0) = false) := by decide +kernel
/-- ExecutorRuns: a stalled access that is due, and one that waits; a line that the host holds. -/
def runPend : Run := { runAt (.stall 5) with unit := some (unitOf Pf.reset 0x40002000), pend := some (⟨.plain, .load, .global, 4, false, 4, 1, 0, false⟩, q0 0x2000) }
def perfAt (s : State) : Nat :=
  let m : MDesc := ⟨.plain, .load, .global, 4, false, 4, 1, 0, false⟩
  match runReach s runPend 0x2000 m.xkind with
  | .ok (s, sp) => (match runPerf s 4 runPend.unit sp m (q0 0x2000) with | .done _ f => if f.psn.isNone then 1 else 2 | .wait .. => 3 | _ => 4)
  | .error _ => 5
def heldRun : State := let s := runMem { runAt (.release none) with wset := .lines [0x40] } []
  { s with mem := { s.mem with l2 := [(homeKey 0x2000 1, { line0 with under := .frame 0x40002000 })], hostBits := [(0x80, 0x40002000)] } }
theorem test_wit_RunStalls : ({ runMem runPend [] with now := 5 }.now = 5) ∧ perfAt (runMem runPend []) = 1 ∧ perfAt (refreshing (runMem runPend [])) = 3 ∧
    (runBackInv heldRun (runAt (.release none)) (.lines [0x40])).2 = false ∧
    (runBackInv (runMem (runAt (.release none)) []) (runAt (.release none)) (.lines [0x40])).2 = true := by decide +kernel
/-- StreamsAndResets: no room; a close that is busy, one whose flag is withheld; a reserved bit. -/
theorem test_wit_StreamsFull : Config.streamEntries ≤ (List.replicate Config.streamEntries (0, sendE)).length ∧
    { Pf.reset with closing := some 3 }.closing ≠ none ∧ { scmd 0 0 with rsv := 1 }.rsv ≠ 0 ∧
    smFind (fabSt gang none none).ctxs 9 = none ∧ (∃ q ∈ (arrE [(7, ⟨0, some (flg 2, 0, 5)⟩)]).slots, q.2.flag ≠ none) ∧
    gang.ending = none ∧ (arrE []).due = false := by
  refine ⟨by simp, by decide, by decide, rfl, ⟨_, List.mem_singleton.2 rfl, by decide⟩, rfl, rfl⟩
/-- LaunchWords: a header that fails its checks; one whose memory is not ready; a full queue; SIGNAL's add that must wait, and
one that meets poison. -/
def badHdr : Hdr := BitVec.ofNat 1024 ((hdrOf1 0 0).toNat + 2 ^ 23)
def hdrIn (s : State) : Nat := match readHdr s 1 (some (9, 0)) [12, 7, 1] 0x3000 with
  | .ok s bs none => if launchOk (BitVec.ofNat 1024 (leNat bs)) then (if pendingIn s 0 0 < Config.queueDepth then 1 else 2) else 3
  | .wait _ => 4
  | _ => 5
def addAt (s : State) (va : B64) : Nat := match addCounter s 1 0 [5, 100] false va 5 with
  | .done _ => 1 | .fault _ c => if parksAs c then 2 else 3 | .wait _ => 4
def poisoned (s : State) : State := { s with mem := { s.mem with poison := [(0x40002000 / 32, true)] } }
theorem test_wit_LaunchTurnedAway : hdrIn (launchSt badHdr gang) = 3 ∧ hdrIn (refreshing2 (launchSt (hdrOf1 0 0) gang)) = 4 ∧
    (let s := launchSt (hdrOf1 0 0) gang
     hdrIn { s with launches := (List.range Config.queueDepth).map fun k => (k, lau (hdrOf1 0 0)) } = 2) ∧
    addAt (refreshing (memSt gang [])) 0x2000 = 4 ∧ addAt (poisoned (memSt gang [])) 0x2000 = 3 := by decide +kernel
/-- LaunchWords: a line at its home slice, dirty there, and one that a core has since written. -/
theorem test_wit_ReleaseBytes :
    (let key := homeKey 0x2000 1
     let s := memSt gang []
     let s := { s with mem := { s.mem with l2 := [(key, { line0 with dirty := 3 })], l1 := [(lineKey 0 0x40, l1Line key 0x40002000 1)] } }
     smFind s.mem.l2 key = some { line0 with dirty := 3 } ∧ line0.bytes.length = 128 ∧
     (∃ p ∈ s.mem.l1, p.2.home = key ∧ p.2.dirty.getLsbD 0 = true) ∧ ¬(∃ p ∈ s.mem.l1, p.2.home = key ∧ p.2.dirty.getLsbD 1 = true) ∧
     readByte (releaseAt s 5).mem.frames 0x40002000 = 3) := by decide +kernel
/-- Dispatcher: a Lantern launch whose header's memory is not ready. -/
theorem test_wit_LanternWaits : (match readHdr (refreshing2 (launchSt lant gang)) 1 none [13] (128 * 0x60) with
    | .wait _ => true | _ => false) = true := by decide +kernel
/-- SaveAndLoad: another save under way; a saved fragment that waits; an image whose place the host holds; a load that waits. -/
def heldArea : State := let s := privSt gang (gang2 .trap true)
  { s with mem := { s.mem with l2 := [(homeKey 0x1000 1, { line0 with under := .frame 0x80000000 })], hostBits := [(0x40, 0x80000000)] } }
def waiterImage : Image := ⟨1, none, 0, [(5, wg5)], [(7, saver)], [], [], []⟩
theorem test_wit_SaveJoins : (match target gang (savingSt [(6, wg6)]) 2 false with | .ok c => c.saving.isSome | _ => false) = true ∧
    saver.frags = [(1, { fr with st := .blocked, wait := .save 2 3 })] ∧ (7, saver) ∈ waiterImage.gangs ∧
    imageHosted heldArea 2 ctx2 (clusterWgs heldArea (9, 0)) ≠ none ∧
    imageHosted (privSt gang (gang2 .trap true)) 2 ctx2 (clusterWgs heldArea (9, 0)) = none ∧
    (match readBlock (refreshing (privSt gang (gang2 .trap true))) 1 (some (9, 0)) [14, 7, 1] ((privSt gang (gang2 .trap true)).winOf 1) .load 0x2000 192 with
      | .wait _ => true | _ => false) = true := by decide +kernel
/-- TranslationCommands: SPLIT of 1 GiB and of the smallest page; an entry that the host holds; a job of the twin's whose
leases are over; and a holder that has no translation of the page. -/
def twinJob : TwinJob := ⟨twin1 0, 3, BitVec.ofNat 64 (leaf0 + 2 ^ 61 + 3 * 2 ^ 40), true⟩
theorem test_wit_CommandMore : cSh (cmd1 3 2 0x4000 .idle) = 30 ∧ 0x4000 % 4096 = 0 ∧ cSh (cmd1 3 0 0 .idle) = 16 ∧
    hostedFrame (memSt gang []).mem 0x200000 8 = none ∧
    hostedFrame { (memSt gang []).mem with l2 := [(homeKey 0x1000 1, { line0 with under := .frame 0x200000 })], hostBits := [(0x40, 0x200000)] } 0x200000 8 = some 0x40 ∧
    List.find? (fun p : Nat × TwinJob => p.2.m == twin1 0) [(2, twinJob)] = some (2, twinJob) ∧ twinJob.begun = true ∧
    (match invalidate twinSt 0 30 0 0 (leaf0 + 2 ^ 61 + 3 * 2 ^ 40) with | .ok _ => true | .error _ => false) = true ∧
    heldLeaf (cmdSt slot0) 3 0x2000 = none ∧ cachedPte (cmdSt slot0) 0x2000 = none ∧
    (match leafOf (cmdSt slot0) 0x2000 with
      | .ok (e, sh) => sh == 30 && (pageFault .load (leafPage e sh 0x2000)).isNone && e / 2 ^ 61 % 8 != 2 | .error _ => false) = true := by
  decide +kernel
theorem test_wit_CommandPorts : HearsAt (fabSt gang none none) 5 0 port5 ∧ (twin1 0).via.port = 5 :=
  ⟨⟨rfl, rfl, by decide +kernel, rfl⟩, rfl⟩
/-- Dies: a die at 105 degrees, one whose supply fails, one that is neither; a die that is hot. -/
theorem test_wit_DieTrips : (let s := { inSt gang with plat := { (inSt gang).plat with temps := [(0, 105), (1, 104)], supply := [(2, true)] } }
    105 ≤ smGet s.plat.temps 0 0 ∧ ¬105 ≤ smGet s.plat.temps 1 0 ∧ smGet s.plat.supply 1 false = false ∧ smGet s.plat.supply 2 false = true ∧
    smGet (senseTemp s 3 96).plat.hot 3 false = true ∧ smGet s.plat.hot 3 false = false) := by decide +kernel
theorem test_throttle_goes_on : gives (exec (.thermalThrottleStep 0) (senseTemp (senseTemp (inSt gang) 0 96) 0 95)) (fun t =>
    (island t 0).mhz == 1175) = true := by decide +kernel
/-- Management: the slot that an update has written, and the other. -/
theorem test_wit_Boots : State.reset.plat.first = 0 ∧ { State.reset.plat with first := 1 }.first ≠ 0 := ⟨rfl, by decide⟩
/-- FaultPosting: a parked fragment that a record stands for, and the room that a queue has. -/
theorem test_wit_RecordOwner : { rec1 none with owner := some (7, 1) }.owner = some (7, 1) ∧
    smFind (inSt { gang with frags := [(1, { fr with st := .blocked, wait := .parked (prk .trap false) })] }).gangs 7 =
      some { gang with frags := [(1, { fr with st := .blocked, wait := .parked (prk .trap false) })] } ∧
    ([] : List Rec).length < 8 + (2 ^ 4 - (ctx1.fqtail - ctx1.fqhead).toNat) ∧ 8 + 0 ≤ (List.replicate 8 (rec1 none)).length :=
  ⟨rfl, rfl, by decide, by decide⟩
theorem test_record_resolves : gives (.next (postRec { queued 0x84000000 [] with
      gangs := [(7, { gang with frags := [(1, { fr with st := .blocked, wait := .parked (prk .trap false) })] })] } 1
      { rec1 none with owner := some (7, 1) })) (fun t => (smFind t.gangs 7).any fun g => (smFind g.frags 1).any fun f =>
    f.wait == .parked (prk .trap true)) = true := by decide +kernel

/-! Witnesses: the stack's spills, one lane from its address to its bytes, and floating values. -/

def ent0 : SEntry := ⟨true, 0xe, 0x40, true, 0x1000⟩
/-- Slices 0, 3 and 5 have full stacks; slices 2 and 0 have a record each. -/
def deepG (n : Nat) : Gang := { even with
  spillN := n, spills := [(1, ⟨2, 0, ent0⟩), (2, ⟨0, 0, ent0⟩)], stk := [0, 3, 5].map fun sl => (sl, List.replicate 8 ent0) }
def refG : Gang := { lanes with
  live := 0x7000, spills := [(0, ⟨3, 1, ent0⟩), (1, ⟨3, 0, ent0⟩), (3, ⟨2, 0, ent0⟩)], stk := [(3, [⟨true, 0xe, 0x40, true, 0x1000⟩])]
  frags := [(1, { fr with rpc := 0x1000, rv := true, smask := 1 <<< 3 })] }
/-- StackSpills: JOINAT and DBR with room in the area, one record too few, a slice at its count; and a JOIN that refills. -/
theorem test_wit_StackSpills : At (.joinat 4) (deepG 8) ∧ At (.dbr 1 0 4) (deepG 8) ∧
    ((bitList fr.smask).filter fun sl => decide (8 ≤ (stackOf (deepG 8) sl).length)) = [0, 3, 5] ∧
    ((List.range 8).filter fun k => (smFind (deepG 8).spills k).isNone) = [0, 3, 4, 5, 6, 7] ∧
    ¬(deepG 5).spillN < List.length (deepG 5).spills + 3 ∧ (deepG 4).spillN < List.length (deepG 4).spills + 3 ∧
    256 ≤ (((List.range 256).map fun k => (k, (⟨0, k, ent0⟩ : Spill))).filter fun p => p.2.slice == 0).length ∧
    Issues (.joinG u7) (inSt refG) ⟨7, 1, refG, { fr with rpc := 0x1000, rv := true, smask := 1 <<< 3 }, BitVec.ofNat 32 (encode (.joinG u7))⟩ ∧
    (∀ l ∈ bitList (laneSlices refG.live), l = 3) ∧ stackOf refG 3 = [ent0] ∧ (refG.spills.filter fun p => p.2.slice == 3).length = 1 + 1 ∧
    smKeys (fun _ (x : Spill) => x.slice == 3 && x.depth == 1) refG.spills = [0] ∧ refG.gone = 0 := by
  refine ⟨at_of rfl rfl rfl, at_of rfl rfl rfl, by decide, by decide, by decide, by decide, by decide +kernel, issues_at rfl rfl rfl rfl rfl,
    by decide, by decide, by decide, by decide, rfl⟩
theorem test_joinat_spills : after (exec (.joinat 4) (inSt (deepG 8))) (fun g =>
    (g.spills.map fun p => (p.1, p.2.slice, p.2.depth)) == [(0, 0, 1), (1, 2, 0), (2, 0, 0), (3, 3, 0), (4, 5, 0)]
      && (stackOf g 3).length == 8) = true := by decide +kernel
theorem test_joinat_overflows : after (exec (.joinat 4) (inSt (deepG 4))) (fun g => g.ending == some .fault) = true := by decide +kernel

/-- The state of memSt with the page of another class. -/
def clsSt (cls : Nat) (g : Gang) (data : List Byte) : State := let s := memSt g data
  { s with mem := { s.mem with frames := writeBytes s.mem.frames 0x200000 (toBytes 8 (0x0078000000000000 + 0x40000003 + cls * 2 ^ 59)) } }
/-- Which clause of GlobalLane an access of lane 0 to VA 0x2000 falls under. -/
def laneCase (i : Instr) (m : MDesc) (s : State) : Nat :=
  let u := iss memG i
  match translate (s.winOf 1) 0x2000 m.kind with
  | .error _ => 0
  | .ok (ia, home) =>
    let key := homeKey ia home
    match lookup (opened s u (u.op m.isSb (.mem m))) (keyUnit key) 0 ia m.kind with
    | .error _ => 1
    | .ok (s₁, p) =>
      if isMap ia || p.st ≥ 2 || lostDies s₁ (pageDies s₁.pf p) then 2 else
      let s₂ := touch s₁ 1 (pageDies s₁.pf p)
      if p.cls = 2 then (if bankBusy s₂ p.at_ then 3 else 4)
      else if (smFind s₂.mem.l1 (lineKey 0 (ia / 128))).isSome then 5
      else if (smFind s₂.mem.l2 key).isSome then 6
      else if bankBusy s₂ p.at_ then 7
      else match room s₂ key (fillLine s₂.mem (p.at_ / 128 * 128) 0 p.cmp) with | .ok _ => 8 | .error _ => 9
def stg4 : MDesc := { st4 with space := .global }
theorem test_wit_GlobalLane : ((memoryWord (.ldg u7 0 4 0 1)).any fun x => x.2.1.form == .plain && x.2.1.dir == .load) = true ∧
    (memoryWord (.stg u7 0 2 0 0)).isSome = true ∧ At (.stg u7 0 2 0 0) memG ∧ bitList (partLanes memG fr u7) = [0] ∧
    (0x2000 : Nat) % 4 = 0 ∧ pastBound (memSt memG []) memG ld4 [q0 0x2000] = false ∧ (memSt memG []).mem.waiting = [] ∧
    laneCase .nop ld4 (refreshing (clsSt 2 memG [])) = 3 ∧ laneCase .nop stg4 (clsSt 2 memG []) = 4 ∧
    (let s := memSt memG []
     laneCase .nop ld4 { s with mem := { s.mem with l1 := [(lineKey 0 0x40, l1Line (homeKey 0x2000 1) 0x40002000 0)] } } = 5 ∧
     laneCase .nop stg4 { s with mem := { s.mem with l2 := [(homeKey 0x2000 1, line0)] } } = 6 ∧
     laneCase .nop ld4 (refreshing s) = 7 ∧ laneCase .nop stg4 s = 8 ∧ hostHalf s.mem 0x2000 4 = none) := by
  refine ⟨rfl, rfl, at_of rfl rfl rfl, by decide, rfl, by decide +kernel, rfl, by decide +kernel, by decide +kernel, by decide +kernel,
    by decide +kernel, by decide +kernel, by decide +kernel, by decide +kernel⟩
theorem test_uncached_load : gives (exec (.ldg u7 0 4 0 1) (clsSt 2 memG [1, 2, 3, 4, 5, 6, 7, 8])) (fun t => (smFind t.ops 100).any fun o =>
    o.out == [(128, 0x08070605#32)] && t.mem.l2.isEmpty) = true := by decide +kernel
theorem test_lane_waits : after (exec (.ldg u7 0 4 0 0) (refreshing (memSt memG []))) (fun g =>
    (smFind g.frags 1).any fun f => f.st == .blocked && f.wait == .op 100) = true := by decide +kernel

/-- RoundTo: e4m3's 1.0, a value between it and the next, a tiny one, and one past the grid. -/
theorem test_wit_RoundTo : |exVal ⟨false, 1, 1⟩| = fpVal e4m3 56 ∧ fpVal e4m3 56 < |exVal ⟨true, 17, 16⟩| ∧
    |exVal ⟨true, 17, 16⟩| < fpVal e4m3 (56 + 2 ^ (3 + 1 - 4)) ∧ (56 ≤ e4m3.maxMag ∧ 2 ^ (3 + 1 - 4) ∣ 56) ∧
    tinyAt e4m3 4 0 false |exVal ⟨false, 1, 1024⟩| ∧ ¬tinyAt e4m3 4 0 false |exVal ⟨false, 1, 1⟩| ∧
    (∀ m, m ≤ e4m3.maxMag → fpVal e4m3 (m + 2 ^ (3 + 1 - 4)) ≤ |exVal ⟨false, 1000, 1⟩|) := by
  refine ⟨by decide +kernel, by decide +kernel, by decide +kernel, by decide, ?_, ?_, fun m h => ?_⟩
  · simp only [tinyAt, roundsUp]
    decide +kernel
  · simp only [tinyAt, roundsUp]
    decide +kernel
  · exact (by decide +kernel : ∀ m < 127, fpVal e4m3 (m + 2 ^ (3 + 1 - 4)) ≤ |exVal ⟨false, 1000, 1⟩|) m
      (Nat.lt_succ_of_le (h.trans (by decide)))
/-- FloatingArithmetic: f32's numbers, zeros, infinities and NaNs. -/
theorem test_wit_FloatingArithmetic : fpFinite f32 0x3f800000 ∧ fpReal f32 0x3f800000 = 1 ∧ fpReal f32 0xbf800000 = -1 ∧ fpReal f32 0x80000000 = 0 ∧
    isNaN f32 0x7fc00001 = true ∧ isSNaN f32 0x7f800001 = true ∧ isInf f32 0xff800000 = true ∧ isZero f32 0x80000000 = true ∧
    f32.neg 0xbf800000 = true ∧ List.find? (isNaN f32) [0, 0x7fc00001] = some 0x7fc00001 ∧ 0x7fc00001 < 2 ^ (1 + f32.ew + f32.fw) ∧
    exVal ⟨true, 2, 6⟩ = -1 / 3 := by
  unfold fpFinite
  decide +kernel

/-! Witnesses: the clauses about waits, refusals and orders. -/

/-- A line at its home slice whose dirty bytes lie in a bank under refresh. -/
def dirtyBusy (s : State) : State := refreshing { s with mem := { s.mem with l2 := [(homeKey 0x2000 1, { line0 with dirty := 3 })] } }
/-- MemoryIssue: a remote word to a pair that is refused, and one at the bound whose lanes the checks let go. -/
def refSt : State := { cntSt 0 with fab := { Fabric.empty with send := [(pairKey 1 0 3, ⟨.refused, 0, 0, 0, 0⟩)] } }
theorem test_wit_RefusedPair : (steps23 refSt memG st4 [qR]).any (·.2.2.2) = true ∧ pastBound refSt memG st4 [qR] = false ∧
    (∀ x ∈ [qR], qR.peer % 512 ≤ x.peer % 512) ∧
    (smFind ((iss memG .nop).adv (opened refSt (iss memG .nop) { (iss memG .nop).op st4.isSb (.mem st4) with todo := [qR] })).gangs 7).isSome = true ∧
    lostDies (cntSt (2 ^ 30)) 0x300000 = false ∧ qR.va.toNat % st4.size = 0 ∧
    peerCheck (cntSt (2 ^ 30)) 1 0 true (BitVec.ofNat 64 qR.peer) qR.va = none ∧
    2 ^ 30 < (2 ^ 30 : Nat) + ([qR].filter fun x => x.peer % 512 == qR.peer % 512).length := by decide +kernel
theorem test_refused_parks : gives (.next (memFrag st4 [qR] (iss memG .nop) refSt)) (fun t => (smFind t.ops 100).any fun o =>
    o.bad.any fun b => b.code == .streamOverrun && b.parks) = true := by decide +kernel
/-- MatrixIssues: a gang whose MRDA to scratchpad is in flight, and one that has no matrix instruction in flight. -/
def mrdaSt : State := { inSt gang with ops := [(8, matOp (.mrdaS 0 0 8 0 false 0 64))] }
theorem test_wit_MatrixOrder : writesSp mrdaSt 7 = true ∧ (smFind (finishMats mrdaSt 7).gangs 7).isSome = true ∧ gangMats mrdaSt 7 = [8] ∧
    gangMats (inSt gang) 7 = [] ∧ (finishMats mrdaSt 7).ops = [] := by decide +kernel
/-- RefreshAndReissue: a refresh that a bank under refresh turns away. -/
theorem test_wit_RefreshBusy : (refreshing (inSt gang)).now < smGet (refreshing (inSt gang)).mem.refresh (bankOf (inSt gang).pf 0x40002000) 0 ∧
    smGet (inSt gang).mem.refresh 5 0 ≤ (inSt gang).now := by decide +kernel
/-- LaunchWords: a launch that waits for no counter and fits; one with no work; SIGNAL and FENCE held by a bank. -/
theorem test_wit_LaunchOrder : hWaiten (hdrOf1 0 0) = 0 ∧ hWaiten (hdrOf1 1 0) ≠ 0 ∧
    fitsEmpty (launchSt (hdrOf1 0 0) gang) 0 (hNeeds (hdrOf1 0 0)) (hE (hdrOf1 0 0) 2) = true ∧ hasWork (hdrOf1 0 0) = true ∧
    (let h := BitVec.ofNat 1024 ((hdrOf1 0 0).toNat + 2 ^ 245)
     hWaiten h = 0 ∧ hasWork h = false) ∧
    (let s := dirtyBusy (memSt gang [])
     (∃ p ∈ s.mem.l2, wbBusy s p.1 = true) ∧ pastBound s gang { signalDesc with stream := 0 } [⟨0, 0x2000, 0, 0, 0⟩] = false ∧
     (∃ p ∈ s.mem.l2, wbBusy s p.1 = true ∧ (winDies (s.winOf 1)).testBit (keyDie p.1) = true ∧ p.2.under = .frame 0x40002000) ∧
     ¬(∃ p ∈ (memSt gang []).mem.l2, wbBusy (memSt gang []) p.1 = true)) ∧ At (.signalG u7 0 1 2) (matG 0x2000 5 0) := by
  refine ⟨by decide +kernel, by decide +kernel, by decide +kernel, by decide +kernel, by decide +kernel, by decide +kernel, at_of rfl rfl rfl⟩
theorem test_fence_waits : after (exec (.fenceG u7 1 5) (dirtyBusy (memSt gang []))) (fun g =>
    (smFind g.frags 1).any fun f => f.st == .blocked && f.wait == .redo (.fenceG u7 1 5) []) = true := by decide +kernel
theorem test_launch_at_once : gives (exec (.launchG u7 1 2) (launchSt (hdrOf1 0 0) (matG 0 0x3000 0))) (fun t =>
    (smFind t.launches 100).any (·.eligible)) = true := by decide +kernel
/-- Dispatcher: completions with one signal, the other and both, each added; one held by a bank; and one that parks. -/
def endLau (waiten sigen : Nat) : Launch := { lau (hdrOf1 waiten sigen) with eligible := true, nextCluster := 1 }
def addsAt (s : State) (x : Launch) (i : Nat) : Nat :=
  match addCounter { s with launches := smPut s.launches 6 { x with phase := i + 1, retryAt := 0 } } 1 0 [1, 6, 4 + i] true
    (hCounter x.hdr (hf x.hdr (512 + 64 * i) 32)) (BitVec.ofNat 64 (hf x.hdr (544 + 64 * i) 32)) with
  | .done t => if smFind t.launches 6 = some { x with phase := i + 1, retryAt := 0 } then 1 else 2
  | .fault t c => if parksAs c && smFind t.launches 6 = some { x with phase := i + 1, retryAt := 0 } then 3 else 4
  | .wait _ => 5
theorem test_wit_Signals : hSigen (endLau 0 1).hdr = 1 ∧ hSigen (endLau 0 2).hdr = 2 ∧ hSigen (endLau 0 3).hdr = 3 ∧
    launchDone (dispSt (endLau 0 3)) 6 (endLau 0 3) = true ∧ ctxRuns (dispSt (endLau 0 3)) 1 = true ∧ (endLau 0 3).failed = false ∧
    writesOut (dispSt (endLau 0 3)) 1 = false ∧
    addsAt (dispSt (endLau 0 1)) (endLau 0 1) 0 = 1 ∧ addsAt (dispSt (endLau 0 2)) (endLau 0 2) 1 = 1 ∧
    addsAt (dispSt (endLau 0 3)) (endLau 0 3) 0 = 1 ∧ addsAt (dispSt (endLau 0 3)) (endLau 0 3) 1 = 1 ∧
    (let s := dispSt (endLau 0 1)
     addsAt { s with mem := { s.mem with frames := writeBytes s.mem.frames 0x200000 [0, 0, 0, 0, 0, 0, 0, 0] } }
       { endLau 0 1 with posted := 0x10 } 0 = 3) ∧
    { endLau 0 1 with posted := 0x10 }.posted.getLsbD 4 = true ∧
    (let h := BitVec.ofNat 1024 ((hdrOf1 0 0).toNat + 2 ^ 21)
     hf h 21 1 = 1 ∧ ∃ p ∈ (dirtyBusy (dispSt (lau h))).mem.l2, wbBusy (dirtyBusy (dispSt (lau h))) p.1 = true) := by decide +kernel
theorem test_both_signals : gives (exec (.launchComplete 6) (dispSt (endLau 0 3))) (fun t => t.launches.isEmpty) = true := by decide +kernel
/-- ContextsAndRegisters: CREATE for a virtual function that is not enabled, for one that is, and for tenant 0. -/
def noVf : State := { State.reset with tenants := [(3, { State.reset.tenant 3 with enabled := false })] }
theorem test_wit_CreateFor : ((3 : BitVec 10) ≠ 0 ∧ (noVf.tenant (3 : BitVec 10).toNat).enabled = false) ∧
    (noVf.tenant (4 : BitVec 10).toNat).enabled = true ∧ noVf.plat.recovery = false ∧ noVf.pf.destroying = none :=
  ⟨by decide +kernel, by decide +kernel, rfl, rfl⟩
theorem test_create_refused : gives (exec (.ctxCreate 0 1 3 0) noVf) (fun t => t.ctxs.isEmpty && fld t.pf.ctxstat.toNat 56 8 == 0xc3) = true := by decide +kernel
/-- HostAndPool: a snooped half whose line is at its home slice; an answer to an LDA of a marked flag, and to another read. -/
theorem test_wit_HostLine : (let s := hostSt []
     let s := { s with mem := { s.mem with l2 := [(homeKey 0x2000 1, line0)], snooping := [(0x80, 0x40002000)] } }
     (s.mem.l2.find? fun p => keyLine p.1 == 0x80 / 2 && p.2.under == .frame (0x40002000 / 128 * 128)) = some (homeKey 0x2000 1, line0)) ∧
    (List.replicate 64 (7 : Byte)).length = 64 ∧
    (let q := cxlR none
     let s := { hostSt [] with mem := { (hostSt []).mem with flagMarks := [(0x400, true)] } }
     smGet s.mem.flagMarks ((q.half * 64 + (q0 0x2000).va.toNat % 64) / 8) false = true ∧
     { ld4 with form := .ordered 2 }.acquires = true ∧ ld4.acquires = false) := by decide +kernel
/-- StreamsAndResets: an open for a context that is not there. Links: a flit under a bank that is erased, and rates of a pool
port. -/
theorem test_wit_MoreLinks : smFind (fabSt gang none none).ctxs { scmd 0 0 with ctx := 9 }.ctx.toNat = none ∧ smFind port5.keys 1 = none ∧
    (smFind port5.keys 0).isSome = true := by decide +kernel
theorem test_pool_port_rates : gives (exec (.hostLinkTrain 2 ⟨some 0x0301, 32, 16, 256⟩) (inSt gang)) (fun t =>
    (hport t 2).live && (hport t 2).gts == 32) = true ∧
    gives (exec (.hostLinkTrain 2 ⟨some 0x0300, 64, 16, 256⟩) (inSt gang)) (fun t => !(hport t 2).live) = true := by decide +kernel
theorem test_erased_bank : gives (exec (.lnkFlit 5 ⟨.ack, 1, 0⟩) (fabSt gang none none)) (fun t =>
    (smFind t.fab.ports 5).any fun x => x.fails == 1 && x.errs == 1) = true := by decide +kernel
/-- ExecutorRuns: a start whose release meets a bank under refresh, and one that does not. -/
theorem test_wit_RunHeld : partBusy (dirtyBusy (runMem (runAt .start) [])) (winDies ((runMem (runAt .start) []).winOf 1)) (some (9, 0x40002000)) = true ∧
    partBusy (runMem (runAt .start) []) (winDies ((runMem (runAt .start) []).winOf 1)) (some (9, 0x40002000)) = false := by decide +kernel
/-- PenumbraWords: GWAIT of a gang that is not bound, and of a broken binding. -/
theorem test_wit_GwaitEnds : Issues (.gwait u7 1 2) (gridSt (bnd 0) (matG 0 2 0)) (iss (matG 0 2 0) (.gwait u7 1 2)) ∧
    (matG 0 2 0).bind = none ∧ ((2 : B64).toNat < 64) ∧ smFind (gridSt { bnd 0 with broken := true } (gridG 0 2)).binds 9 = some { bnd 0 with broken := true } :=
  ⟨grid_at rfl rfl rfl, rfl, by decide, rfl⟩
theorem test_gwait_unbound : after (exec (.gwait u7 1 2) (gridSt (bnd 0) (matG 0 2 0))) (fun g => g.ending == some .fault) = true := by decide +kernel
/-- CopyChunks: the copy that a chunk's move leaves. -/
theorem test_wit_CopyMoved : (match movePieces (copyOf tmpl1) 9 0 (chunkPieces (copyOf tmpl1) 0) 0 (copyAt tmpl1) with
    | .done s => (smFind s.copies 9).any (!·.last) | _ => false) = true := by decide +kernel
end
end Sys2Proof.Tests
end

section
/-! PROOFS. The gangs that a launch's placement makes (R16, R47): what a new gang holds, and that each gang after
the placement of a cluster was there before it or is a new gang of the launch. -/
namespace Sys2Proof.Laws
open Sys2Proof Sys2Proof.Machine

/-- Writing `f l` at every key `l` below `n` of an empty map: those keys read `f`, every other reads the default. -/
theorem smGet_foldl_smSet_range {α : Type} [DecidableEq α] (f : Nat → α) (d : α) (n k : Nat) :
    smGet ((List.range n).foldl (fun m l => smSet m l (f l) d) []) k d = if k < n then f k else d := by
  induction n with
  | zero => rfl
  | succ n ih =>
    simp only [List.range_succ, List.foldl_append, List.foldl_cons, List.foldl_nil, smGet_smSet, ih]
    rcases lt_trichotomy n k with h | rfl | h
    · rw [if_neg h.ne, if_neg (by omega), if_neg (by omega)]
    · rw [if_pos rfl, if_pos (Nat.lt_succ_self n)]
    · rw [if_neg h.ne', if_pos h, if_pos (by omega)]

/-! A new gang's registers, predicates and lanes. -/

section
variable {s : State} {h : Hdr} {ctx ten : Nat} {l : Option Nat} {id : B64} {wg f1 core : Nat} {at_ : Nat × Nat} {wid : Nat}
  {lantern : Bool}

theorem gReg_newGang (n : Nat) : gReg (newGang s h ctx ten l id wg f1 core at_ wid lantern) n = match n with
    | 0 => BitVec.ofNat 64 (hf h 256 64) | 1 => BitVec.ofNat 64 (hf h 320 64) | 2 => BitVec.ofNat 64 (hf h 384 64) | _ => 0 := by
  simp only [gReg, newGang, List.foldl_cons, List.foldl_nil, smGet_smSet]
  match n with
  | 0 | 1 | 2 => rfl
  | n + 3 => rfl

theorem laneReg_newGang (lane n : Nat) : laneReg (newGang s h ctx ten l id wg f1 core at_ wid lantern) lane n = 0 := rfl

theorem predMask_newGang {n : Nat} (hn : n ≠ 7) : predMask (newGang s h ctx ten l id wg f1 core at_ wid lantern) n = 0 :=
  if_neg hn

theorem qReg_newGang {n : Nat} (hn : n ≠ 7) : qReg (newGang s h ctx ten l id wg f1 core at_ wid lantern) n = false := by
  simp [qReg, qBit, newGang, hn]

/-- The live mask has its `e0` low bits set. -/
theorem getLsbD_live_newGang {lane : Nat} (hl : lane < 32) :
    (newGang s h ctx ten l id wg f1 core at_ wid lantern).live.getLsbD lane = decide (lane < hE h 0) := by
  simp only [newGang, BitVec.getLsbD_ofNat, hl, Nat.testBit_two_pow_sub_one, decide_true, Bool.true_and]

theorem owid_newGang (lane : Nat) : smGet (newGang s h ctx ten l id wg f1 core at_ wid lantern).owid lane 0 =
    if lane < hE h 0 then BitVec.ofNat 64 (wid + lane) else 0 :=
  smGet_foldl_smSet_range (fun l => BitVec.ofNat 64 (wid + l)) 0 (hE h 0) lane

/-- A new gang has one fragment: ready at ENTRY, without a reconvergence point, of the slices that hold a live lane. -/
theorem frags_newGang : ∃ f, (newGang s h ctx ten l id wg f1 core at_ wid lantern).frags = [(0, f)] ∧ f.st = .ready ∧
    f.pc = BitVec.ofNat 64 (hEntry h) ∧ f.hdr = BitVec.ofNat 64 (hEntry h) ∧ f.rv = false ∧
    f.smask = laneSlices (newGang s h ctx ten l id wg f1 core at_ wid lantern).live :=
  ⟨_, rfl, rfl, rfl, rfl, rfl, rfl⟩
end

/-! After a placement each gang was there before or is a new one. -/

/-- Every gang of `t` was a gang of `s`, or is one that launch `k` places. -/
def OldOrPlaced (s : State) (k : Nat) (x : Launch) (t : State) : Prop :=
  ∀ gid g, smFind t.gangs gid = some g → smFind s.gangs gid = some g ∨
    ∃ s' wg f1 core at_ wid, g = newGang s' x.hdr x.ctx x.ten (some k) x.id wg f1 core at_ wid false

section
variable {s t : State} {k : Nat} {x : Launch}

theorem OldOrPlaced.refl : OldOrPlaced s k x s := fun _ _ hg => Or.inl hg

theorem OldOrPlaced.of_gangs_eq {u : State} (ht : OldOrPlaced s k x t) (hu : u.gangs = t.gangs) : OldOrPlaced s k x u :=
  fun gid g hg => ht gid g (hu ▸ hg)

theorem OldOrPlaced.setGang (ht : OldOrPlaced s k x t) (i : Nat) (s' : State) (wg f1 core : Nat) (at_ : Nat × Nat) (wid : Nat) :
    OldOrPlaced s k x (t.setGang i (newGang s' x.hdr x.ctx x.ten (some k) x.id wg f1 core at_ wid false)) := by
  intro gid g hg
  rw [State.setGang_gangs, smFind_smPut] at hg
  split at hg
  · exact Or.inr ⟨s', wg, f1, core, at_, wid, (Option.some.inj hg).symm⟩
  · exact ht gid g hg

theorem acquireSi_touch_gangs (t : State) (ctx : Nat) (bits : B32) (core : Nat) :
    (acquireSi (touch t ctx bits) core).gangs = t.gangs := rfl

theorem OldOrPlaced.placeWg (ht : OldOrPlaced s k x t) (n f2 : Nat) (p : Nat × List (Nat × Nat)) :
    OldOrPlaced s k x (placeWg x.hdr x.ctx x.ten (some k) x.id k n false f2 p t) := by
  unfold Machine.placeWg
  refine OldOrPlaced.of_gangs_eq ?_ (acquireSi_touch_gangs _ _ _ _)
  refine foldl_keeps (OldOrPlaced s k x) _ _ _ ?_ fun b hb q _ => hb.setGang _ _ _ _ _ _ _
  exact ht.of_gangs_eq rfl

theorem oldOrPlaced_placeCluster (s : State) (k n : Nat) (x : Launch) (cores : List Nat) :
    OldOrPlaced s k x (placeCluster s k n x cores) := by
  unfold placeCluster
  split
  · exact OldOrPlaced.refl
  · exact foldl_keeps (OldOrPlaced s k x) _ _ _ OldOrPlaced.refl fun b hb q _ => hb.placeWg n q.2 q.1
end

/-- Settles O47: a placed cluster's new gangs are all made by `newGang`, whose fields are those R47 gives. -/
theorem placedGangs : Obligations.PlacedGangs := by
  refine ⟨fun s k n gid x cores g => oldOrPlaced_placeCluster s k n x cores gid g, ?_⟩
  intro s h ctx ten l id wg f1 core at_ wid lantern _
  exact ⟨gReg_newGang, laneReg_newGang, fun n hn => ⟨predMask_newGang hn, qReg_newGang hn⟩,
    fun lane hl => getLsbD_live_newGang hl, rfl, owid_newGang, frags_newGang, rfl, rfl, rfl, rfl, rfl, rfl, rfl⟩

end Sys2Proof.Laws
end

section
/-! PROOFS. The integer operations that group and lane words share (R147 to R150, R167, R168), as arithmetic on the values
that their operands stand for. -/
namespace Sys2Proof.Laws
open Sys2Proof Sys2Proof.Machine

/-- Signed or unsigned, a word is known by its value. -/
theorem valOf_injective {w : Nat} (signed : Bool) : Function.Injective (valOf signed : BitVec w → Int) := by
  intro a b h
  cases signed
  · exact BitVec.eq_of_toNat_eq (Int.ofNat.inj h)
  · exact BitVec.eq_of_toInt_eq h

theorem pickMinMax_false {w : Nat} (m : BitVec 1) (a b : BitVec w) :
    pickMinMax false (m == 1) a b = if valOf (m == 0) a ≤ valOf (m == 0) b then a else b := by
  have hm : (!(m == 1)) = (m == 0) := by revert m; decide
  simp only [pickMinMax, hm, Bool.bne_false, decide_eq_true_eq]
  rfl

/-- Where the values tie, the operands are one word, so which of them is taken does not matter. -/
theorem pickMinMax_true {w : Nat} (m : BitVec 1) (a b : BitVec w) :
    pickMinMax true (m == 1) a b = if valOf (m == 0) b ≤ valOf (m == 0) a then a else b := by
  have hm : (!(m == 1)) = (m == 0) := by revert m; decide
  have hp : pickMinMax true (m == 1) a b = if valOf (m == 0) a ≤ valOf (m == 0) b then b else a := by
    simp only [pickMinMax, hm, Bool.bne_true, Bool.not_eq_true', decide_eq_false_iff_not, ite_not]
    rfl
  rw [hp]
  rcases lt_trichotomy (valOf (m == 0) b) (valOf (m == 0) a) with h | h | h
  · rw [if_neg h.not_ge, if_pos h.le]
  · rw [valOf_injective _ h, ite_self]
  · rw [if_pos h.le, if_neg h.not_ge]

theorem shiftL_eq_shlOf {w : Nat} (a : BitVec w) (c : Nat) : shiftL a c = shlOf a c := by
  have h : shlOf a c = a <<< c := BitVec.eq_of_toNat_eq (by simp [shlOf, Nat.shiftLeft_eq])
  rw [h, shiftL]
  split
  · exact (BitVec.shiftLeft_eq_zero ‹_›).symm
  · rfl

theorem shiftR_eq_shrOf {w : Nat} (a : BitVec w) (c : Nat) : shiftR a c = shrOf a c := by
  have h : shrOf a c = a >>> c := by
    rw [shrOf, ← Nat.shiftRight_eq_div_pow, ← BitVec.toNat_ushiftRight, BitVec.ofNat_toNat, BitVec.setWidth_eq]
  rw [h, shiftR]
  split
  · exact (BitVec.ushiftRight_eq_zero ‹_›).symm
  · rfl

/-- From the width on, every arithmetic shift right leaves copies of the sign alone. -/
theorem sshiftRight_of_width_le {w c : Nat} (a : BitVec w) (h : w ≤ c) : a.sshiftRight c = a.sshiftRight (w - 1) := by
  ext i hi
  rw [BitVec.getElem_sshiftRight, BitVec.getElem_sshiftRight, dif_neg (by omega)]
  split
  · rw [BitVec.msb_eq_getLsbD_last, ← BitVec.getLsbD_eq_getElem]
    congr 1
    omega
  · rfl

theorem shiftA_eq_sarOf {w : Nat} (a : BitVec w) (c : Nat) : shiftA a c = sarOf a c := by
  have h : sarOf a c = a.sshiftRight c := by
    rw [sarOf, BitVec.sshiftRight_eq, Int.shiftRight_eq_div_pow, Int.natCast_pow]
    rfl
  rw [h, shiftA]
  split
  · exact (sshiftRight_of_width_le a ‹_›).symm
  · rfl

/-- The upper half of a product held in two's complement is the floor of the product over `2 ^ n`: the multiple of
`2 ^ n * 2 ^ n` that the reduction drops is a multiple of `2 ^ n` in the quotient. -/
theorem ofNat_toTwos_div (n : Nat) (v : Int) : BitVec.ofNat n (toTwos (n + n) v / 2 ^ n) = BitVec.ofInt n (v / 2 ^ n) := by
  have hq : v / 2 ^ n = v % (2 ^ n * 2 ^ n) / 2 ^ n + 2 ^ n * (v / (2 ^ n * 2 ^ n)) := by
    rw [← Int.add_mul_ediv_left _ _ (by positivity), ← mul_assoc, Int.emod_add_mul_ediv]
  have hm : BitVec.ofNat n (toTwos (n + n) v / 2 ^ n) = BitVec.ofInt n (v % (2 ^ n * 2 ^ n) / 2 ^ n) := by
    rw [← BitVec.ofInt_natCast, Int.natCast_ediv, toTwos, Int.toNat_of_nonneg (Int.emod_nonneg _ (by positivity))]
    push_cast [pow_add]
    rfl
  rw [hm]
  apply BitVec.eq_of_toNat_eq
  rw [BitVec.toNat_ofInt, BitVec.toNat_ofInt, hq, Int.natCast_pow, Nat.cast_ofNat, Int.add_mul_emod_self_left]

theorem condInt_eq_cmpOf (c : Nat) (x y : Int) : condInt c x y = cmpOf c x y := by
  match c with
  | 0 => exact beq_eq_decide x y
  | 1 => rw [condInt, cmpOf, bne, beq_eq_decide, decide_not]
  | 2 | 3 | 4 | _ + 5 => rfl

/-- Shifting in a field of `k` bits (R149's GMOVHI). -/
theorem shiftLeft_or_setWidth {w k : Nat} (a : BitVec w) (b : BitVec k) :
    a <<< k ||| b.setWidth w = BitVec.ofNat w (a.toNat * 2 ^ k + b.toNat) := by
  rw [← Nat.shiftLeft_eq, Nat.shiftLeft_add_eq_or_of_lt b.isLt, BitVec.ofNat_or, BitVec.ofNat_toNat]
  rfl

theorem ofNat_mod_eq_setWidth {w : Nat} (k : Nat) (v : BitVec w) : BitVec.ofNat k (v.toNat % 2 ^ k) = v.setWidth k :=
  BitVec.eq_of_toNat_eq (by rw [BitVec.toNat_ofNat, BitVec.toNat_setWidth, Nat.mod_mod])

theorem toNat_append_eq {m n : Nat} (x : BitVec m) (y : BitVec n) : (x ++ y).toNat = x.toNat * 2 ^ n + y.toNat := by
  rw [BitVec.toNat_append, ← Nat.shiftLeft_add_eq_or_of_lt y.isLt, Nat.shiftLeft_eq]

/-! Masks of bit numbers, as sums of powers of two. -/

/-- The sum of `2 ^ k` over the `k` below `n` that satisfy `p`: the value of a mask that `ofBits` makes. -/
def bitSum (p : Nat → Bool) (n : Nat) : Nat := ((List.range n).map fun k => if p k then 2 ^ k else 0).sum

theorem bitSum_succ (p : Nat → Bool) (n : Nat) : bitSum p (n + 1) = bitSum p n + if p n then 2 ^ n else 0 := by
  simp [bitSum, List.range_succ]

theorem bitSum_lt (p : Nat → Bool) (n : Nat) : bitSum p n < 2 ^ n := by
  induction n with
  | zero => exact Nat.one_pos
  | succ n ih =>
    rw [bitSum_succ, pow_succ]
    split <;> omega

theorem ofBits_append_singleton (w : Nat) (l : List Nat) (k : Nat) :
    ofBits w (l ++ [k]) = ofBits w l ||| BitVec.ofNat w (2 ^ k) := by
  have h : 1#w <<< k = BitVec.ofNat w (2 ^ k) :=
    BitVec.eq_of_toNat_eq (by rw [← BitVec.twoPow_eq, BitVec.toNat_twoPow, BitVec.toNat_ofNat])
  rw [← h, ofBits, List.foldl_append]
  rfl

/-- The bits below `n` sum to less than `2 ^ n`, so that the next bit's OR is an addition. -/
theorem ofBits_filter_range (w : Nat) (p : Nat → Bool) (n : Nat) :
    ofBits w ((List.range n).filter p) = BitVec.ofNat w (bitSum p n) := by
  induction n with
  | zero => rfl
  | succ n ih =>
    rw [bitSum_succ, List.range_succ, List.filter_append]
    cases hp : p n with
    | false => simp [hp, ih]
    | true =>
      have hor := Nat.two_pow_add_eq_or_of_lt (bitSum_lt p n) 1
      rw [mul_one, Nat.add_comm, Nat.or_comm] at hor
      rw [if_pos rfl, hor, BitVec.ofNat_or, ← ih, ← ofBits_append_singleton, List.filter_singleton, hp]
      rfl

theorem sum_ite_eq_bitSum (f : Nat → Nat) (m n : Nat) :
    ((List.range n).map fun k => if f k = 0 then 0 else 2 ^ (m + k)).sum = 2 ^ m * bitSum (f · != 0) n := by
  rw [bitSum, ← List.sum_map_mul_left]
  simp [mul_ite, pow_add]

theorem toNat_laneSlices (m : Lanes) :
    (laneSlices m).toNat = bitSum (fun sl => m.toNat / 16 ^ sl % 16 != 0) 8 := by
  rw [laneSlices, ofBits_filter_range, BitVec.toNat_ofNat, Nat.mod_eq_of_lt (bitSum_lt _ 8)]
  simp only [fld, pow_mul]
  rfl

/-- Keeping the bits from `l` to `l + k - 1`: dropping those above, then those below. -/
theorem and_ones_shiftLeft (n k l : Nat) : n &&& ((2 ^ k - 1) <<< l) = n % 2 ^ (k + l) / 2 ^ l * 2 ^ l := by
  apply Nat.eq_of_testBit_eq
  intro i
  rw [← Nat.shiftLeft_eq]
  by_cases hl : l ≤ i
  · have hk : i - l < k ↔ i < k + l := by omega
    simp [Nat.testBit_div_two_pow, Nat.testBit_mod_two_pow, Nat.testBit_two_pow_sub_one, hl, hk, Bool.and_comm]
  · simp [hl]

/-- The reconvergence register: an address of 57 bits, its two low bits dropped, and a valid bit in their place. -/
theorem rpcMask_or_bit (a : B64) (b : Bool) :
    (a &&& 0x01fffffffffffffc#64) ||| (if b then 1 else 0) = BitVec.ofNat 64 (a.toNat % 2 ^ 57 / 4 * 4 + b.toNat) := by
  have hb : b.toNat < 2 ^ 2 := by cases b <;> decide
  have hbit : BitVec.ofNat 64 b.toNat = if b then 1 else 0 := by cases b <;> rfl
  have hor : a.toNat % 2 ^ 57 / 4 * 4 + b.toNat = a.toNat &&& ((2 ^ 55 - 1) <<< 2) ||| b.toNat := by
    rw [and_ones_shiftLeft, ← Nat.shiftLeft_eq, ← Nat.shiftLeft_add_eq_or_of_lt hb, Nat.shiftLeft_eq]
    rfl
  rw [hor, BitVec.ofNat_or, BitVec.ofNat_and, BitVec.ofNat_toNat, BitVec.setWidth_eq, hbit]
  rfl

/-- R152, R153: the value that GSR reads, register by register. -/
theorem specialReg_eq_specialOf (s : State) (u : Iss) (n : Nat) : specialReg s u n = specialOf s u n := by
  match n with
  | 2 | 10 | 11 | _ + 12 => rfl
  | 0 | 1 | 3 | 4 | 8 => simp only [specialReg, specialOf, BitVec.ofNat_toNat, BitVec.setWidth_eq]
  | 5 =>
    rw [specialReg, specialOf, ofBits_filter_range]
    congr 1
    simpa using (sum_ite_eq_bitSum (fun k => smGet u.g.flags k 0) 0 12).symm
  | 6 =>
    rw [specialReg, specialOf, ← BitVec.ofNat_toNat, toNat_append_eq, toNat_laneSlices, mul_comm, ← sum_ite_eq_bitSum]
  | 7 => exact rpcMask_or_bit _ _
  | 9 =>
    rw [specialReg, specialOf]
    cases smFind s.ctxs u.g.ctx with
    | none => rfl
    | some c => exact (BitVec.ofNat_toNat 64 c.dies).symm

end Sys2Proof.Laws
end

section
/-! PROOFS. The group words (R147 to R154): each writes its one register or predicate under its guard, and moves on. -/
namespace Sys2Proof.Laws
open Sys2Proof Sys2Proof.Machine

/-! The shared forms of a group word. -/

section
variable {i : Instr} {s : State} {u : Iss}

theorem group_setG (h : Issues i s u) (gd : Guard) (d : Nat) (k : Iss → B64) :
    group i gd s (fun u => u.setG d (k u)) = .next (moved u (if guardQ u.g.q gd then setGReg u.g d (k u) else u.g) s) := by
  rw [group_frag h, setG_eq h]
  split_ifs <;> rfl

theorem gBin_eq (h : Issues i s u) (gd : Guard) (d a b : BitVec 6) (f : B64 → B64 → B64) :
    gBin i gd d a b s f = .next (moved u
      (if guardQ u.g.q gd then setGReg u.g d.toNat (f (gReg u.g a.toNat) (gReg u.g b.toNat)) else u.g) s) :=
  group_setG h gd d.toNat _

theorem gImm_eq (h : Issues i s u) (gd : Guard) (d : BitVec 6) (k : BitVec 12) (f : B64 → B64 → B64) :
    gImm i gd d k s f = .next (moved u
      (if guardQ u.g.q gd then setGReg u.g d.toNat (f (gReg u.g d.toNat) (k.signExtend 64)) else u.g) s) :=
  group_setG h gd d.toNat _

/-- R149's forms have no guard: they write as a word does whose guard is q7, which reads 1. -/
theorem issue_setG (h : Issues i s u) (d : Nat) (k : Iss → B64) :
    issue i s (fun u => u.setG d (k u)) none =
      .next (moved u (if guardQ u.g.q noGuard then setGReg u.g d (k u) else u.g) s) := by
  rw [issue_frag h, setG_eq h]
  rfl

theorem group_setQ (h : Issues i s u) (gd : Guard) (q : Nat) (k : Iss → Bool) :
    group i gd s (fun u => u.setQ q (k u)) = .next (moved u (if guardQ u.g.q gd then setQReg u.g q (k u) else u.g) s) := by
  rw [group_frag h, setQ_eq h]
  split_ifs <;> rfl

/-- R84: a write to q7 is discarded. -/
theorem setQReg_toNat (g : Gang) (q : BitVec 3) (b : Bool) :
    setQReg g q.toNat b = if q = 7 then g else
      { g with q := if b then g.q ||| (1#8 <<< q.toNat) else g.q &&& ~~~(1#8 <<< q.toNat) } := by
  have hq : q.toNat = 7 ↔ q = 7 := BitVec.toNat_inj (y := 7#3)
  simp only [setQReg, hq]

/-! Arithmetic and predicates. -/

/-- R147 to R149, R154: the result of each word goes to its register. -/
theorem exec_of_groupResult {gd : Guard} {d : BitVec 6} {v : B64} (h : Issues i s u)
    (hr : groupResult i u.g = some (gd, d, v)) :
    exec i s = .next (moved u (if guardQ u.g.q gd then setGReg u.g d.toNat v else u.g) s) := by
  cases i with
  | gadd => cases hr; rw [exec_gadd, execGadd, gBin_eq h]
  | gsub => cases hr; rw [exec_gsub, execGsub, gBin_eq h]
  | gmul => cases hr; rw [exec_gmul, execGmul, gBin_eq h]
  | gmulh => cases hr; rw [exec_gmulh, execGmulh, gBin_eq h, ofNat_toTwos_div 64]; rfl
  | gmin => cases hr; rw [exec_gmin, execGmin, gBin_eq h, pickMinMax_false]
  | gmax => cases hr; rw [exec_gmax, execGmax, gBin_eq h, pickMinMax_true]
  | gand => cases hr; rw [exec_gand, execGand, gBin_eq h]
  | gor => cases hr; rw [exec_gor, execGor, gBin_eq h]
  | gxor => cases hr; rw [exec_gxor, execGxor, gBin_eq h]
  | gshl => cases hr; rw [exec_gshl, execGshl, gBin_eq h, shiftL_eq_shlOf]
  | gshr => cases hr; rw [exec_gshr, execGshr, gBin_eq h, shiftR_eq_shrOf]
  | gsar => cases hr; rw [exec_gsar, execGsar, gBin_eq h, shiftA_eq_sarOf]
  | gaddi => cases hr; rw [exec_gaddi, execGaddi, gImm_eq h]
  | gandi => cases hr; rw [exec_gandi, execGandi, gImm_eq h]
  | gori => cases hr; rw [exec_gori, execGori, gImm_eq h]
  | gxori => cases hr; rw [exec_gxori, execGxori, gImm_eq h]
  | gshli => cases hr; rw [exec_gshli, execGshli, gImm_eq h, shiftL_eq_shlOf]
  | gshri => cases hr; rw [exec_gshri, execGshri, gImm_eq h, shiftR_eq_shrOf]
  | gsari => cases hr; rw [exec_gsari, execGsari, gImm_eq h, shiftA_eq_sarOf]
  | gmov => cases hr; rw [exec_gmov, execGmov, group_setG h]
  | gfromv => cases hr; rw [exec_gfromv, execGfromv]; exact group_setG h _ _ _
  | gmovi => cases hr; rw [exec_gmovi, execGmovi, issue_setG h]
  | gmovhi => cases hr; rw [exec_gmovhi, execGmovhi, issue_setG h, shiftLeft_or_setWidth]
  | _ => cases hr

/-- R150, R151: the result of each word goes to its predicate. -/
theorem exec_of_groupPred {gd : Guard} {q : BitVec 3} {b : Bool} (h : Issues i s u)
    (hr : groupPred i u.g = some (gd, q, b)) :
    exec i s = .next (moved u (if guardQ u.g.q gd then setQReg u.g q.toNat b else u.g) s) := by
  cases i with
  | gcmp g t c q a b =>
    cases hr
    rw [exec_gcmp, execGcmp, group_setQ h]
    simp only [condInt_eq_cmpOf]
    by_cases ht : 2 ≤ t.toNat
    · simp only [if_pos ht]
      rfl
    · simp only [if_neg ht]
      rfl
  | qlop g m d a b =>
    cases hr
    rw [exec_qlop, execQlop, group_setQ h]
    rfl
  | _ => cases hr
end

/-! Special registers. -/

section
variable {s : State} {u : Iss} {gd : Guard}

theorem exec_gsr_of_guard {d n : BitVec 6} (h : Issues (.gsr gd d n) s u) (hg : guardQ u.g.q gd = true) :
    exec (.gsr gd d n) s = .next (moved u (setGReg u.g d.toNat (specialOf s u n.toNat)) s) := by
  rw [exec_gsr, execGsr, group_frag h, if_pos hg, setG_eq h, specialReg_eq_specialOf]

/-- The gang once GSW has written the special register numbered `n` (R152). -/
def writeSpecial (g : Gang) (n : Nat) (v : B64) : Gang :=
  match n with
  | 3 => { g with fpcr := v.setWidth 2 }
  | 4 => { g with fpsr := v.setWidth 5 }
  | _ => { g with stream := v.setWidth 4 }

theorem writeSpecial_frags (g : Gang) (n : Nat) (v : B64) : (writeSpecial g n v).frags = g.frags := by
  unfold writeSpecial
  split <;> rfl

theorem writeSpecial_three (g : Gang) (v : B64) :
    writeSpecial g 3 v = { g with fpcr := BitVec.ofNat 2 (v.toNat % 4) } :=
  congrArg (fun x => { g with fpcr := x }) (ofNat_mod_eq_setWidth 2 v).symm

theorem writeSpecial_four (g : Gang) (v : B64) :
    writeSpecial g 4 v = { g with fpsr := BitVec.ofNat 5 (v.toNat % 32) } :=
  congrArg (fun x => { g with fpsr := x }) (ofNat_mod_eq_setWidth 5 v).symm

theorem writeSpecial_eight (g : Gang) (v : B64) :
    writeSpecial g 8 v = { g with stream := BitVec.ofNat 4 (v.toNat % 16) } :=
  congrArg (fun x => { g with stream := x }) (ofNat_mod_eq_setWidth 4 v).symm

theorem exec_gsw_of_guard {n a : BitVec 6} (h : Issues (.gsw gd n a) s u) (hg : guardQ u.g.q gd = true) :
    exec (.gsw gd n a) s = .next (moved u (writeSpecial u.g n.toNat (gReg u.g a.toNat)) s) := by
  rw [exec_gsw, execGsw, group_frag h, if_pos hg]
  exact congrArg _ (adv_adjGang h (writeSpecial · n.toNat _) (writeSpecial_frags _ _ _))

/-- R152: a legal GSW names one of the three writable registers. -/
theorem writable_of_legal_gsw {n a : BitVec 6} (h : legal (.gsw gd n a) = true) : n = 3 ∨ n = 4 ∨ n = 8 := by
  simp only [legal, fieldsOk, Bool.and_eq_true, decide_eq_true_eq] at h
  obtain ⟨⟨_, hn⟩, _⟩ := h
  exact hn
end

/-- Settles O8: each group word is one of the shared forms above, applied to the operation that its rule names. -/
theorem groupWords : Obligations.GroupWords := by
  refine ⟨fun i s u gd d v => exec_of_groupResult, fun i s u gd q b h hr => ?_, fun s u gd d n => exec_gsr_of_guard,
    fun s u gd n a h hg => ?_⟩
  · rw [exec_of_groupPred h hr, setQReg_toNat]
  · have hw {g : Gang} (e : writeSpecial u.g n.toNat (gReg u.g a.toNat) = g) :
        exec (.gsw gd n a) s = .next (moved u g s) := e ▸ exec_gsw_of_guard h hg
    refine ⟨?_, ?_, ?_, writable_of_legal_gsw h.legal⟩ <;> rintro rfl
    · exact hw (writeSpecial_three _ _)
    · exact hw (writeSpecial_four _ _)
    · exact hw (writeSpecial_eight _ _)

end Sys2Proof.Laws
end

section
/-! PROOFS. The integer operations of the lane words alone (R167 to R169, R173, R175), as arithmetic on the values that
their operands stand for. -/
namespace Sys2Proof.Laws
open Sys2Proof Sys2Proof.Machine

/-! Sums, products and magnitudes. -/

theorem ofNat_toTwos (n : Nat) (v : Int) : BitVec.ofNat n (toTwos n v) = BitVec.ofInt n v := by
  have hlt : toTwos n v < 2 ^ n :=
    (Int.toNat_lt (Int.emod_nonneg _ (by positivity))).mpr (Int.emod_lt_of_pos _ (by positivity))
  exact BitVec.eq_of_toNat_eq (by rw [BitVec.toNat_ofNat, BitVec.toNat_ofInt, Nat.mod_eq_of_lt hlt, toTwos])

/-- R134's range is not empty, so that the order in which its bounds are applied does not matter. -/
theorem satTo_eq_clamp (signed : Bool) (n : Nat) (v : Int) : satTo signed n v = clamp signed n v := by
  have hsigned : (0 : Int) < 2 ^ (n - 1) := by positivity
  have hunsigned : (0 : Int) < 2 ^ n := by positivity
  simp only [satTo, clamp, Nat.cast_pow, Nat.cast_ofNat]
  cases signed with
  | true => simp only [if_true]; grind
  | false => simp only [Bool.false_eq_true, if_false]; grind

/-- R167: the exact sum or difference, then the narrowing that M names. -/
theorem narrow32_addSub (sub : Bool) (m : Nat) (a b : B32) : narrow32 m (addSub sub m a b) = sumOf 32 m sub a b := by
  match m with
  | 0 | 1 | 2 | _ + 3 => simp [narrow32, sumOf, addSub, intOf, ofNat_toTwos, satTo_eq_clamp]

theorem narrow64_addSub (sub : Bool) (m : Nat) (a b : B64) : narrow64 m (addSub sub m a b) = sumOf 64 m sub a b := by
  match m with
  | 0 | 1 | 2 | _ + 3 => simp [narrow64, sumOf, addSub, intOf, ofNat_toTwos, satTo_eq_clamp]

theorem mul_eq_ofNat {w : Nat} (a b : BitVec w) : a * b = BitVec.ofNat w (a.toNat * b.toNat) := by
  rw [BitVec.ofNat_mul, BitVec.ofNat_toNat, BitVec.ofNat_toNat, BitVec.setWidth_eq, BitVec.setWidth_eq]

theorem mulHi_eq (m : BitVec 1) (a b : B32) :
    mulHi (m == 1) a b = BitVec.ofInt 32 (valOf (m == 0) a * valOf (m == 0) b / 2 ^ 32) := by
  have hm : (!(m == 1)) = (m == 0) := by revert m; decide
  rw [mulHi, hm, ofNat_toTwos_div 32]
  rfl

theorem ofNat_toTwos_add {w : Nat} (v : Int) (c : BitVec w) :
    BitVec.ofNat w (toTwos w v) + c = BitVec.ofInt w (v + c.toNat) := by
  rw [ofNat_toTwos, BitVec.ofInt_add, BitVec.ofInt_natCast, BitVec.ofNat_toNat, BitVec.setWidth_eq]

theorem ofInt_abs_toInt {w : Nat} (a : BitVec w) : BitVec.ofInt w |a.toInt| = if a.toInt < 0 then -a else a := by
  split_ifs with h
  · rw [abs_of_neg h, BitVec.ofInt_neg, BitVec.ofInt_toInt]
  · rw [abs_of_nonneg (not_lt.mp h), BitVec.ofInt_toInt]

/-- The least value alone has a magnitude outside the signed range. -/
theorem clamp_abs_toInt {w : Nat} {a : BitVec w} (hw : 0 < w) (ha : a ≠ BitVec.intMin w) :
    clamp true w |a.toInt| = |a.toInt| := by
  have hlo := BitVec.le_toInt a
  have hhi := BitVec.toInt_lt (x := a)
  have hmin : a.toInt ≠ -2 ^ (w - 1) := by rwa [← BitVec.toInt_intMin_of_pos hw, Ne, BitVec.toInt_inj]
  have habs : |a.toInt| ≤ 2 ^ (w - 1) - 1 := abs_le.mpr (by omega)
  rw [clamp, if_pos rfl, min_eq_right habs, max_eq_right]
  linarith [abs_nonneg a.toInt]

theorem clamp_abs_toInt_intMin {w : Nat} (hw : 0 < w) :
    clamp true w |(BitVec.intMin w).toInt| = (BitVec.intMax w).toInt := by
  have hpos : (0 : Int) < 2 ^ (w - 1) := by positivity
  rw [BitVec.toInt_intMin_of_pos hw, abs_neg, abs_of_pos hpos, BitVec.toInt_intMax, clamp, if_pos rfl,
    min_eq_left (by omega), max_eq_right (by omega)]

/-- R167: a magnitude outside the signed range wraps to the least value, or saturates to the largest. -/
theorem absVal_eq_magOf (sat : Bool) (w : Nat) (a : BitVec w) : absVal sat a = magOf sat w a := by
  rcases Nat.eq_zero_or_pos w with rfl | hw
  · exact Subsingleton.elim _ _
  cases sat with
  | false => simp [absVal, magOf, ofInt_abs_toInt]
  | true =>
    by_cases ha : a = BitVec.intMin w
    · subst ha
      have hneg : (BitVec.intMin w).toInt < 0 := by rw [BitVec.toInt_intMin_of_pos hw]; simp
      rw [absVal, if_pos hneg, magOf, if_pos rfl, clamp_abs_toInt_intMin hw, BitVec.ofInt_toInt]
      simp
    · simp [absVal, magOf, ha, clamp_abs_toInt hw ha, ofInt_abs_toInt]

/-! M of IMIN and IMAX names the comparison by its low bit (R167). -/

theorem low_beq_one (m : BitVec 2) : (m.toNat % 2 == 1) = (m.setWidth 1 == 1) := by
  revert m
  decide

theorem low_beq_zero (m : BitVec 2) : (m.toNat % 2 == 0) = (m.setWidth 1 == 0) := by
  revert m
  decide

theorem pickMinMax_low_false {w : Nat} (m : BitVec 2) (a b : BitVec w) :
    pickMinMax false (m.toNat % 2 == 1) a b =
      if valOf (m.toNat % 2 == 0) a ≤ valOf (m.toNat % 2 == 0) b then a else b := by
  rw [low_beq_one, low_beq_zero, pickMinMax_false]

theorem pickMinMax_low_true {w : Nat} (m : BitVec 2) (a b : BitVec w) :
    pickMinMax true (m.toNat % 2 == 1) a b =
      if valOf (m.toNat % 2 == 0) b ≤ valOf (m.toNat % 2 == 0) a then a else b := by
  rw [low_beq_one, low_beq_zero, pickMinMax_true]

/-! Bit counts and bit fields. -/

theorem size_eq_log2_add_one {n : Nat} (h : n ≠ 0) : Nat.size n = Nat.log2 n + 1 :=
  le_antisymm (Nat.size_le.mpr Nat.lt_log2_self) (Nat.lt_size.mpr (Nat.log2_self_le h))

theorem leadZeros_eq_clzOf {w : Nat} (a : BitVec w) : leadZeros a = clzOf a := by
  rw [leadZeros, clzOf]
  split_ifs with h
  · simp [h]
  · have hn : a.toNat ≠ 0 := fun e => h (BitVec.eq_of_toNat_eq e)
    rw [size_eq_log2_add_one hn, Nat.sub_sub, Nat.add_comm]

theorem bfPos_eq (c : B32) :
    bfPos c = (c.toNat % 256, if 32 ≤ c.toNat % 256 then 0 else min (c.toNat / 256 % 256) (32 - c.toNat % 256)) := by
  simp [bfPos, fld]

/-- A field's sign bit is set where its value reaches half its range. -/
theorem testBit_pred_iff {n f : Nat} (hn : 0 < n) (hf : f < 2 ^ n) : f.testBit (n - 1) = true ↔ 2 ^ (n - 1) ≤ f :=
  ⟨Nat.ge_two_pow_of_testBit, fun h =>
    Nat.testBit_of_two_pow_le_and_two_pow_add_one_gt h (by rwa [Nat.sub_add_cancel hn])⟩

theorem setWidth_sext64 {n f : Nat} (hn : 0 < n) (hf : f < 2 ^ n) :
    (sext64 n f).setWidth 32 = BitVec.ofInt 32 (if f.testBit (n - 1) then (f : Int) - 2 ^ n else f) := by
  have hle : (32 : Nat) ≤ 64 := by decide
  rw [sext64, Nat.mod_eq_of_lt hf]
  simp only [testBit_pred_iff hn hf]
  split_ifs
  · rw [BitVec.sub_eq_add_neg, BitVec.setWidth_add _ _ hle, BitVec.setWidth_neg_of_le hle, BitVec.setWidth_ofNat_of_le hle,
      BitVec.setWidth_ofNat_of_le hle, Int.sub_eq_add_neg, BitVec.ofInt_add, BitVec.ofInt_neg, BitVec.ofInt_natCast,
      ← BitVec.ofInt_natCast 32 (2 ^ n), Nat.cast_pow, Nat.cast_ofNat]
  · rw [BitVec.setWidth_ofNat_of_le hle, BitVec.ofInt_natCast]

/-- BFE at a position and effective length: the field, its sign bit copied upward where the word is signed (R169). -/
theorem extractField_eq (m : BitVec 1) (v : B32) (pos len : Nat) :
    (if len = 0 then 0 else if m = 1 then (sext64 len (fld v.toNat pos len)).setWidth 32
      else BitVec.ofNat 32 (fld v.toNat pos len)) =
    if len = 0 then (0 : B32) else BitVec.ofInt 32
      (if m == 1 && (fld v.toNat pos len).testBit (len - 1) then (fld v.toNat pos len : Int) - 2 ^ len
        else fld v.toNat pos len) := by
  have hf : fld v.toNat pos len < 2 ^ len := Nat.mod_lt _ (Nat.two_pow_pos _)
  by_cases hlen : len = 0
  · rw [if_pos hlen, if_pos hlen]
  rw [if_neg hlen, if_neg hlen]
  by_cases hm : m = 1
  · rw [if_pos hm, setWidth_sext64 (Nat.pos_of_ne_zero hlen) hf, beq_iff_eq.mpr hm, Bool.true_and]
  · rw [if_neg hm, beq_false_of_ne hm, Bool.false_and, if_neg Bool.false_ne_true, BitVec.ofInt_natCast]

theorem extractField_eq_bfeOf (m : BitVec 1) (v c : B32) :
    (if (bfPos c).2 = 0 then 0
      else if m = 1 then (sext64 (bfPos c).2 (fld v.toNat (bfPos c).1 (bfPos c).2)).setWidth 32
      else BitVec.ofNat 32 (fld v.toNat (bfPos c).1 (bfPos c).2)) = bfeOf (m == 1) v c := by
  rw [extractField_eq, bfPos_eq]
  rfl

/-- A field replaced: what lies above it, the new field and what lies below it. -/
theorem setFld_eq (v lo n x : Nat) :
    setFld v lo n x = v / 2 ^ (lo + n) * 2 ^ (lo + n) + x % 2 ^ n * 2 ^ lo + v % 2 ^ lo := by
  have hlo := Nat.div_add_mod v (2 ^ lo)
  have hn := Nat.div_add_mod (v / 2 ^ lo) (2 ^ n)
  rw [Nat.div_div_eq_div_mul, ← pow_add] at hn
  have hv : v = v / 2 ^ (lo + n) * 2 ^ (lo + n) + v / 2 ^ lo % 2 ^ n * 2 ^ lo + v % 2 ^ lo := by
    conv_lhs => rw [← hlo, ← hn]
    ring
  rw [setFld, fld]
  omega

/-- R169: BFI; an empty field leaves the register as it is. -/
theorem insertField_eq_bfiOf (old v c : B32) :
    (if (bfPos c).2 = 0 then old else BitVec.ofNat 32 (setFld old.toNat (bfPos c).1 (bfPos c).2 v.toNat)) =
      bfiOf old v c := by
  have hb : bfiOf old v c = BitVec.ofNat 32 (setFld old.toNat (bfPos c).1 (bfPos c).2 v.toNat) := by
    rw [setFld_eq, bfPos_eq]
    rfl
  rw [hb]
  split_ifs with h0
  · simp [h0, setFld, fld, Nat.mod_one]
  · rfl

/-- R175: seven predicates below the bit that p7 reads as. -/
theorem setWidth_or_bit_seven (p : BitVec 8) : (p ||| 0x80#8).setWidth 32 = BitVec.ofNat 32 (p.toNat % 128 + 128) := by
  revert p
  decide

end Sys2Proof.Laws
end

section
/-! PROOFS. The lane words of integers, logic and predicates (R166 to R175): each is one lane word of an operation that
raises no flag, so that it writes its results in every participating lane and moves on. -/
namespace Sys2Proof.Laws
open Sys2Proof Sys2Proof.Machine

/-! Words that raise no flag. -/

section
variable {i : Instr} {s : State} {u : Iss}

theorem orFlags_eq_zero {l : List Flags5} (h : ∀ f ∈ l, f = 0) : orFlags l = 0 :=
  foldl_keeps (· = 0) _ l 0 rfl fun b hb f hf => by rw [hb, h f hf]; rfl

theorem trapLanes_eq_zero (fpcr : BitVec 2) {l : List (Nat × Flags5)} (h : ∀ p ∈ l, p.2 = 0) : trapLanes fpcr l = 0 := by
  have hnone : l.filter (fun p => traps fpcr p.2) = [] := List.filter_eq_nil_iff.mpr fun p hp => by simp [h p hp, traps]
  rw [trapLanes, hnone]
  rfl

theorem orFpsr_zero (g : Gang) : orFpsr g 0 = g := congrArg (fun x => { g with fpsr := x }) BitVec.or_zero

/-- Results without flags are written, and the fragment moves on. -/
theorem finishLanes_of_quiet (h : Issues i s u) {outs : List (Nat × LaneOut)} (hq : ∀ p ∈ outs, p.2.fl = 0) :
    finishLanes u outs s = moved u (wrote u.g outs) s := by
  rw [finishLanes_ok h outs (trapLanes_eq_zero _ (List.forall_mem_map.mpr hq)), orFlags_eq_zero (List.forall_mem_map.mpr hq),
    orFpsr_zero]
  rfl

/-- The results, without flags, that each lane of a list has by its number. -/
theorem finishLanes_map (h : Issues i s u) (ls : List Nat) {o : Nat → LaneOut} (hq : ∀ l, (o l).fl = 0) :
    finishLanes u (ls.map fun l => (l, o l)) s = moved u (wrote u.g (ls.map fun l => (l, o l))) s :=
  finishLanes_of_quiet h (List.forall_mem_map.mpr fun l _ => hq l)

/-- The results of one operation without flags in every participating lane. -/
theorem finishLanes_laneOuts (h : Issues i s u) (gd : Guard) {f : LaneIn → LaneOut} (hq : ∀ x, (f x).fl = 0) :
    finishLanes u (laneOuts u gd f) s = moved u (wrote u.g (results u gd f)) s :=
  finishLanes_map h _ fun l => hq (gangIn u.g l)
end

/-! The shared forms of a lane word. -/

section
variable {w : BitVec 1} {wide : Bool} (hw : (w == 1) = wide) (d a b : BitVec 6) (x : LaneIn)
include hw

theorem bin_eq_by2 {f k : (n : Nat) → BitVec n → BitVec n → BitVec n} (h : ∀ n p q, f n p q = k n p q) :
    bin w d a b f x = by2 wide d a b x k := by
  simp only [bin, by2, ← hw, beq_iff_eq, h]
  rfl

theorem una_eq_by1 {f k : (n : Nat) → BitVec n → BitVec n} (h : ∀ n p, f n p = k n p) :
    una w d a f x = by1 wide d a x k := by
  simp only [una, by1, ← hw, beq_iff_eq, h]
  rfl

theorem shf_eq_by1 {f k : (n : Nat) → BitVec n → Nat → BitVec n} (h : ∀ n p c, f n p c = k n p c) :
    shf w d a b f x = by1 wide d a x fun n p => k n p (src x b).toNat := by
  simp only [shf, by1, ← hw, beq_iff_eq, h]
  rfl
end

section
variable (d a b : BitVec 6) (x : LaneIn)

/-- M of IMIN, IMAX and IABS names the width by its high bit (R167). -/
theorem wideBit_eq (m : BitVec 2) : ((if 2 ≤ m.toNat then 1 else 0 : BitVec 1) == 1) = decide (2 ≤ m.toNat) := by
  revert m
  decide

@[simp] theorem dst_fl (v : B32) : (dst d v).fl = 0 := rfl
@[simp] theorem dst2_fl (v : B64) : (dst2 d v).fl = 0 := rfl
@[simp] theorem by1_fl (wide : Bool) (f : (n : Nat) → BitVec n → BitVec n) : (by1 wide d a x f).fl = 0 := by
  unfold by1
  split_ifs <;> rfl
@[simp] theorem by2_fl (wide : Bool) (f : (n : Nat) → BitVec n → BitVec n → BitVec n) :
    (by2 wide d a b x f).fl = 0 := by
  unfold by2
  split_ifs <;> rfl
end

theorem laneWord_congr {i : Instr} {gd : Guard} {sub : Bool} {s : State} {f k : LaneIn → LaneOut} (h : ∀ x, f x = k x) :
    laneWord i gd sub s f = laneWord i gd sub s k := congrArg _ (funext h)

/-! Each word's operation. -/

section
variable {i : Instr} {gd : Guard} {f : LaneIn → LaneOut}

/-- Each word is the lane word of the operation that its rule names, for gangs and executors alike. -/
theorem exec_eq_laneWord (s : State) (hr : laneResult i = some (gd, f)) : exec i s = laneWord i gd true s f := by
  cases i with
  | iadd => cases hr; rw [exec_iadd]; exact laneWord_congr fun _ => congrArg (dst _) (narrow32_addSub _ _ _ _)
  | isub => cases hr; rw [exec_isub]; exact laneWord_congr fun _ => congrArg (dst _) (narrow32_addSub _ _ _ _)
  | iadd64 => cases hr; rw [exec_iadd64]; exact laneWord_congr fun _ => congrArg (dst2 _) (narrow64_addSub _ _ _ _)
  | isub64 => cases hr; rw [exec_isub64]; exact laneWord_congr fun _ => congrArg (dst2 _) (narrow64_addSub _ _ _ _)
  | imul => cases hr; rw [exec_imul]; exact laneWord_congr fun _ => congrArg (dst _) (mul_eq_ofNat _ _)
  | imulh => cases hr; rw [exec_imulh]; exact laneWord_congr fun _ => congrArg (dst _) (mulHi_eq _ _ _)
  | imad g m d =>
    cases hr
    rw [exec_imad]
    refine laneWord_congr fun x => ?_
    split_ifs
    · rfl
    · exact congrArg (dst2 d) (ofNat_toTwos_add _ _)
  | imin g m =>
    cases hr
    rw [exec_imin]
    exact laneWord_congr fun x => bin_eq_by2 (wideBit_eq m) _ _ _ x fun _ => pickMinMax_low_false m
  | imax g m =>
    cases hr
    rw [exec_imax]
    exact laneWord_congr fun x => bin_eq_by2 (wideBit_eq m) _ _ _ x fun _ => pickMinMax_low_true m
  | iabs g m =>
    cases hr
    rw [exec_iabs]
    exact laneWord_congr fun x => una_eq_by1 (wideBit_eq m) _ _ x (absVal_eq_magOf _)
  | andL => cases hr; rw [exec_andL]; exact laneWord_congr fun x => bin_eq_by2 rfl _ _ _ x fun _ _ _ => rfl
  | orL => cases hr; rw [exec_orL]; exact laneWord_congr fun x => bin_eq_by2 rfl _ _ _ x fun _ _ _ => rfl
  | xorL => cases hr; rw [exec_xorL]; exact laneWord_congr fun x => bin_eq_by2 rfl _ _ _ x fun _ _ _ => rfl
  | notL => cases hr; rw [exec_notL]; exact laneWord_congr fun x => una_eq_by1 rfl _ _ x fun _ _ => rfl
  | shl => cases hr; rw [exec_shl]; exact laneWord_congr fun x => shf_eq_by1 rfl _ _ _ x fun _ => shiftL_eq_shlOf
  | shr => cases hr; rw [exec_shr]; exact laneWord_congr fun x => shf_eq_by1 rfl _ _ _ x fun _ => shiftR_eq_shrOf
  | sar => cases hr; rw [exec_sar]; exact laneWord_congr fun x => shf_eq_by1 rfl _ _ _ x fun _ => shiftA_eq_sarOf
  | mov => cases hr; rw [exec_mov]; exact laneWord_congr fun x => una_eq_by1 rfl _ _ x fun _ _ => rfl
  | bfe => cases hr; rw [exec_bfe]; exact laneWord_congr fun _ => congrArg (dst _) (extractField_eq_bfeOf _ _ _)
  | bfi => cases hr; rw [exec_bfi]; exact laneWord_congr fun _ => congrArg (dst _) (insertField_eq_bfiOf _ _ _)
  | popc => cases hr; rw [exec_popc]; rfl
  | clz =>
    cases hr
    rw [exec_clz]
    refine laneWord_congr fun x => ?_
    simp only [cnt, leadZeros_eq_clzOf]
    rfl
  | brev => cases hr; rw [exec_brev]; exact laneWord_congr fun x => una_eq_by1 rfl _ _ x fun _ _ => rfl
  | sel p n =>
    cases hr
    rw [exec_sel]
    refine laneWord_congr fun x => bin_eq_by2 rfl _ _ _ x fun _ y z => ?_
    simp only [guardQ, beq_iff_eq]
  | isetp g t =>
    cases hr
    rw [exec_isetp]
    refine laneWord_congr fun x => ?_
    simp only [condInt_eq_cmpOf]
    by_cases ht : 2 ≤ t.toNat
    · simp only [if_pos ht]
      rfl
    · simp only [if_neg ht]
      rfl
  | iaddi => cases hr; rw [exec_iaddi]; rfl
  | imuli => cases hr; rw [exec_imuli]; rfl
  | andi => cases hr; rw [exec_andi]; rfl
  | ori => cases hr; rw [exec_ori]; rfl
  | xori => cases hr; rw [exec_xori]; rfl
  | shli => cases hr; rw [exec_shli]; exact laneWord_congr fun _ => congrArg (dst _) (shiftL_eq_shlOf _ _)
  | shri => cases hr; rw [exec_shri]; exact laneWord_congr fun _ => congrArg (dst _) (shiftR_eq_shrOf _ _)
  | sari => cases hr; rw [exec_sari]; exact laneWord_congr fun _ => congrArg (dst _) (shiftA_eq_sarOf _ _)
  | movi => cases hr; rw [exec_movi]; rfl
  | movhi => cases hr; rw [exec_movhi]; exact laneWord_congr fun _ => congrArg (dst _) (shiftLeft_or_setWidth _ _)
  | plop => cases hr; rw [exec_plop]; rfl
  | pmovTov => cases hr; rw [exec_pmovTov]; exact laneWord_congr fun _ => congrArg (dst _) (setWidth_or_bit_seven _)
  | pmovFromv => cases hr; rw [exec_pmovFromv]; rfl
  | _ => cases hr

/-- None of them raises a flag. -/
theorem fl_of_laneResult (hr : laneResult i = some (gd, f)) (x : LaneIn) : (f x).fl = 0 := by
  cases i with
  | iadd | isub | iadd64 | isub64 | imul | imulh | bfe | bfi | popc | clz | isetp | iaddi | imuli | andi | ori | xori
  | shli | shri | sari | movi | movhi | plop | pmovTov | pmovFromv => cases hr; rfl
  | iabs | notL | shl | shr | sar | mov | brev => cases hr; exact by1_fl _ _ _ _ _
  | imin | imax | andL | orL | xorL | sel => cases hr; exact by2_fl _ _ _ _ _ _
  | imad => cases hr; dsimp only; split_ifs <;> rfl
  | _ => cases hr
end

/-- Settles O10: each word is a lane word of the operation that its rule names, and raises no flag. -/
theorem laneIntegerWords : Obligations.LaneIntegerWords := by
  intro i s u gd f h hr
  rw [exec_eq_laneWord s hr, laneWord_frag h, finishLanes_laneOuts h gd (fl_of_laneResult hr)]

end Sys2Proof.Laws
end

section
/-! PROOFS. Masks of lanes as lists of their lanes: what a vote asks of the participating lanes (R187). -/
namespace Sys2Proof.Laws
open Sys2Proof Sys2Proof.Machine

section
variable {w : Nat} (m k : BitVec w)

theorem mem_bitList {l : Nat} : l ∈ bitList m ↔ m.getLsbD l = true := by
  rw [bitList, List.mem_filter, List.mem_range, and_iff_right_of_imp BitVec.lt_of_getLsbD]

theorem any_bitList : (bitList m).any k.getLsbD = (m &&& k != 0) := by
  have h : (∃ l, m.getLsbD l = true ∧ k.getLsbD l = true) ↔ m &&& k ≠ 0 := by
    rw [Ne, BitVec.eq_of_getLsbD_eq_iff]
    simp only [BitVec.getLsbD_and]
    constructor
    · rintro ⟨l, hm, hk⟩ h
      simpa [hm, hk] using h l (BitVec.lt_of_getLsbD hm)
    · intro h
      by_contra hnone
      refine h fun l _ => ?_
      simpa using fun hm hk => hnone ⟨l, hm, hk⟩
  rw [Bool.eq_iff_iff, List.any_eq_true, bne_iff_ne, ← h]
  simp only [mem_bitList]

theorem all_bitList : (bitList m).all k.getLsbD = (m &&& k == m) := by
  have h : (∀ l, m.getLsbD l = true → k.getLsbD l = true) ↔ m &&& k = m := by
    constructor
    · intro h
      refine BitVec.eq_of_getLsbD_eq fun l _ => ?_
      rw [BitVec.getLsbD_and]
      cases hm : m.getLsbD l with
      | false => rfl
      | true => exact h l hm
    · intro h l hm
      rw [← h, BitVec.getLsbD_and, Bool.and_eq_true] at hm
      exact hm.2
  rw [Bool.eq_iff_iff, List.all_eq_true, beq_iff_eq, ← h]
  simp only [mem_bitList]

theorem all_not_bitList : ((bitList m).all fun l => !k.getLsbD l) = (m &&& k == 0) := by
  rw [← List.not_any_eq_all_not, any_bitList, bne, Bool.not_not]

theorem bitSum_testBit (x n : Nat) : bitSum x.testBit n = x % 2 ^ n := by
  induction n with
  | zero => rw [pow_zero, Nat.mod_one]; rfl
  | succ n ih =>
    rw [bitSum_succ, ih, Nat.mod_pow_succ, ← Nat.toNat_testBit]
    cases x.testBit n <;> simp

theorem toNat_eq_bitSum : m.toNat = bitSum m.getLsbD w := by
  rw [← Nat.mod_eq_of_lt m.isLt, ← bitSum_testBit]
  rfl

/-- The lanes that a vote finds set, as the mask that `.ballot` writes. -/
theorem sum_two_pow_filter_bitList : (((bitList m).filter k.getLsbD).map (2 ^ ·)).sum = (m &&& k).toNat := by
  rw [toNat_eq_bitSum, bitSum, List.sum_map_ite, bitList, List.filter_filter]
  simp [Bool.and_comm]
end

end Sys2Proof.Laws
end

section
/-! PROOFS. The words that cross lanes or bring group values into them (R175, R187 to R189). -/
namespace Sys2Proof.Laws
open Sys2Proof Sys2Proof.Machine

/-- Settles O13: the votes read the participating lanes' bits, and every other word is a quiet lane word. -/
theorem laneCrossingWords : Obligations.LaneCrossingWords := by
  refine ⟨fun s u g d a h => ?pmov, fun s u g m d a h => ?vote, fun s u g d a h => ?ballot, fun s u g m d a b h => ?shfl,
    fun s u g m d a h => ?vfromg, fun s u g d n h => ?lsr⟩
  case pmov =>
    rw [exec_pmovFromq, execPmovFromq, issue_frag h, finishLanes_laneOuts h g fun _ => rfl]
    rfl
  case vote =>
    simp only [any_bitList, all_bitList, all_not_bitList]
    rw [exec_vote, execVote, issue_frag h]
    exact congrArg _ (setQ_eq h _ _)
  case ballot =>
    rw [sum_two_pow_filter_bitList, BitVec.ofNat_toNat, exec_voteBallot, execVoteBallot, issue_frag h]
    exact congrArg _ (setG_eq h _ _)
  case shfl =>
    rw [exec_shfl, execShfl, issue_frag h]
    dsimp only
    rw [finishLanes_map h _ fun _ => rfl]
    simp only [Bool.and_eq_true, decide_eq_true_eq, and_assoc]
    rfl
  case vfromg =>
    rw [exec_vfromg, execVfromg, issue_frag h]
    dsimp only
    rw [finishLanes_laneOuts h g fun _ => by split <;> rfl]
    rfl
  case lsr =>
    rw [exec_lsr, execLsr, issue_frag h]
    dsimp only
    rw [finishLanes_map h _ fun _ => by split <;> rfl]
    rfl

end Sys2Proof.Laws
end
